-- ==== Sys2Proof/Word.lean ====
section
/-! DEFINITION. The plain words of the model: bytes, finite maps as plain data, and the plainest arithmetic. -/

namespace Sys2Proof

/-- One byte of a frame. -/
abbrev Byte := BitVec 8

/-- A finite map as plain data: pairs of an index and a value. In canonical form the indexes rise strictly. -/
abbrev PMap (α : Type) := List (Nat × α)

/-- `a ÷ b` rounded up. -/
def divUp (a b : Nat) : Nat := (a + b - 1) / b

/-- `n` brought into `lo` to `hi`. -/
def bring (lo hi n : Nat) : Nat := max lo (min hi n)

/-- One more, saturating at `top`. -/
def satUp (top n : Nat) : Nat := min top (n + 1)

/-- One more on a 32-bit statistics counter (00_scope, Numbers and units: 32-bit, saturating). -/
def statUp (n : Nat) : Nat := satUp 4294967295 n

end Sys2Proof
end

