-- ==== Sys2Proof/Syntax.lean ====
section
/-! DEFINITION. The commands of the block: one constructor of `Instr` for each row of spec/opcode_table.json, and
the entries a table write carries. A written field is the number the frame carries (R199), in range or not: the
table's own rule judges it. -/

namespace Sys2Proof

/-- A zone rectangle: rows `r0` to `r1`, columns `c0` to `c1` (R32). -/
structure Rect where
  r0 : Nat
  r1 : Nat
  c0 : Nat
  c1 : Nat
deriving DecidableEq, Repr

/-- The written fields of a HALL entry (R183), `seatPoll` for lines 0 to 5, `masks` in the order of the categories. -/
structure HallWrite where
  seatPoll : List Nat
  stationPoll : Nat
  seatingLimit : Nat
  clearingTime : Nat
  verdictDeadline : Nat
  highMark : Nat
  masks : List Nat
deriving DecidableEq, Repr

/-- The written fields of a SEATS entry (R1); flags and service as their codes. -/
structure SeatWrite where
  configured : Nat
  row : Nat
  column : Nat
  accessible : Nat
  service : Nat
deriving DecidableEq, Repr

/-- The fields of a STATIONS entry (R118), as their codes. -/
structure StationWrite where
  configured : Nat
  role : Nat
deriving DecidableEq, Repr

/-- A ROSTER entry as written (R13): the four structural fields, or in use no. -/
inductive RosterWrite where
  | use (id channel cls : Nat) (fixed : Option Nat)
  | free
deriving DecidableEq, Repr

/-- The configuration fields of a CHANNELS entry as written (R32). -/
structure ChannelWrite where
  paper : Nat
  form : Nat
  profile : Nat
  zones : List Rect
  fill : Nat
  spacing : Nat
  relax : Nat
  admission : Option Nat
  start : Option Nat
  reading : Nat
  writing : Nat
  late : Nat
  barStart : Nat
  barEnd : Nat
  warnings : List Nat
deriving DecidableEq, Repr

/-- The fields of a CLASSES entry as written (R9). -/
structure ClassWrite where
  percent : Nat
  budget : Nat
  accessible : Nat
deriving DecidableEq, Repr

/-- The fields of a FORMS entry as written (R150). -/
structure FormWrite where
  defined : Nat
  questions : Nat
  options : Nat
  grid : Nat
deriving DecidableEq, Repr

/-- The fields of a PROFILES entry as written (R151). -/
structure ProfileWrite where
  defined : Nat
  blank : Nat
  mark : Nat
  margin : Nat
  handling : Nat
  refer : Nat
  span : Nat
deriving DecidableEq, Repr

/-- The fields of a KEYS entry as written (R152); the accepted set as the option indexes carried. -/
structure KeyWrite where
  accepted : List Nat
  weight : Nat
  penalty : Nat
  mode : Nat
deriving DecidableEq, Repr

/-- The fields of a SIGNALS entry as written (R29); `channel` is used with the source CHANNEL. -/
structure SignalWrite where
  source : Nat
  channel : Nat
  condition : Nat
  mode : Nat
  polarity : Nat
deriving DecidableEq, Repr

/-- The target of a desk message (R185). -/
inductive DeskTarget where
  | seat (i : Nat)
  | channel (c : Nat)
  | line (l : Nat)
  | hall
deriving DecidableEq, Repr

/-- The order in which the three consumers of a second tick take it. R24: their handling has no order among them,
so the sender of the event names the order taken (log entry 3). -/
inductive TickOrder where
  | sittingSeatsSignals
  | sittingSignalsSeats
  | seatsSittingSignals
  | seatsSignalsSitting
  | signalsSittingSeats
  | signalsSeatsSitting
deriving DecidableEq, Repr

/-- The commands of the block, one for each row of spec/opcode_table.json, in the table's order. Bytes of a frame
are those after its start byte. -/
inductive Instr where
  -- the part's own events: time base
  | powerOn
  | tick1ms (holdinLow : Bool) (holdAt : Nat) (o : TickOrder)
  | dividerTick (o : TickOrder)
  | refsecEdge (phase : Nat) (o : TickOrder)
  | missingEdgeJudgement (o : TickOrder)
  -- sitting channels, candidates, seats
  | timedAdmission (c : Nat)
  | timedStart (c : Nat)
  | writingStart (c : Nat)
  | deferredAmendment (c : Nat)
  | admissionClose (c : Nat)
  | baseEnd (c : Nat)
  | timeUp (k : Nat)
  | budgetExhaustion (k : Nat)
  | seatingExpiry (i : Nat)
  | clearingEnd (i : Nat)
  | holdinChange
  -- lines
  | intervalEnd (l : Fin 7)
  | lineReplyReceived (l : Fin 7) (bytes : List Byte)
  | replyWindowClose (l : Fin 7)
  | broadcastEnd (l : Fin 7)
  -- sheet port and marking
  | sheetFrameStart
  | sheetFrameEnd (bytes : List Byte)
  | sheetGapLimit (bytes : List Byte)
  | overrunFrameEnd (bytes : List Byte)
  | sheetChannelResolved (reach : Nat)
  | sheetCompletion
  | keyCommitEnd (c : Nat)
  | verdictSent
  -- office link
  | officeFrameEnd (bytes : List Byte)
  | officeGapLimit
  | officeFrameSent
  | undefinedRequest (tag kind : Byte) (payload : List Byte)
  -- table requests
  | readTable (tag : Byte) (table first count : Nat)
  | readKeys (tag : Byte) (first count : Nat)
  | writeTable (tag : Byte) (table first count : Nat) (payload : List Byte)
  | writeHall (tag : Byte) (first : Nat) (entries : List HallWrite)
  | writeSeats (tag : Byte) (first : Nat) (entries : List SeatWrite)
  | writeStations (tag : Byte) (first : Nat) (entries : List StationWrite)
  | writeRoster (tag : Byte) (first : Nat) (entries : List RosterWrite)
  | writeChannels (tag : Byte) (first : Nat) (entries : List ChannelWrite)
  | writeClasses (tag : Byte) (first : Nat) (entries : List ClassWrite)
  | writeForms (tag : Byte) (first : Nat) (entries : List FormWrite)
  | writeProfiles (tag : Byte) (first : Nat) (entries : List ProfileWrite)
  | writeKeys (tag : Byte) (first : Nat) (entries : List KeyWrite)
  | writeMessages (tag : Byte) (first : Nat) (entries : List (List Byte))
  | writeSignals (tag : Byte) (first : Nat) (entries : List SignalWrite)
  -- other requests
  | readStatus (tag : Byte)
  | readFlags (tag : Byte)
  | readStats (tag : Byte) (group : Nat) (clear : Bool)
  | readResults (tag : Byte) (start most : Nat)
  | releaseResults (tag : Byte) (upto : Nat)
  | readHistogram (tag : Byte) (c : Nat)
  | deskMessage (tag : Byte) (target : DeskTarget) (message : Nat)
  -- commands
  | channelLoad (tag : Byte) (c : Nat)
  | channelOpen (tag : Byte) (c : Nat)
  | channelStart (tag : Byte) (c : Nat)
  | channelHold (tag : Byte) (c : Nat)
  | channelResume (tag : Byte) (c : Nat)
  | amendNow (tag : Byte) (c length : Nat)
  | amendAtMinute (tag : Byte) (c length : Nat)
  | channelClose (tag : Byte) (c : Nat)
  | channelTeardown (tag : Byte) (c : Nat)
  | keyCommit (tag : Byte) (c : Nat)
  | hallHold (tag : Byte)
  | hallResume (tag : Byte)
  | hallTimeSet (tag : Byte) (value : Nat)
  | reseat (tag : Byte) (k i : Nat)
  | candidateFinish (tag : Byte) (k : Nat)
  | deskClear (tag : Byte) (l a : Nat)
  | lineQuiet (tag : Byte) (l : Nat)
  | lineWake (tag : Byte) (l : Nat)
  | lineTest (tag : Byte) (l : Nat)
  | lineReset (tag : Byte) (l : Nat)
  | statsClear (tag : Byte)
  | resetSittings (tag : Byte)
  | resetAll (tag : Byte)
  -- receivers
  | sheetPortQuietReached
  | officeLinkQuietReached
  | abandonedFrameEnd
deriving DecidableEq, Repr

end Sys2Proof
end

