-- ==== Sys2Proof/Config.lean ====
section
/-! DEFINITION. What an implementation fixes, and the values the manual leaves open (constants with no body). -/

namespace Sys2Proof.Config

/-- The RATE0 strap (00_scope, Pins). A strap: fixed for the part, and nothing in the model rests on its value. -/
opaque rate0 : Bool

/-- The RATE1 strap (00_scope, Pins). -/
opaque rate1 : Bool

/-- The office link rate in bit/s that the straps select (00_scope, Pins; R177). -/
def officeBitRate : Nat := if rate1 then 921600 else if rate0 then 460800 else 115200

/-- The byte that stands for the word ADMISSION_CLOSED in place of a channel state in a CHANNEL_PHASE notice.
R36 gives the notice the word; R199 gives no code for it. A free value (log entry 20). -/
opaque admissionClosedCode : Byte

/-- The oldest sequence number that a LOG_FULL notice carries when a release has emptied the log between the failing check
and the completion: R174 gives no value for it. A free value, by the log's next number (log entry 31). -/
opaque oldestOfEmptyLog : Nat → BitVec 32

/-- The kind byte of the response to a request kind of 0x80 or above, to which 0x80 cannot be added within the byte: 12.4
gives none. A free value, by the request's kind (log entry 32). -/
opaque highResponseKind : Byte → Byte

/-- Core clocks in one 1 ms tick (R18). -/
def clocksPerTick : Nat := 20000

/-- Core clocks after which a missing edge is judged (R20). -/
def missingEdgeClocks : Nat := 30000000

/-- The largest hall second (R24). -/
def lastHallSecond : Nat := 86399

/-- Number of notes a note FIFO holds (R110, R112). -/
def fifoSize : Nat := 16

/-- Number of notices the notice queue holds (R190). -/
def noticeQueueSize : Nat := 32

/-- Number of responses the response queue holds (R178). -/
def responseQueueSize : Nat := 8

/-- Number of records the result log holds (R169). -/
def logSize : Nat := 256

/-- Number of values a sheet slot stores (R137, R139). -/
def slotSize : Nat := 1720

/-- Number of entries the booklet table holds (R123). -/
def bookletTableSize : Nat := 2048

/-- Number of serials a booklet list holds (R123). -/
def bookletListSize : Nat := 8

end Sys2Proof.Config
end

