-- ==== Sys2Proof/Machine/State.lean ====
section
/-! DEFINITION. The state of the HC420 as plain data, its reasons to stop, and its reset. -/

namespace Sys2Proof.Machine

/-! ## Seats and lines -/

/-- Occupancy of a seat with its sub-fields (R1, R5); the remaining times in seconds. -/
inductive Occupancy where
  | free
  | held (slot remaining : Nat)
  | occupied (slot : Nat)
  | clearing (remaining : Nat)
deriving DecidableEq, Repr

/-- Why the seat's last candidate left it (R57). -/
inductive ClosingWord where
  | none
  | finished
  | timeUp
deriving DecidableEq, Repr

/-- A seat record (R1), with the clock unit's closing word (R57) and the allocator's lost occupant (R95). -/
structure Seat where
  configured : Bool
  row : Nat
  column : Nat
  accessible : Bool
  inService : Bool
  occ : Occupancy
  closing : ClosingWord
  lost : Option Nat
deriving DecidableEq, Repr

/-- The seat record at power-on (R8, R57, R95). -/
def Seat.blank : Seat := ⟨false, 0, 0, false, true, .free, .none, none⟩

/-- An allowance class (R9). -/
structure AllowanceClass where
  percent : Nat
  budget : Nat
  accessible : Bool
deriving DecidableEq, Repr

/-- The default class (R9). -/
def AllowanceClass.blank : AllowanceClass := ⟨0, 0, false⟩

/-- The state of a candidate entry (R11). -/
inductive EntryState where
  | expected
  | allocated
  | seated
  | writing
  | onBreak
  | finished
  | timeUp
  | collected
  | absent
  | missing
deriving DecidableEq, Repr

/-- The result status of a candidate entry (R12). -/
inductive ResultStatus where
  | none
  | scored
  | referred
deriving DecidableEq, Repr

/-- A candidate entry of an in-use roster slot (R10, R12). `booklets` holds the serials in the order issued; the
returned mark of each stands in the booklet table (R123). -/
structure Entry where
  id : Nat
  channel : Nat
  cls : Nat
  fixed : Option Nat
  state : EntryState
  seat : Option Nat
  lastSeat : Option Nat
  percent : Nat
  budget : Nat
  accessible : Bool
  allowed : Nat
  written : Nat
  remaining : Nat
  breaks : Nat
  booklets : List Nat
  finish : Option Nat
  result : ResultStatus
  late : Bool
  relaxed : Bool
  moved : Bool
  budgetOut : Bool
  deskLost : Bool
deriving DecidableEq, Repr

/-- The entry as the office writes it: the four structural fields, the rest as R12's column "on write". -/
def Entry.written0 (id channel cls : Nat) (fixed : Option Nat) : Entry :=
  ⟨id, channel, cls, fixed, .expected, none, none, 0, 0, false, 0, 0, 0, 0, [], none, .none,
    false, false, false, false, false⟩

/-- A booklet table entry, kept under its serial (R123). -/
structure Booklet where
  owner : Nat
  returned : Bool
deriving DecidableEq, Repr

/-! ## Sitting channels -/

/-- The state of a sitting channel (R33). -/
inductive ChanState where
  | free
  | loaded
  | opened
  | reading
  | writing
  | overtime
  | collecting
  | reconciled
  | releasing
deriving DecidableEq, Repr

/-- Fill order of the zone search (R32, R82). -/
inductive Fill where
  | rowwise
  | serpentine
deriving DecidableEq, Repr

/-- Spacing mode (R32, R83). -/
inductive Spacing where
  | none
  | row
  | cross
deriving DecidableEq, Repr

/-- The configuration fields of a channel (R32). -/
structure ChanConfig where
  paper : Nat
  form : Nat
  profile : Nat
  zones : List Rect
  fill : Fill
  spacing : Spacing
  relax : Bool
  admission : Option Nat
  start : Option Nat
  reading : Nat
  writing : Nat
  late : Nat
  barStart : Nat
  barEnd : Nat
  warnings : List Nat
deriving DecidableEq, Repr

/-- The default configuration (R32). -/
def ChanConfig.blank : ChanConfig :=
  ⟨0, 0, 0, [⟨0, 63, 0, 63⟩], .rowwise, .none, false, none, none, 0, 600, 0, 0, 0, []⟩

/-- A key bank's name (R33). -/
inductive Bank where
  | a
  | b
deriving DecidableEq, Repr

/-- The mode of a key entry (R152). -/
inductive KeyMode where
  | normal
  | voidAward
  | voidDrop
deriving DecidableEq, Repr

/-- A key entry (R152); the accepted set as its option indexes, ascending. -/
structure KeyEntry where
  accepted : List Nat
  weight : Nat
  penalty : Nat
  mode : KeyMode
deriving DecidableEq, Repr

/-- The zero entry (R152). -/
def KeyEntry.zero : KeyEntry := ⟨[], 0, 0, .normal⟩

/-- A channel's commit stage (R152); RUNNING holds its count of 1 ms ticks. -/
inductive CommitStage where
  | idle
  | pending
  | running (count : Nat)
deriving DecidableEq, Repr

/-- A pending amendment: the requested writing length (R48), and the writing elapsed at which it was accepted (the
model's own note, so that a multiple of 60 already standing does not count as the due second, R48). -/
structure Amendment where
  length : Nat
  since : Nat
deriving DecidableEq, Repr

/-- A sitting channel (R32, R33, R152). Banks are kept by position `q − 1`; an unlisted position is the zero entry.
The histogram is kept by band; an unlisted band is 0. -/
structure Channel where
  config : ChanConfig
  state : ChanState
  length : Nat
  readElapsed : Nat
  writeElapsed : Nat
  closed : Bool
  spent : Bool
  hold : Bool
  holdSeconds : Nat
  amendment : Option Amendment
  active : Bank
  generation : Nat
  stage : CommitStage
  bankA : PMap KeyEntry
  bankB : PMap KeyEntry
  histogram : PMap Nat
deriving DecidableEq, Repr

/-- A channel at power-on (R56): FREE, default configuration, the values at load. -/
def Channel.blank : Channel :=
  ⟨ChanConfig.blank, .free, 600, 0, 0, false, false, false, 0, none, .a, 0, .idle, [], [], []⟩

/-! ## Forms and profiles -/

/-- A form (R150). -/
structure Form where
  defined : Bool
  questions : Nat
  options : Nat
  grid : Nat
deriving DecidableEq, Repr

/-- A form at power-on (R150). -/
def Form.blank : Form := ⟨false, 1, 2, 0⟩

/-- A profile (R151); `asWrong` is the unclear handling AS_WRONG. -/
structure Profile where
  defined : Bool
  blank : Nat
  mark : Nat
  margin : Nat
  asWrong : Bool
  refer : Nat
  span : Nat
deriving DecidableEq, Repr

/-- A profile at power-on (R151). -/
def Profile.initial : Profile := ⟨false, 20, 45, 25, false, 0, 40⟩

/-! ## Line controller -/

/-- The state of a line (R98). -/
inductive LineState where
  | active
  | quiet
  | waking
  | testing
deriving DecidableEq, Repr

/-- The presence of a desk or station (R98). -/
inductive Presence where
  | absent
  | present
  | lost
  | faulty
deriving DecidableEq, Repr

/-- What a line keeps for one drop address (R98). -/
structure AddrState where
  presence : Presence
  missed : Nat
  owed : Int
  due : Bool
deriving DecidableEq, Repr

/-- A drop address at power-on (R98). -/
def AddrState.blank : AddrState := ⟨.absent, 0, 0, false⟩

/-- Why a FINISH press is refused (R67). -/
inductive Bar where
  | start
  | finish
deriving DecidableEq, Repr

/-- The content of a note (R97, R64 to R67, R79, the station answers of chapter 7, R101, R185). -/
inductive NoteContent where
  | reserved (digits : Nat)
  | welcome (digits : Nat)
  | wrongSeat (row column : Nat)
  | goToEntrance
  | unknown
  | alreadyLeft
  | notAdmitted
  | blank
  | finishRefused (reason : Bar)
  | breakRefused
  | timeUp
  | finished
  | seatGiven (row column : Nat)
  | notReady
  | held
  | unknownCandidate
  | notAdmitting
  | late
  | noSeat
  | alreadyIn (position : Option (Nat × Nat))
  | bookletInUse (serial : Nat)
  | listFull (serial : Nat)
  | bookletTableFull (serial : Nat)
  | issued (serial count : Nat)
  | returned (serial out : Nat) (collected : Bool)
  | noTag
  | notWriting
  | unknownBooklet (serial : Nat)
  | duplicateReturn (serial : Nat)
  | stillWriting (serial : Nat)
  | channelClosed (serial : Nat)
  | wrongStation
  | message (text : List Byte)
deriving DecidableEq, Repr

/-- A note in a line's note FIFO (R112). -/
structure Note where
  addr : Nat
  content : NoteContent
deriving DecidableEq, Repr

/-- The display of a clock frame (R72). -/
inductive Display where
  | clock
  | reserved
  | timeUp
  | finished
  | blank
deriving DecidableEq, Repr

/-- The phase of a clock frame (R72). -/
inductive Phase where
  | waiting
  | reading
  | writing
  | onBreak
deriving DecidableEq, Repr

/-- What a desk counts down (R72). -/
inductive Counting where
  | none
  | remaining
  | budget
deriving DecidableEq, Repr

/-- The content of a CLOCK frame (R72); fields that are not present are `none`. -/
structure ClockContent where
  display : Display
  phase : Option Phase
  remaining : Option Nat
  counting : Option Counting
  budget : Option Nat
  hold : Option Bool
  warning : Option Nat
  digits : Option Nat
deriving DecidableEq, Repr

/-- The frame of an exchange in flight (R99). A DISCOVER is a discovery poll or part of a sweep. A CLOCK frame notes
whether its desk's mark was set again after the content was built (R110). -/
inductive ExchangeKind where
  | poll
  | discover (sweep : Bool)
  | clock (content : ClockContent) (again : Bool)
  | note (content : NoteContent)
  | broadcast (content : NoteContent)
  | test (pattern : Nat)
deriving DecidableEq, Repr

/-- An exchange in flight on a line: the frame and the address it names (R99). -/
structure Exchange where
  addr : Nat
  kind : ExchangeKind
deriving DecidableEq, Repr

/-- Progress of a wiring test (R98, R114 to R116): the address under test (0: none yet), the next pattern, the echoes
gathered for it, and the addresses decided so far. -/
structure TestProgress where
  addr : Nat
  pattern : Nat
  correct : Nat
  replies : Nat
  present : Nat
  faulty : Nat
  absent : Nat
deriving DecidableEq, Repr

/-- Test progress with nothing done. -/
def TestProgress.blank : TestProgress := ⟨0, 0, 0, 0, 0, 0, 0⟩

/-- The statistics of a line (R121). -/
structure LineStats where
  polls : Nat
  replies : Nat
  missed : Nat
  badCheck : Nat
  latePolls : Nat
  clockFrames : Nat
  notesSent : Nat
  notesDropped : Nat
  wrongSeat : Nat
deriving DecidableEq, Repr

/-- Line statistics at power-on (R121). -/
def LineStats.zero : LineStats := ⟨0, 0, 0, 0, 0, 0, 0, 0, 0⟩

/-- A seat line or the station line (R98). `cursor` is the next address a sweep or test tries, `blankDue` the
flush and broadcast BLANK still to be made on entry to QUIET (R103), `resetSweep` that the sweep in progress follows
a LINE_RESET (R105), `swept` that the first sweep after the reset has ended (R104, R192), `testDue` that the wiring test
taken has not started, for an exchange still in flight (R114). -/
structure Line where
  state : LineState
  timer : Nat
  interval : Nat
  discovery : Nat
  marks : List Nat
  fifo : List Note
  addrs : PMap AddrState
  exchange : Option Exchange
  cursor : Nat
  test : TestProgress
  blankDue : Bool
  resetSweep : Bool
  swept : Bool
  testDue : Bool
  stats : LineStats
deriving DecidableEq, Repr

/-- A line right after its first sweep has ended with no address configured (R98, R104), at the default seat-line
poll interval (R183). -/
def Line.fresh : Line :=
  ⟨.active, 0, 250, 0, [], [], [], none, 1, TestProgress.blank, false, false, true, false, LineStats.zero⟩

/-- A line at power-on (R98): WAKING, its sweep at the first address. -/
def Line.waking (interval : Nat) : Line :=
  ⟨.waking, 0, interval, 0, [], [], [], none, 1, TestProgress.blank, false, false, false, false, LineStats.zero⟩

/-- The role of a station (R118). -/
inductive Role where
  | entrance
  | collect
  | issue
deriving DecidableEq, Repr

/-- A STATIONS entry (R118). -/
structure Station where
  configured : Bool
  role : Role
deriving DecidableEq, Repr

/-- A station at power-on (R118). -/
def Station.blank : Station := ⟨false, .entrance⟩

/-! ## Time base and signal lines -/

/-- The reference state (R21). -/
inductive RefState where
  | acquiring
  | good
  | lost
deriving DecidableEq, Repr

/-- The time base (R18 to R28). `samplePhase` counts 1 ms ticks to the next HOLDIN sample, `holdPin` is the debounced
level (true: asserted), `holdCount` the consecutive differing samples. -/
structure TimeBase where
  prescaler : Nat
  divider : Nat
  openPeriod : Option Nat
  missingTimer : Nat
  lastPeriod : Option Nat
  refState : RefState
  bad : Nat
  good : Nat
  hallTime : Nat
  samplePhase : Nat
  holdPin : Bool
  holdCount : Nat
  officeHold : Bool
deriving DecidableEq, Repr

/-- The time base at power-on (R18 to R27). -/
def TimeBase.reset : TimeBase := ⟨0, 0, none, 0, none, .acquiring, 0, 0, 0, 0, false, 0, false⟩

/-- The source of a signal line (R29). -/
inductive SignalSource where
  | none
  | channel (c : Nat)
  | hallHeld
  | refLost
deriving DecidableEq, Repr

/-- The condition of a signal line (R29). -/
inductive SignalCondition where
  | reading
  | writing
  | final
  | overtime
  | held
deriving DecidableEq, Repr

/-- The fields of a SIGNALS entry (R29). -/
structure SignalEntry where
  source : SignalSource
  condition : SignalCondition
  flash : Bool
  activeLow : Bool
deriving DecidableEq, Repr

/-- A signal line: the entry in force, a write still pending, and whether the output is active (R29, R31). -/
structure Signal where
  entry : SignalEntry
  pending : Option SignalEntry
  active : Bool
deriving DecidableEq, Repr

/-- A signal line at power-on (R29). -/
def Signal.blank : Signal := ⟨⟨.none, .reading, false, false⟩, none, false⟩

/-! ## Sheet intake, marking unit, result log -/

/-- The state of a sheet slot (R137). -/
inductive SlotState where
  | empty
  | receiving
  | waiting
  | scoring
deriving DecidableEq, Repr

/-- A sheet slot with its record (R137). -/
structure Slot where
  state : SlotState
  sheet : Nat
  form : Nat
  white : Nat
  black : Nat
  declared : Nat
  values : List Byte
  overrun : Bool
  good : Bool
  age : Nat
  deadline : Nat
  resolved : Option Nat
deriving DecidableEq, Repr

/-- An EMPTY slot with its record cleared (R137). -/
def Slot.blank : Slot := ⟨.empty, 0, 0, 0, 0, 0, [], false, false, 0, 0, none⟩

/-- Where the sheet receiver stands in its byte stream (R136, R139, R148). -/
inductive SheetRx where
  | awaitQuiet
  | outside
  | receiving (slot : Nat)
  | overrun (offer : Bool)
  | abandoned
deriving DecidableEq, Repr

/-- The status of a sheet (R159, R165; the codes of 12.3). -/
inductive Status where
  | scored
  | referred
  | badFrame
  | formUnknown
  | overrun
  | formMismatch
  | calFault
  | idUnreadable
  | paperUnreadable
  | noChannel
  | notOnRoster
  | channelClosed
  | notCollected
  | duplicateSheet
  | logFull
deriving DecidableEq, Repr

/-- A verdict (R144, R165). -/
inductive Verdict where
  | accept
  | review
  | reject
deriving DecidableEq, Repr

/-- A verdict frame in the verdict queue (R144, R145); `startOverrun` marks a start-of-sheet overrun verdict. -/
structure VerdictFrame where
  sheet : Nat
  verdict : Verdict
  status : Status
  late : Bool
  startOverrun : Bool
deriving DecidableEq, Repr

/-- What SP_TX is sending (R145, R148): nothing, the head of the verdict queue, or a verdict whose queue
RESET_SITTINGS emptied under it. -/
inductive SpTx where
  | idle
  | head
  | orphan (v : VerdictFrame)
deriving DecidableEq, Repr

/-- The marking unit's work on the SCORING sheet (R159): the number of checks passed, the status of the check that failed,
the sheet's form entry read once, at the take (R150): whether it is defined, its N, n and grid profile; the candidate id,
paper number, channel and roster slot found, and the bank and generation taken at check 13. -/
structure Marking where
  slot : Nat
  made : Nat
  failed : Option Status
  formed : Bool
  questions : Nat
  options : Nat
  grid : Nat
  id : Option Nat
  paper : Nat
  channel : Option Nat
  entry : Option Nat
  bank : Bank
  generation : Nat
deriving DecidableEq, Repr

/-- The work at the take of slot `n`, whose sheet names form `f` (R142, R150, R159). -/
def Marking.take (n : Nat) (f : Form) : Marking :=
  ⟨n, 0, none, f.defined, f.questions, f.options, f.grid, none, 0, none, none, .a, 0⟩

/-- The score fields of a result record (R163, R164, R168). -/
structure Score where
  generation : Nat
  final : Nat
  maximum : Nat
  perMille : Nat
  correct : Nat
  wrong : Nat
  multiple : Nat
  blank : Nat
  unclear : Nat
  void : Nat
  unclearList : List Nat
  truncated : Bool
  clamped : Bool
  noMax : Bool
deriving DecidableEq, Repr

/-- A result record (R168). -/
structure ResultRecord where
  number : Nat
  sheet : Nat
  time : Nat
  verdict : Verdict
  status : Status
  late : Bool
  channel : Option Nat
  id : Option Nat
  slot : Option Nat
  seat : Option Nat
  score : Option Score
deriving DecidableEq, Repr

/-- The result log (R169). -/
structure ResultLog where
  records : List ResultRecord
  next : Nat
  armed : Bool
deriving DecidableEq, Repr

/-- The statistics of the sheet port (R147). -/
structure SheetStats where
  sheets : Nat
  startOverruns : Nat
  midOverruns : Nat
  badCrc : Nat
  calFaults : Nat
  lateVerdicts : Nat
  logFull : Nat
deriving DecidableEq, Repr

/-- Sheet intake and marking work (R137 to R149). `ready` is the level of the SHEET_RDY output. -/
structure Intake where
  rx : SheetRx
  slots : PMap Slot
  arrivals : List Nat
  verdicts : List VerdictFrame
  tx : SpTx
  ready : Bool
  marking : Option Marking
  stats : SheetStats
deriving DecidableEq, Repr

/-- The intake at power-on (R136, R137, R145, R147, R138). -/
def Intake.reset : Intake := ⟨.awaitQuiet, [], [], [], .idle, false, none, ⟨0, 0, 0, 0, 0, 0, 0⟩⟩

/-! ## Office link -/

/-- A category of event (11.5), in the order of its table. -/
inductive Category where
  | help
  | seatingExpired
  | deskLost
  | deskBack
  | budgetOut
  | channelPhase
  | openFailed
  | amend
  | refLost
  | refBack
  | hallHoldChange
  | lineTestDone
  | overrun
  | logHigh
  | logFull
  | teardownDone
  | noticeLost
deriving DecidableEq, Repr

/-- The input whose change caused a change of the hall-held condition (R28). -/
inductive HoldInput where
  | pin
  | office
deriving DecidableEq, Repr

/-- What a notice carries (11.5 and the rules it names). -/
inductive Subject where
  | help (seat time : Nat) (slot : Option Nat)
  | seatingExpired (seat slot : Nat)
  | deskLost (line addr : Nat) (presence : Presence) (seat slot : Option Nat)
  | deskBack (line addr : Nat) (seat : Option Nat)
  | budgetOut (seat slot : Nat)
  | channelPhase (channel : Nat) (state : ChanState) (time : Nat)
  | admissionClosed (channel count : Nat)
  | openFailed (channel slot : Nat)
  | amendApplied (channel length elapsed : Nat)
  | amendDropped (channel length : Nat)
  | refLost
  | refBack
  | hallHoldChange (held : Bool) (cause : HoldInput)
  | lineTestDone (line present faulty absent : Nat)
  | overrun (mid : Bool) (sheet : Nat)
  | logHigh (count oldest : Nat)
  | logFull (sheet oldest : Nat)
  | teardownDone (channel time : Nat)
deriving DecidableEq, Repr

/-- A notice in the notice queue (R190). -/
structure Notice where
  subject : Subject
  time : Nat
deriving DecidableEq, Repr

/-- A result code (R178), in the order of its table. -/
inductive Code where
  | ok
  | clamped
  | busy
  | range
  | inUse
  | duplicate
  | conflict
  | wrongPhase
  | tooLate
  | tooLong
  | notFound
  | unknownTable
  | unknownCommand
deriving DecidableEq, Repr

/-- A response in the response queue (R178); the payload after the result code as the bytes sent (R199). -/
structure Response where
  tag : Byte
  kind : Byte
  code : Code
  payload : List Byte
deriving DecidableEq, Repr

/-- What OL_TX is sending (R179): nothing, or the head of one of the two queues. -/
inductive OlTx where
  | idle
  | response
  | notice
deriving DecidableEq, Repr

/-- The statistics of the office link (R193). -/
structure OfficeStats where
  framesIn : Nat
  badFrames : Nat
  noticesSent : Nat
  noticesDropped : Nat
  protectedReads : Nat
deriving DecidableEq, Repr

/-- The office link interface (R177 to R195). `resetPending`: a RESET_ALL has been taken and its response has not yet
left (R195). `flags` holds the categories whose event flag is set, in table order. -/
structure Office where
  awaitQuiet : Bool
  responses : List Response
  notices : List Notice
  tx : OlTx
  flags : List Category
  ready : Bool
  resetPending : Bool
  stats : OfficeStats
deriving DecidableEq, Repr

/-- The office link interface at power-on (R177, R179, R187, R190, R192, R193). -/
def Office.reset : Office := ⟨true, [], [], .idle, [], false, false, ⟨0, 0, 0, 0, 0⟩⟩

/-- The statistics of the booklet register (R135). -/
structure BookletStats where
  issued : Nat
  returned : Nat
  duplicate : Nat
deriving DecidableEq, Repr

/-- The hall settings (R183); `seatPoll` for lines 0 to 5, `masks` the categories whose mask is set, in table order. -/
structure HallSettings where
  seatPoll : List Nat
  stationPoll : Nat
  seatingLimit : Nat
  clearingTime : Nat
  verdictDeadline : Nat
  highMark : Nat
  masks : List Category
deriving DecidableEq, Repr

/-- The default hall settings (R183). -/
def HallSettings.reset : HallSettings := ⟨[250, 250, 250, 250, 250, 250], 100, 300, 120, 400, 192, []⟩

/-! ## The machine -/

/-- The whole state of the HC420, and the queue of commands that wait. Tables are finite maps in canonical form: an
unlisted index holds the blank record of its table, and an unlisted roster slot is free. `warnings` is the clock
unit's warning pending for each slot (R57). `ticking` is the model's own: the channel that has a second tick in hand,
none but while a tick is taken (R40, log entry 2). -/
structure State where
  pending : List Instr
  time : TimeBase
  ticking : Option Nat
  signals : PMap Signal
  hall : HallSettings
  seats : PMap Seat
  classes : PMap AllowanceClass
  roster : PMap Entry
  warnings : PMap Nat
  channels : PMap Channel
  booklets : PMap Booklet
  bookletStats : BookletStats
  forms : PMap Form
  profiles : PMap Profile
  messages : PMap (List Byte)
  stations : PMap Station
  lines : PMap Line
  intake : Intake
  log : ResultLog
  office : Office
deriving DecidableEq, Repr

/-- Reasons to stop with a fault. There is none: the manual describes no event that stops the part. A command the
part cannot meet where it stands leaves it unchanged (log entry 2). Safe and unsafe do not arise. -/
inductive Fault where
deriving DecidableEq, Repr

/-- Reasons to refuse. -/
inductive Refusal where
  /-- Raised by `exec` for a row of the table that has no meaning yet (no row today); safe. -/
  | notModelled (mnemonic : String)
deriving DecidableEq, Repr

/-- The values R98 and the other chapters give at the moment of power-on, before the sweeps end. -/
def State.atPowerOn : State where
  pending := []
  time := TimeBase.reset
  ticking := none
  signals := []
  hall := HallSettings.reset
  seats := []
  classes := []
  roster := []
  warnings := []
  channels := []
  booklets := []
  bookletStats := ⟨0, 0, 0⟩
  forms := []
  profiles := []
  messages := []
  stations := []
  lines := [(0, Line.waking 250), (1, Line.waking 250), (2, Line.waking 250), (3, Line.waking 250),
    (4, Line.waking 250), (5, Line.waking 250), (6, Line.waking 100)]
  intake := Intake.reset
  log := ⟨[], 1, true⟩
  office := Office.reset

/-- The machine right after reset: power-on, with the sweep of every line ended at once because no address is
configured (R98, R104). -/
def State.reset : State :=
  { State.atPowerOn with lines := [(6, { Line.fresh with interval := 100 })] }

end Sys2Proof.Machine
end

