-- ==== Sys2Proof/Machine/Map.lean ====
section
/-! DEFINITION. Finite maps in one canonical form (indexes strictly rising): reading, writing, erasing; and the
canonical-form predicate. -/

namespace Sys2Proof.Machine

variable {α : Type}

/-- The value at index `i`, if listed. -/
def mapGet : PMap α → Nat → Option α
  | [], _ => none
  | (k, v) :: m, i => if k = i then some v else mapGet m i

/-- The map without index `i`. -/
def mapErase : PMap α → Nat → PMap α
  | [], _ => []
  | (k, v) :: m, i => if k = i then mapErase m i else (k, v) :: mapErase m i

/-- The map with `(i, v)` put before the first larger index. -/
def mapInsert : PMap α → Nat → α → PMap α
  | [], i, v => [(i, v)]
  | (k, w) :: m, i, v => if i < k then (i, v) :: (k, w) :: m else (k, w) :: mapInsert m i v

/-- The map with the value at `i` replaced by `v`. -/
def mapPut (m : PMap α) (i : Nat) (v : α) : PMap α := mapInsert (mapErase m i) i v

/-- The value at `i` of a table whose unlisted entries are `d`. -/
def tabGet (d : α) (m : PMap α) (i : Nat) : α := (mapGet m i).getD d

/-- The table with entry `i` set to `v`; the entry is unlisted when `v` is `d`, so that equal tables are equal data. -/
def tabSet [DecidableEq α] (d : α) (m : PMap α) (i : Nat) (v : α) : PMap α :=
  if v = d then mapErase m i else mapPut m i v

/-- Every entry of a table changed by `f`, which keeps the unlisted entry `d`. -/
def tabMap [DecidableEq α] (d : α) (f : α → α) (m : PMap α) : PMap α :=
  (m.map fun p => (p.1, f p.2)).filter fun p => decide (p.2 ≠ d)

/-- The indexes listed. -/
def mapKeys (m : PMap α) : List Nat := m.map Prod.fst

/-- Every index listed is at least `lo` and they rise strictly. -/
def mapRises : Nat → PMap α → Bool
  | _, [] => true
  | lo, (k, _) :: m => decide (lo ≤ k) && mapRises (k + 1) m

/-- Canonical form of a finite map: indexes strictly rising and below `size`. -/
def mapWf (size : Nat) (m : PMap α) : Bool := mapRises 0 m && m.all (fun p => decide (p.1 < size))

/-- Canonical form of a table: that of a map, and no entry equal to the one an unlisted index reads as. -/
def tabWf [DecidableEq α] (d : α) (size : Nat) (m : PMap α) : Bool := mapWf size m && m.all (fun p => decide (p.2 ≠ d))

end Sys2Proof.Machine
end

