-- ==== Sys2Proof/Machine/Ops.lean ====
section
/-! DEFINITION. Named reads and writes of the tables, and the line controller's marks and notes that other blocks use. -/

namespace Sys2Proof.Machine

/-! ## Tables -/

/-- The seat record of seat `i` (R1). -/
def State.seat (s : State) (i : Nat) : Seat := tabGet Seat.blank s.seats i

/-- Seat record `i` changed by `f`. -/
def State.onSeat (s : State) (i : Nat) (f : Seat → Seat) : State :=
  { s with seats := tabSet Seat.blank s.seats i (f (s.seat i)) }

/-- The entry of roster slot `k`; none for a free slot (R10). -/
def State.entry (s : State) (k : Nat) : Option Entry := mapGet s.roster k

/-- Slot `k` in use with entry `e`. -/
def State.putEntry (s : State) (k : Nat) (e : Entry) : State := { s with roster := mapPut s.roster k e }

/-- The entry of slot `k` changed by `f`; a free slot stays free. -/
def State.onEntry (s : State) (k : Nat) (f : Entry → Entry) : State :=
  match s.entry k with
  | some e => s.putEntry k (f e)
  | none => s

/-- Channel `c` (R32, R33). -/
def State.chan (s : State) (c : Nat) : Channel := tabGet Channel.blank s.channels c

/-- Channel `c` changed by `f`. -/
def State.onChan (s : State) (c : Nat) (f : Channel → Channel) : State :=
  { s with channels := tabSet Channel.blank s.channels c (f (s.chan c)) }

/-- Line `l` (R98). -/
def State.line (s : State) (l : Nat) : Line := tabGet Line.fresh s.lines l

/-- Line `l` changed by `f`. -/
def State.onLine (s : State) (l : Nat) (f : Line → Line) : State :=
  { s with lines := tabSet Line.fresh s.lines l (f (s.line l)) }

/-- Allowance class `n` (R9). -/
def State.cls (s : State) (n : Nat) : AllowanceClass := tabGet AllowanceClass.blank s.classes n

/-- Form `n` (R150). -/
def State.form (s : State) (n : Nat) : Form := tabGet Form.blank s.forms n

/-- Profile `n` (R151). -/
def State.profile (s : State) (n : Nat) : Profile := tabGet Profile.initial s.profiles n

/-- Message `n` (R184). -/
def State.message (s : State) (n : Nat) : List Byte := tabGet [] s.messages n

/-- The station at drop address `a` (R118). -/
def State.station (s : State) (a : Nat) : Station := tabGet Station.blank s.stations a

/-- Signal line `n` (R29). -/
def State.signal (s : State) (n : Nat) : Signal := tabGet Signal.blank s.signals n

/-- Signal line `n` changed by `f`. -/
def State.onSignal (s : State) (n : Nat) (f : Signal → Signal) : State :=
  { s with signals := tabSet Signal.blank s.signals n (f (s.signal n)) }

/-- Sheet slot `n` (R137). -/
def Intake.slot (t : Intake) (n : Nat) : Slot := tabGet Slot.blank t.slots n

/-- Sheet slot `n` changed by `f`. -/
def Intake.onSlot (t : Intake) (n : Nat) (f : Slot → Slot) : Intake :=
  { t with slots := tabSet Slot.blank t.slots n (f (t.slot n)) }

/-- The intake changed by `f`. -/
def State.onIntake (s : State) (f : Intake → Intake) : State := { s with intake := f s.intake }

/-- The office link interface changed by `f`. -/
def State.onOffice (s : State) (f : Office → Office) : State := { s with office := f s.office }

/-- The time base changed by `f`. -/
def State.onTime (s : State) (f : TimeBase → TimeBase) : State := { s with time := f s.time }

/-- The statistics of line `l` changed by `f` (R121). -/
def State.onStats (s : State) (l : Nat) (f : LineStats → LineStats) : State :=
  s.onLine l fun n => { n with stats := f n.stats }

/-- The warning pending of slot `k` made absent (R57). -/
def State.dropWarning (s : State) (k : Nat) : State := { s with warnings := mapErase s.warnings k }

/-- The roster slots in use whose entry names channel `c`, ascending. -/
def State.slotsOf (s : State) (c : Nat) : List Nat :=
  s.roster.filterMap fun p => if p.2.channel = c then some p.1 else none

/-- The roster slots in use of channel `c` whose entry's state passes `p`, ascending. -/
def State.slotsIn (s : State) (c : Nat) (p : EntryState → Bool) : List Nat :=
  s.roster.filterMap fun q => if q.2.channel = c ∧ p q.2.state then some q.1 else none

/-- The seats listed, ascending. -/
def State.seatKeys (s : State) : List Nat := mapKeys s.seats

/-! ## States grouped as the rules group them -/

/-- A channel is active while OPEN, READING, WRITING or OVERTIME (3.2, R15). -/
def ChanState.isActive : ChanState → Bool
  | .opened | .reading | .writing | .overtime => true
  | _ => false

/-- A channel's clock can run while READING, WRITING or OVERTIME (3.2). -/
def ChanState.hasClock : ChanState → Bool
  | .reading | .writing | .overtime => true
  | _ => false

/-- SEATED, WRITING or ON_BREAK: the states of a candidate on an OCCUPIED seat (R5). -/
def EntryState.isSeated : EntryState → Bool
  | .seated | .writing | .onBreak => true
  | _ => false

/-- WRITING or ON_BREAK. -/
def EntryState.isWriting : EntryState → Bool
  | .writing | .onBreak => true
  | _ => false

/-- The roster slot a seat's occupancy names, when HELD or OCCUPIED (R1). -/
def Occupancy.slot : Occupancy → Option Nat
  | .held k _ => some k
  | .occupied k => some k
  | _ => none

/-- The hall is held while the debounced HOLDIN is asserted or the office hold flag is set (R28). -/
def TimeBase.held (t : TimeBase) : Bool := t.holdPin || t.officeHold

/-! ## Seats and drop addresses (R1) -/

/-- The seat line of seat `i`. -/
def seatLine (i : Nat) : Nat := i / 64

/-- The drop address of seat `i`. -/
def seatAddr (i : Nat) : Nat := i % 64 + 1

/-- The seat at drop address `a` of seat line `l`. -/
def seatIndex (l a : Nat) : Nat := l * 64 + (a - 1)

/-- Whether line number `l` is a seat line. -/
def isSeatLine (l : Nat) : Bool := decide (l < 6)

/-- The number of drop addresses of line `l`: 64 on a seat line, 8 on the station line. -/
def addrCount (l : Nat) : Nat := if isSeatLine l then 64 else 8

/-- The drop addresses of line `l`, ascending. -/
def addrsOf (l : Nat) : List Nat := (List.range (addrCount l)).map (· + 1)

/-- Whether the seat or station at address `a` of line `l` is configured (R2, R118). -/
def State.configured (s : State) (l a : Nat) : Bool :=
  if isSeatLine l then (s.seat (seatIndex l a)).configured else (s.station a).configured

/-- What line `n` keeps for address `a` (R98). -/
def Line.addr (n : Line) (a : Nat) : AddrState := tabGet AddrState.blank n.addrs a

/-- The record of address `a` changed by `f`. -/
def Line.onAddr (n : Line) (a : Nat) (f : AddrState → AddrState) : Line :=
  { n with addrs := tabSet AddrState.blank n.addrs a (f (n.addr a)) }

/-- The record of address `a` of line `l` changed by `f`. -/
def State.onAddr (s : State) (l a : Nat) (f : AddrState → AddrState) : State := s.onLine l fun n => n.onAddr a f

/-- The presence of address `a` on line `l`. -/
def State.presence (s : State) (l a : Nat) : Presence := ((s.line l).addr a).presence

/-- Whether the desk of seat `i` is PRESENT. -/
def State.deskPresent (s : State) (i : Nat) : Bool := decide (s.presence (seatLine i) (seatAddr i) = .present)

/-- The configured addresses of line `l`, ascending. -/
def State.configuredAddrs (s : State) (l : Nat) : List Nat := (addrsOf l).filter fun a => s.configured l a

/-- A seat is eligible: configured, IN_SERVICE, desk PRESENT, line ACTIVE, FREE (R6). -/
def State.eligible (s : State) (i : Nat) : Bool :=
  (s.seat i).configured && (s.seat i).inService && s.deskPresent i &&
    decide ((s.line (seatLine i)).state = .active) && decide ((s.seat i).occ = .free)

/-- Whether a seat of line `l` is HELD or OCCUPIED (R103, R114); none on the station line. -/
def State.lineInUse (s : State) (l : Nat) : Bool :=
  isSeatLine l && s.seats.any fun p => decide (seatLine p.1 = l) && p.2.occ.slot.isSome

/-! ## Clock marks and notes -/

/-- Notes on a CLOCK frame in flight to address `a` that the mark was set again after its content was built (R110). -/
def Exchange.markAgain (again : Bool) (a : Nat) (x : Exchange) : Exchange :=
  match x.kind with
  | .clock c _ => if x.addr = a then ⟨x.addr, .clock c again⟩ else x
  | _ => x

/-- A clock mark set for address `a` of line `n`: appended unless listed (R110); discarded on a QUIET line (R103). -/
def Line.setMark (n : Line) (a : Nat) : Line :=
  if n.state = .quiet then n
  else { n with
    marks := if a ∈ n.marks then n.marks else n.marks ++ [a]
    exchange := n.exchange.map (Exchange.markAgain true a) }

/-- Address `a` removed from the clock-mark list without a frame (R111). -/
def Line.dropMark (n : Line) (a : Nat) : Line :=
  { n with marks := n.marks.filter (· ≠ a), exchange := n.exchange.map (Exchange.markAgain false a) }

/-- A clock mark set for the desk of seat `i` (R73, R110). -/
def State.setMark (s : State) (i : Nat) : State := s.onLine (seatLine i) fun n => n.setMark (seatAddr i)

/-- The clock mark of seat `i`'s desk removed without a frame (R111). -/
def State.dropMark (s : State) (i : Nat) : State := s.onLine (seatLine i) fun n => n.dropMark (seatAddr i)

/-- A clock mark set for the desk of the seat that entry `k` names, if it names one. -/
def State.markEntry (s : State) (k : Nat) : State :=
  match (s.entry k).bind Entry.seat with
  | some i => s.setMark i
  | none => s

/-- Whether a note queued to the line would be queued, not dropped (R112). -/
def Line.takesNote (n : Line) : Bool := decide (n.state ≠ .quiet) && decide (n.fifo.length < Config.fifoSize)

/-- A note queued for address `a`: appended at the tail, or dropped and counted (R112). -/
def Line.queueNote (n : Line) (a : Nat) (c : NoteContent) : Line :=
  if n.takesNote then { n with fifo := n.fifo ++ [⟨a, c⟩] }
  else { n with stats := { n.stats with notesDropped := statUp n.stats.notesDropped } }

/-- A note queued to line `l` for address `a` (R112). -/
def State.queueNote (s : State) (l a : Nat) (c : NoteContent) : State := s.onLine l fun n => n.queueNote a c

/-- A note queued to the desk of seat `i` (R97). -/
def State.noteSeat (s : State) (i : Nat) (c : NoteContent) : State := s.queueNote (seatLine i) (seatAddr i) c

/-- A note queued to the station at drop address `a` (R79, R119). -/
def State.noteStation (s : State) (a : Nat) (c : NoteContent) : State := s.queueNote 6 a c

/-! ## Seat occupancy -/

/-- After seat `i` has become FREE or CLEARING: its mark goes when its desk is not PRESENT (R111). -/
def State.settleMark (s : State) (i : Nat) : State := if s.deskPresent i then s else s.dropMark i

/-- Seat `i` becomes FREE: closing word NONE (R57), mark of an absent desk removed (R111). -/
def State.freeSeat (s : State) (i : Nat) : State :=
  (s.onSeat i fun r => { r with occ := .free, closing := .none }).settleMark i

/-- Seat `i` becomes HELD for slot `k` with the seating limit to run (R78, R93, R57). -/
def State.holdSeat (s : State) (i k : Nat) : State :=
  s.onSeat i fun r => { r with occ := .held k s.hall.seatingLimit, closing := .none }

/-- Seat `i` becomes OCCUPIED by slot `k` (R90, R93, R57). -/
def State.occupySeat (s : State) (i k : Nat) : State :=
  s.onSeat i fun r => { r with occ := .occupied k, closing := .none }

/-- Seat `i` is vacated: CLEARING with the clearing time and the closing word, or FREE at once when the clearing time
is 0 (R91, R57). -/
def State.clearSeat (s : State) (i : Nat) (w : ClosingWord) : State :=
  if s.hall.clearingTime = 0 then s.freeSeat i
  else (s.onSeat i fun r => { r with occ := .clearing s.hall.clearingTime, closing := w }).settleMark i

/-- A release of a hold: the seat becomes FREE and a BLANK note is queued to its desk (R87). -/
def State.releaseHold (s : State) (i : Nat) : State := (s.freeSeat i).noteSeat i .blank

/-! ## Roster lookups (R16) -/

/-- The active lookup: the lowest in-use slot with the id in an active channel (R16; R15 makes it unique). -/
def State.activeLookup (s : State) (id : Nat) : Option (Nat × Entry) :=
  s.roster.find? fun p => decide (p.2.id = id) && (s.chan p.2.channel).state.isActive

/-- The channel lookup: the lowest in-use slot with the id in channel `c` (R16; R14 makes it unique). -/
def State.channelLookup (s : State) (id c : Nat) : Option (Nat × Entry) :=
  s.roster.find? fun p => decide (p.2.id = id) && decide (p.2.channel = c)

/-- A channel admits candidates for a check-in: OPEN, READING, or WRITING before admission has closed (R76). -/
def Channel.admitting (c : Channel) : Bool :=
  match c.state with
  | .opened | .reading => true
  | .writing => !c.closed
  | _ => false

/-- The channels, ascending. -/
def channelNumbers : List Nat := List.range 16

/-- A roster slot freed with all that hangs on it: the entry (R17), its booklets (R134), its warning pending (R57) and
any seat's lost occupant that names it (R95). -/
def State.freeSlot (s : State) (k : Nat) : State :=
  { s with
    roster := mapErase s.roster k
    booklets := s.booklets.filter fun p => p.2.owner ≠ k
    warnings := mapErase s.warnings k
    seats := tabMap Seat.blank (fun r => if r.lost = some k then { r with lost := none } else r) s.seats }

/-- Entry `k` given seat `i`: seat and last seat set together (R11, R12). -/
def Entry.seatAt (e : Entry) (i : Nat) : Entry := { e with seat := some i, lastSeat := some i }

end Sys2Proof.Machine
end

