-- ==== Sys2Proof/Machine/Flags.lean ====
section
/-! DEFINITION. Event flags, masks and notices (R187 to R190), and the changes of phase and of the hall-held condition
that raise them. -/

namespace Sys2Proof.Machine

/-- The seventeen categories in the order of the table of 11.5. -/
def Category.all : List Category :=
  [.help, .seatingExpired, .deskLost, .deskBack, .budgetOut, .channelPhase, .openFailed, .amend, .refLost, .refBack,
    .hallHoldChange, .lineTestDone, .overrun, .logHigh, .logFull, .teardownDone, .noticeLost]

/-- The category a notice belongs to (11.5). -/
def Subject.category : Subject → Category
  | .help .. => .help
  | .seatingExpired .. => .seatingExpired
  | .deskLost .. => .deskLost
  | .deskBack .. => .deskBack
  | .budgetOut .. => .budgetOut
  | .channelPhase .. => .channelPhase
  | .admissionClosed .. => .channelPhase
  | .openFailed .. => .openFailed
  | .amendApplied .. => .amend
  | .amendDropped .. => .amend
  | .refLost => .refLost
  | .refBack => .refBack
  | .hallHoldChange .. => .hallHoldChange
  | .lineTestDone .. => .lineTestDone
  | .overrun .. => .overrun
  | .logHigh .. => .logHigh
  | .logFull .. => .logFull
  | .teardownDone .. => .teardownDone

/-- The flags with the flag of `c` set (R187), kept in table order. -/
def setFlag (flags : List Category) (c : Category) : List Category :=
  Category.all.filter fun x => decide (x = c) || decide (x ∈ flags)

/-- The office interface after a notice has been put to its queue: queued, or dropped with NOTICE_LOST (R190). -/
def Office.notify (o : Office) (n : Notice) : Office :=
  if o.notices.length < Config.noticeQueueSize then { o with notices := o.notices ++ [n] }
  else { o with
    flags := setFlag o.flags .noticeLost
    stats := { o.stats with noticesDropped := statUp o.stats.noticesDropped } }

/-- An event of the subject's category: its flag is set, and unless the category is masked one notice is queued with
the hall time as it stands (R187, R189, R190). -/
def State.notify (s : State) (x : Subject) : State :=
  let o := { s.office with flags := setFlag s.office.flags x.category }
  { s with office := if x.category ∈ s.hall.masks then o else o.notify ⟨x, s.time.hallTime⟩ }

/-- Channel `c` enters state `st`, with its CHANNEL_PHASE notice (R36). The channel hold flag is cleared on entry to
COLLECTING (R46). -/
def State.enterPhase (s : State) (c : Nat) (st : ChanState) : State :=
  (s.onChan c fun ch => { ch with state := st, hold := if st = .collecting then false else ch.hold }).notify
    (.channelPhase c st s.time.hallTime)

/-- Every desk whose seat is OCCUPIED is marked (R28), by ascending seat index (DESIGN CHOICE, log entry 29). -/
def State.markOccupied (s : State) : State :=
  s.seats.foldl (fun t p => match p.2.occ with | .occupied _ => t.setMark p.1 | _ => t) s

/-- The time base takes `f`; when the hall-held condition changes by it, the flag, the notice and the marks of R28
follow, with the input that caused the change. -/
def State.changeHold (s : State) (cause : HoldInput) (f : TimeBase → TimeBase) : State :=
  let t := s.onTime f
  if t.time.held = s.time.held then t else (t.notify (.hallHoldChange t.time.held cause)).markOccupied

end Sys2Proof.Machine
end

