-- ==== Sys2Proof/Machine/Booklets.lean ====
section
/-! DEFINITION. Reconciliation (R51, R45) and the booklet register: issue, return, the collected state (chapter 7). -/

namespace Sys2Proof.Machine

/-! ## Reconciliation -/

/-- The reconciliation test: every in-use entry of the channel is COLLECTED or ABSENT (R51). -/
def State.reconciles (s : State) (c : Nat) : Bool :=
  (s.slotsIn c fun st => decide (st ≠ .collected) && decide (st ≠ .absent)).isEmpty

/-- A COLLECTING channel that passes the reconciliation test becomes RECONCILED (R51); any other is unchanged (R132). -/
def State.reconcile (s : State) (c : Nat) : State :=
  if (s.chan c).state = .collecting ∧ s.reconciles c then s.enterPhase c .reconciled else s

/-- Channel `c` becomes COLLECTING and the test of R51 is made at once (R44, R45). -/
def State.enterCollecting (s : State) (c : Nat) : State := (s.enterPhase c .collecting).reconcile c

/-- Whether an in-use entry of the channel is WRITING or ON_BREAK (R44, R45). -/
def State.hasWriter (s : State) (c : Nat) : Bool := !(s.slotsIn c EntryState.isWriting).isEmpty

/-- The sitting unit's test at a departure: an OVERTIME channel with no writer left becomes COLLECTING (R45). -/
def State.overtimeTest (s : State) (c : Nat) : State :=
  if (s.chan c).state = .overtime ∧ s.hasWriter c = false then s.enterCollecting c else s

/-! ## Booklet table -/

/-- The returned mark of a serial (R123). -/
def State.isReturned (s : State) (b : Nat) : Bool := ((mapGet s.booklets b).map Booklet.returned).getD false

/-- The serials of the list not yet returned (R129). -/
def State.outOf (s : State) (list : List Nat) : List Nat := list.filter fun b => !s.isReturned b

/-- The COLLECTED test's condition on entry `e` (R130). -/
def State.collects (s : State) (e : Entry) : Bool :=
  (decide (e.state = .finished) || decide (e.state = .timeUp) ||
      (decide (e.state = .missing) && decide ((s.chan e.channel).state = .reconciled))) &&
    !e.booklets.isEmpty && e.booklets.all s.isReturned

/-- The COLLECTED test on slot `k` (R130), with the hand-off to the sitting unit when it passes (R132). -/
def State.collectTest (s : State) (k : Nat) : State :=
  match s.entry k with
  | some e => if s.collects e then (s.onEntry k fun e => { e with state := .collected }).reconcile e.channel else s
  | none => s

/-- The booklet tests of R77 and R126: the refusal, or none when the serial may be issued or is on the list. -/
def State.bookletRefusal (s : State) (k : Nat) (e : Entry) (b : Nat) : Option NoteContent :=
  if (mapGet s.booklets b).any fun r => decide (r.owner ≠ k) then some (.bookletInUse b)
  else if b ∈ e.booklets then none
  else if Config.bookletListSize ≤ e.booklets.length then some (.listFull b)
  else if Config.bookletTableSize ≤ s.booklets.length then some (.bookletTableFull b)
  else none

/-- An issue of serial `b` to slot `k` (R124). -/
def State.issue (s : State) (k b : Nat) : State :=
  { s.onEntry k (fun e => { e with booklets := e.booklets ++ [b] }) with
    booklets := mapPut s.booklets b ⟨k, false⟩
    bookletStats := { s.bookletStats with issued := statUp s.bookletStats.issued } }

/-- An issue unless the serial is already on the entry's list (R77, R125, R127). -/
def State.issueNew (s : State) (k : Nat) (e : Entry) (b : Nat) : State :=
  if b ∈ e.booklets then s else s.issue k b

/-- ISSUE from the station at address `a` (R126, R127). -/
def State.takeIssue (s : State) (a id b : Nat) : State :=
  if b = 0 then s.noteStation a .noTag
  else match s.activeLookup id with
    | none => s.noteStation a .unknownCandidate
    | some (k, e) =>
      if e.state.isSeated = false then s.noteStation a .notWriting
      else match s.bookletRefusal k e b with
        | some answer => s.noteStation a answer
        | none =>
          (s.issueNew k e b).noteStation a
            (.issued b (if b ∈ e.booklets then e.booklets.length else e.booklets.length + 1))

/-- An accepted return of serial `b` of owner `k` (R129 steps 1 to 3). -/
def State.acceptReturn (s : State) (k b : Nat) : State :=
  { s with
    booklets := mapPut s.booklets b ⟨k, true⟩
    bookletStats := { s.bookletStats with returned := statUp s.bookletStats.returned } }.collectTest k

/-- RETURN from the station at address `a` (R128, R129). -/
def State.takeReturn (s : State) (a b : Nat) : State :=
  if b = 0 then s.noteStation a .noTag
  else match mapGet s.booklets b with
    | none => s.noteStation a (.unknownBooklet b)
    | some r =>
      if r.returned then
        { s with bookletStats := { s.bookletStats with duplicate := statUp s.bookletStats.duplicate } }.noteStation a
          (.duplicateReturn b)
      else
        let owner := s.entry r.owner
        if owner.any fun e => e.state.isSeated then s.noteStation a (.stillWriting b)
        else if owner.any fun e => decide ((s.chan e.channel).state = .releasing) then
          s.noteStation a (.channelClosed b)
        else
          let t := s.acceptReturn r.owner b
          let list := (owner.map Entry.booklets).getD []
          t.noteStation a (.returned b (t.outOf list).length
            ((t.entry r.owner).any fun e => decide (e.state = .collected)))

end Sys2Proof.Machine
end

