-- ==== Sys2Proof/Machine/Clock.lean ====
section
/-! DEFINITION. The candidate clock unit (chapter 4): allowed and written seconds, breaks, warnings, the desk keys,
departures, and the content of a clock frame. -/

namespace Sys2Proof.Machine

/-- Allowed seconds from the working W and the snapshot percent (R58). -/
def allowedSeconds (w p : Nat) : Nat := w + divUp (divUp (w * p) 100) 60 * 60

/-! ## Warning and resynchronisation tests (R74, R75) -/

/-- The tests of R75 for slot `k`, made while the entry is WRITING or ON_BREAK. -/
def State.warnTest (s : State) (k : Nat) : State :=
  match s.entry k with
  | none => s
  | some e =>
    if e.state.isWriting then
      let left := e.allowed - e.written
      let t := if left ∈ (s.chan e.channel).config.warnings
        then { s with warnings := mapPut s.warnings k left }.markEntry k else s
      if 0 < left ∧ left % 300 = 0 then t.markEntry k else t
    else s

/-! ## Leaving the seat -/

/-- Slot `k` leaves its seat by finish or time-up (R70): finish time, warning, seat, mark, then the hand-offs to the
booklet register (R131) and the sitting unit (R45). The mark is kept for a PRESENT desk alone (R111). -/
def State.depart (s : State) (k : Nat) (w : ClosingWord) : State :=
  match s.entry k with
  | none => s
  | some e =>
    let s1 := (s.onEntry k fun e => { e with
      state := if w = .timeUp then .timeUp else .finished
      finish := some s.time.hallTime
      seat := none }).dropWarning k
    let s2 := match e.seat with
      | some i =>
        let t := s1.clearSeat i w
        if t.deskPresent i then t.setMark i else t
      | none => s1
    (s2.collectTest k).overtimeTest e.channel

/-- Budget exhaustion of slot `k` (R66). -/
def State.exhaust (s : State) (k : Nat) : State :=
  match s.entry k with
  | none => s
  | some e =>
    ((s.onEntry k fun e => { e with budgetOut := true }).notify (.budgetOut (e.seat.getD 0) k)).markEntry k

/-! ## Counting -/

/-- The effect of a writing second on an entry that is WRITING or ON_BREAK (R61). -/
def Entry.count (e : Entry) : Entry :=
  if e.state = .onBreak ∧ 0 < e.remaining then { e with remaining := e.remaining - 1 }
  else { e with written := e.written + 1 }

/-- A writing second for slot `k`: the effect and the tests of R61. -/
def State.countEntry (s : State) (k : Nat) : State :=
  match s.entry k with
  | none => s
  | some e =>
    if e.state.isWriting then
      let s1 := s.putEntry k e.count
      if e.state = .onBreak ∧ 0 < e.remaining then (if e.count.remaining = 0 then s1.exhaust k else s1)
      else if e.allowed ≤ e.count.written then s1.depart k .timeUp
      else s1.warnTest k
    else s

/-- A writing second of channel `c` taken by the candidate clock unit, its entries one at a time (R61), in roster slot order
(DESIGN CHOICE, log entry 29). -/
def State.countChannel (s : State) (c : Nat) : State :=
  (s.slotsIn c EntryState.isWriting).foldl State.countEntry s

/-- A reading second's resynchronisation test for the SEATED candidates (R75), in roster slot order (DESIGN CHOICE, log
entry 29). -/
def State.readingMarks (s : State) (c : Nat) : State :=
  let left := (s.chan c).config.reading - (s.chan c).readElapsed
  if 0 < left ∧ left % 300 = 0 then (s.slotsIn c fun st => decide (st = .seated)).foldl State.markEntry s else s

/-! ## Start, seating, amendment -/

/-- Slot `k` made WRITING at writing start (R62). -/
def State.startWriter (s : State) (k : Nat) : State :=
  ((s.onEntry k fun e => { e with state := .writing, written := 0 }).dropWarning k).markEntry k

/-- The writing start of channel `c` for its SEATED candidates (R62), in roster slot order (DESIGN CHOICE, log entry 29). -/
def State.startWriters (s : State) (c : Nat) : State :=
  (s.slotsIn c fun st => decide (st = .seated)).foldl State.startWriter s

/-- A clock mark for every entry of the channel whose state passes `p` (R39, R46, R73), in roster slot order (DESIGN CHOICE,
log entry 29). -/
def State.markEntries (s : State) (c : Nat) (p : EntryState → Bool) : State :=
  (s.slotsIn c p).foldl State.markEntry s

/-- The recomputation of slot `k`'s allowed seconds at an amendment (R59). -/
def State.recompute (s : State) (w k : Nat) : State :=
  let t := s.onEntry k fun e => { e with allowed := allowedSeconds w e.percent }
  if (s.entry k).any fun e => e.state.isSeated then (t.markEntry k).warnTest k else t

/-- The recomputation for every ALLOCATED, SEATED, WRITING or ON_BREAK entry of the channel (R59), in roster slot order
(DESIGN CHOICE, log entry 29). -/
def State.recomputeAll (s : State) (c w : Nat) : State :=
  (s.slotsIn c fun st => decide (st = .allocated) || st.isSeated).foldl (fun t k => t.recompute w k) s

/-! ## The desk keys -/

/-- The note that answers a press on a CLEARING seat, by its closing word (R64). -/
def State.closingNote (s : State) (i : Nat) : State :=
  match (s.seat i).closing with
  | .timeUp => s.noteSeat i .timeUp
  | .finished => s.noteSeat i .finished
  | .none => s

/-- The bar that refuses a FINISH press of entry `e`, if any (R67). -/
def State.finishBar (s : State) (e : Entry) : Option Bar :=
  let c := s.chan e.channel
  if e.state = .seated then some .start
  else if c.writeElapsed < c.config.barStart then some .start
  else if e.allowed - e.written ≤ c.config.barEnd then some .finish
  else none

/-- A FINISH press at seat `i` (R64, R67). -/
def State.pressFinish (s : State) (i : Nat) : State :=
  match (s.seat i).occ with
  | .occupied k =>
    match s.entry k with
    | some e =>
      match s.finishBar e with
      | some b => s.noteSeat i (.finishRefused b)
      | none => s.depart k .finished
    | none => s
  | .clearing _ => s.closingNote i
  | _ => s

/-- A BREAK press for slot `k` with entry `e` at seat `i` (R65). -/
def State.takeBreak (s : State) (i k : Nat) (e : Entry) : State :=
  match e.state with
  | .writing =>
    if 0 < e.remaining then (s.putEntry k { e with state := .onBreak, breaks := satUp 255 e.breaks }).setMark i
    else s.noteSeat i .breakRefused
  | .onBreak => (s.putEntry k { e with state := .writing }).setMark i
  | .seated => s.noteSeat i .breakRefused
  | _ => s

/-- A BREAK press at seat `i` (R64, R65). -/
def State.pressBreak (s : State) (i : Nat) : State :=
  match (s.seat i).occ with
  | .occupied k =>
    match s.entry k with
    | some e => s.takeBreak i k e
    | none => s
  | .clearing _ => s.closingNote i
  | _ => s

/-- A HELP press at seat `i`, stamped with the hall second as it stands (R68, R101). -/
def State.pressHelp (s : State) (i : Nat) : State := s.notify (.help i s.time.hallTime (s.seat i).occ.slot)

/-! ## What the desk is told (R72) -/

/-- The phase, remaining time and running count of an OCCUPIED seat's frame (R72's second table). -/
def Channel.clockFields (c : Channel) (e : Entry) : Phase × Nat × Counting :=
  match e.state with
  | .writing => (.writing, e.allowed - e.written, .remaining)
  | .onBreak => (.onBreak, e.allowed - e.written, if 0 < e.remaining then .budget else .remaining)
  | _ =>
    if c.state = .reading then (.reading, c.config.reading - c.readElapsed, .remaining)
    else (.waiting, if 0 < c.config.reading then c.config.reading else e.allowed, .none)

/-- A frame that shows the display alone. -/
def ClockContent.plain (d : Display) : ClockContent := ⟨d, none, none, none, none, none, none, none⟩

/-- The content of the CLOCK frame for seat `i` (R72). -/
def State.clockContent (s : State) (i : Nat) : ClockContent :=
  match (s.seat i).occ with
  | .free => .plain .blank
  | .held k _ => { ClockContent.plain .reserved with digits := (s.entry k).map fun e => e.id % 10000 }
  | .clearing _ =>
    .plain (match (s.seat i).closing with | .timeUp => .timeUp | .finished => .finished | .none => .blank)
  | .occupied k =>
    match s.entry k with
    | none => .plain .clock
    | some e =>
      let c := s.chan e.channel
      let f := c.clockFields e
      let hold := s.time.held || c.hold
      { display := .clock
        phase := some f.1
        remaining := some f.2.1
        counting := some (if hold then .none else f.2.2)
        budget := if f.1 = .onBreak then some e.remaining else none
        hold := some hold
        warning := mapGet s.warnings k
        digits := some (e.id % 10000) }

/-- The warning pending made absent as the content for seat `i` is supplied (R72). -/
def State.spendWarning (s : State) (i : Nat) : State :=
  match (s.seat i).occ with
  | .occupied k => s.dropWarning k
  | _ => s

end Sys2Proof.Machine
end

