-- ==== Sys2Proof/Machine/Frames.lean ====
section
/-! DEFINITION. Byte layouts (chapter 12): the CRC, the fields of R199, and the frames the part sends. -/

namespace Sys2Proof.Machine

/-! ## Fields (R196, R197, R199) -/

/-- One bit of the CRC-16: polynomial 0x1021, most significant bit first (R197). -/
def crcBit (r : BitVec 16) : BitVec 16 := if r.msb then (r <<< 1) ^^^ 0x1021#16 else r <<< 1

/-- One byte of the CRC-16 (R197). -/
def crcByte (r : BitVec 16) (b : Byte) : BitVec 16 :=
  let x := r ^^^ (b.zeroExtend 16 <<< 8)
  crcBit (crcBit (crcBit (crcBit (crcBit (crcBit (crcBit (crcBit x)))))))

/-- The CRC-16 of the covered bytes: register from 0xFFFF, no reflection, no final exclusive-or (R197). -/
def crc16 (bytes : List Byte) : BitVec 16 := bytes.foldl crcByte 0xFFFF#16

/-- `v` in `n` bytes, most significant first (R196). -/
def be : Nat → Nat → List Byte
  | 0, _ => []
  | n + 1, v => BitVec.ofNat 8 (v / 256 ^ n) :: be n v

/-- The number a run of bytes carries, most significant first (R196). -/
def beVal (bytes : List Byte) : Nat := bytes.foldl (fun a b => a * 256 + b.toNat) 0

/-- `v` as packed decimal digits in `n` bytes (R196). -/
def packed : Nat → Nat → List Byte
  | 0, _ => []
  | n + 1, v => BitVec.ofNat 8 (v / 100 ^ n % 100 / 10 * 16 + v / 100 ^ n % 10) :: packed n v

/-- The number in packed decimal digits; none when a digit is above 9 (R196, R198). -/
def unpack (bytes : List Byte) : Option Nat :=
  bytes.foldl
    (fun acc b => match acc with
      | some a => if b.toNat / 16 ≤ 9 ∧ b.toNat % 16 ≤ 9 then some (a * 100 + b.toNat / 16 * 10 + b.toNat % 16) else none
      | none => none)
    (some 0)

/-- One byte holding a number. -/
def b1 (v : Nat) : List Byte := be 1 v

/-- A yes or no in one byte (R199). -/
def bBool (v : Bool) : List Byte := b1 (if v then 1 else 0)

/-- An optional field: a presence byte, then the field when present (R199). -/
def bOpt {α : Type} (f : α → List Byte) : Option α → List Byte
  | none => b1 0
  | some v => b1 1 ++ f v

/-- A list or text: its length in one byte, then its members (R199). -/
def bList {α : Type} (f : α → List Byte) (l : List α) : List Byte := b1 l.length ++ l.flatMap f

/-- A body closed by its CRC, high byte first (R196, R197). -/
def withCrc (body : List Byte) : List Byte := body ++ be 2 (crc16 body).toNat

/-- The pair of CRC bytes `crc` matches the body (R197). -/
def crcMatches (body crc : List Byte) : Bool := decide (crc = be 2 (crc16 body).toNat)

/-! ## Codes (R198, R199, 12.2 to 12.4) -/

/-- Channel state, numbered in the order of R33. -/
def ChanState.code : ChanState → Nat
  | .free => 0
  | .loaded => 1
  | .opened => 2
  | .reading => 3
  | .writing => 4
  | .overtime => 5
  | .collecting => 6
  | .reconciled => 7
  | .releasing => 8

/-- Entry state, numbered in the order of R11. -/
def EntryState.code : EntryState → Nat
  | .expected => 0
  | .allocated => 1
  | .seated => 2
  | .writing => 3
  | .onBreak => 4
  | .finished => 5
  | .timeUp => 6
  | .collected => 7
  | .absent => 8
  | .missing => 9

/-- Line state, numbered in the order of R98. -/
def LineState.code : LineState → Nat
  | .active => 0
  | .quiet => 1
  | .waking => 2
  | .testing => 3

/-- Presence, numbered in the order of R98. -/
def Presence.code : Presence → Nat
  | .absent => 0
  | .present => 1
  | .lost => 2
  | .faulty => 3

/-- Category, numbered in the order of the table of 11.5 (R199). -/
def Category.code : Category → Nat
  | .help => 0
  | .seatingExpired => 1
  | .deskLost => 2
  | .deskBack => 3
  | .budgetOut => 4
  | .channelPhase => 5
  | .openFailed => 6
  | .amend => 7
  | .refLost => 8
  | .refBack => 9
  | .hallHoldChange => 10
  | .lineTestDone => 11
  | .overrun => 12
  | .logHigh => 13
  | .logFull => 14
  | .teardownDone => 15
  | .noticeLost => 16

/-- Result code, numbered in the order of the table of R178 (12.4). -/
def Code.code : Code → Nat
  | .ok => 0
  | .clamped => 1
  | .busy => 2
  | .range => 3
  | .inUse => 4
  | .duplicate => 5
  | .conflict => 6
  | .wrongPhase => 7
  | .tooLate => 8
  | .tooLong => 9
  | .notFound => 10
  | .unknownTable => 11
  | .unknownCommand => 12

/-- Sheet status (12.3). -/
def Status.code : Status → Nat
  | .scored => 0
  | .referred => 1
  | .badFrame => 2
  | .formUnknown => 3
  | .overrun => 4
  | .formMismatch => 5
  | .calFault => 6
  | .idUnreadable => 7
  | .paperUnreadable => 8
  | .noChannel => 9
  | .notOnRoster => 10
  | .channelClosed => 11
  | .notCollected => 12
  | .duplicateSheet => 13
  | .logFull => 14

/-- Verdict (12.3). -/
def Verdict.code : Verdict → Nat
  | .accept => 0
  | .review => 1
  | .reject => 2

/-- Display (12.2). -/
def Display.code : Display → Nat
  | .clock => 0
  | .reserved => 1
  | .timeUp => 2
  | .finished => 3
  | .blank => 4

/-- Phase (12.2). -/
def Phase.code : Phase → Nat
  | .waiting => 0
  | .reading => 1
  | .writing => 2
  | .onBreak => 3

/-- Counting (12.2). -/
def Counting.code : Counting → Nat
  | .none => 0
  | .remaining => 1
  | .budget => 2

/-- Refusal reason (12.2). -/
def Bar.code : Bar → Nat
  | .start => 1
  | .finish => 2

/-! ## Line frames (12.2) -/

/-- The code of a note and its argument bytes, before padding (12.2). -/
def NoteContent.coded : NoteContent → Nat × List Byte
  | .reserved d => (1, packed 2 d)
  | .welcome d => (2, packed 2 d)
  | .wrongSeat r c => (3, b1 r ++ b1 c)
  | .goToEntrance => (4, [])
  | .unknown => (5, [])
  | .alreadyLeft => (6, [])
  | .notAdmitted => (7, [])
  | .blank => (8, [])
  | .finishRefused b => (9, b1 b.code)
  | .breakRefused => (10, [])
  | .timeUp => (11, [])
  | .finished => (12, [])
  | .seatGiven r c => (13, b1 r ++ b1 c)
  | .notReady => (14, [])
  | .held => (15, [])
  | .unknownCandidate => (16, [])
  | .notAdmitting => (17, [])
  | .late => (18, [])
  | .noSeat => (19, [])
  | .alreadyIn p => (20, match p with | some (r, c) => b1 r ++ b1 c | none => [])
  | .bookletInUse b => (21, packed 3 b)
  | .listFull b => (22, packed 3 b)
  | .bookletTableFull b => (23, packed 3 b)
  | .issued b n => (24, packed 3 b ++ b1 n)
  | .returned b n c => (25, packed 3 b ++ b1 n ++ bBool c)
  | .noTag => (26, [])
  | .notWriting => (27, [])
  | .unknownBooklet b => (28, packed 3 b)
  | .duplicateReturn b => (29, packed 3 b)
  | .stillWriting b => (30, packed 3 b)
  | .channelClosed b => (31, packed 3 b)
  | .wrongStation => (32, [])
  | .message _ => (33, [])

/-- The text of a note; MESSAGE alone carries one (12.2). -/
def NoteContent.text : NoteContent → List Byte
  | .message t => t
  | _ => []

/-- A NOTE body: code, six argument bytes, text length, text (12.2). -/
def NoteContent.body (n : NoteContent) : List Byte :=
  b1 n.coded.1 ++ (n.coded.2 ++ List.replicate 6 0#8).take 6 ++ b1 n.text.length ++ n.text

/-- A CLOCK body of 12 bytes; absent fields are sent as zero (12.2). -/
def ClockContent.body (c : ClockContent) : List Byte :=
  b1 c.display.code ++ b1 ((c.phase.map Phase.code).getD 0) ++ be 2 (c.remaining.getD 0) ++
    b1 ((c.counting.map Counting.code).getD 0) ++ be 2 (c.budget.getD 0) ++ bBool (c.hold.getD false) ++
    be 2 (c.warning.getD 0) ++ packed 2 (c.digits.getD 0)

/-- The pattern of a wiring test's exchange `i` for address `a` (R115). -/
def testPattern (a i : Nat) : Nat :=
  match i with
  | 0 => 0x0000
  | 1 => 0xFFFF
  | 2 => 0x5AA5
  | _ => a * 257

/-- The correct echo of pattern `p` from address `a` (R115). -/
def testEcho (a : Nat) (p : BitVec 16) : BitVec 16 :=
  let ph := p.extractLsb' 8 8
  let pl := p.extractLsb' 0 8
  (pl ^^^ BitVec.ofNat 8 a) ++ (ph ^^^ pl.rotateLeft 1)

/-- The kind byte and body of a frame down a line (12.2). -/
def Exchange.parts (x : Exchange) : Nat × List Byte :=
  match x.kind with
  | .poll => (0x01, [])
  | .discover _ => (0x02, [])
  | .clock c _ => (0x03, c.body)
  | .note n => (0x04, n.body)
  | .broadcast n => (0x04, n.body)
  | .test i => (0x05, be 2 (testPattern x.addr i))

/-- The bytes of a frame down a line, start byte first (R196, 12.2). -/
def Exchange.bytes (x : Exchange) : List Byte :=
  0x96#8 :: withCrc (b1 x.addr ++ b1 x.parts.1 ++ b1 x.parts.2.length ++ x.parts.2)

/-! ## Sheet port and office link frames (12.3, 12.4) -/

/-- The bytes of a verdict frame (12.3). -/
def VerdictFrame.bytes (v : VerdictFrame) : List Byte :=
  0xC5#8 :: withCrc (be 2 v.sheet ++ b1 v.verdict.code ++ b1 v.status.code ++ bBool v.late)

/-- An office-link frame: length, kind, tag, payload (12.4). -/
def officeFrame (kind tag : Byte) (payload : List Byte) : List Byte :=
  0xD2#8 :: withCrc (be 2 (payload.length + 2) ++ [kind, tag] ++ payload)

/-- The kind of the response to a request of kind `k`: `k` with 0x80 added (12.4), a free value where the sum passes the
byte (log entry 32). -/
def responseKind (k : Byte) : Byte := if k.toNat < 0x80 then k + 0x80#8 else Config.highResponseKind k

/-- The bytes of a response: its kind, its request's tag, the result code first in the payload (12.4). -/
def Response.bytes (r : Response) : List Byte :=
  officeFrame (responseKind r.kind) r.tag (b1 r.code.code ++ r.payload)

/-- The kind and subject fields of a notice: those of the table of 11.5 with what the event's own rule lists beside them,
the new presence of a lost desk (R100) and the writing elapsed of an amendment (R49), in the rule's order (R199;
log entry 16). The notice of an admission close carries what R36 gives it, its count in place of the hall time that the table
lists for CHANNEL_PHASE (DESIGN CHOICE, log entry 40). -/
def Subject.fields : Subject → List Byte
  | .help i t k => be 2 i ++ be 3 t ++ bOpt (be 2) k
  | .seatingExpired i k => be 2 i ++ be 2 k
  | .deskLost l a p i k => b1 l ++ b1 a ++ b1 p.code ++ bOpt (be 2) i ++ bOpt (be 2) k
  | .deskBack l a i => b1 l ++ b1 a ++ bOpt (be 2) i
  | .budgetOut i k => be 2 i ++ be 2 k
  | .channelPhase c st t => b1 c ++ b1 st.code ++ be 3 t
  | .admissionClosed c n => b1 c ++ [Config.admissionClosedCode] ++ be 2 n
  | .openFailed c k => b1 c ++ be 2 k
  | .amendApplied c v e => b1 0 ++ b1 c ++ be 2 v ++ be 2 e
  | .amendDropped c v => b1 1 ++ b1 c ++ be 2 v
  | .refLost => []
  | .refBack => []
  | .hallHoldChange h c => bBool h ++ b1 (match c with | .pin => 0 | .office => 1)
  | .lineTestDone l p f n => b1 l ++ b1 p ++ b1 f ++ b1 n
  | .overrun mid n => b1 (if mid then 1 else 0) ++ be 2 n
  | .logHigh n o => be 2 n ++ be 4 o
  | .logFull n o => be 2 n ++ be 4 o
  | .teardownDone c t => b1 c ++ be 3 t

/-- The bytes of a notice: kind NOTICE, tag 0 (R190, R199). -/
def Notice.bytes (n : Notice) : List Byte :=
  officeFrame 0x40#8 0#8 (b1 n.subject.category.code ++ n.subject.fields ++ be 3 n.time)

/-! ## The port outputs -/

/-- The frame on line `l`, if an exchange is in flight (R99). -/
def State.lineWire (s : State) (l : Nat) : Option (List Byte) := (s.line l).exchange.map Exchange.bytes

/-- The frame on SP_TX (R145, R148). -/
def State.sheetWire (s : State) : Option (List Byte) :=
  match s.intake.tx with
  | .idle => none
  | .head => s.intake.verdicts.head?.map VerdictFrame.bytes
  | .orphan v => some v.bytes

/-- The frame on OL_TX (R179). -/
def State.officeWire (s : State) : Option (List Byte) :=
  match s.office.tx with
  | .idle => none
  | .response => s.office.responses.head?.map Response.bytes
  | .notice => s.office.notices.head?.map Notice.bytes

/-- The level of pin SIGn: true when driven high (R31). -/
def Signal.pin (g : Signal) : Bool := g.active != g.entry.activeLow

end Sys2Proof.Machine
end

