-- ==== Sys2Proof/Machine/Seating.lean ====
section
/-! DEFINITION. The seat allocator (chapter 5): seat search, check-in, desk taps, holds, clearing, reseat, and desks
lost and found under a seat. -/

namespace Sys2Proof.Machine

/-! ## The seat search (5.2) -/

/-- The configured seat at a position, if any (R3, R82). -/
def State.seatAt (s : State) (row column : Nat) : Option Nat :=
  (s.seats.find? fun p => p.2.configured && decide (p.2.row = row) && decide (p.2.column = column)).map Prod.fst

/-- One apart. -/
def adjacent (a b : Nat) : Bool := decide (a = b + 1) || decide (b = a + 1)

/-- Whether record `t` stands beside record `r` under the spacing mode (R83). -/
def Spacing.neighbours (m : Spacing) (r t : Seat) : Bool :=
  t.configured &&
  match m with
  | .none => false
  | .row => decide (t.row = r.row) && adjacent t.column r.column
  | .cross =>
    (decide (t.row = r.row) && adjacent t.column r.column) || (decide (t.column = r.column) && adjacent t.row r.row)

/-- Whether a neighbour of seat `i` under channel `c`'s spacing is HELD or OCCUPIED by a candidate of `c` other than
slot `self` (R83, R93). -/
def State.crowded (s : State) (i c : Nat) (self : Option Nat) : Bool :=
  s.seats.any fun p =>
    decide (p.1 ≠ i) && (s.chan c).config.spacing.neighbours (s.seat i) p.2 &&
      match p.2.occ.slot with
      | some k => decide (some k ≠ self) && ((s.entry k).any fun e => decide (e.channel = c))
      | none => false

/-- The positions of one row of a rectangle in the order of the fill (R82). -/
def rowPositions (r : Rect) (fill : Fill) (j : Nat) : List (Nat × Nat) :=
  let columns := (List.range (r.c1 + 1 - r.c0)).map fun n => (r.r0 + j, r.c0 + n)
  if fill = .serpentine ∧ j % 2 = 1 then columns.reverse else columns

/-- The positions of a rectangle in search order (R82). -/
def zonePositions (r : Rect) (fill : Fill) : List (Nat × Nat) :=
  (List.range (r.r1 + 1 - r.r0)).flatMap (rowPositions r fill)

/-- The seats of the zone search in search order, before the spacing test (R82). -/
def State.zoneSeats (s : State) (c : Nat) : List Nat :=
  ((s.chan c).config.zones.flatMap fun r => zonePositions r (s.chan c).config.fill).filterMap fun p =>
    (s.seatAt p.1 p.2).filter fun i => s.eligible i && !(s.seat i).accessible

/-- The seats of the accessible search in search order, before the spacing test (R81). -/
def State.accessibleSeats (s : State) : List Nat :=
  s.seatKeys.filter fun i => s.eligible i && (s.seat i).accessible

/-- The outcome of a seat search: the seat, and the marks SPACING_RELAXED and FIXED_MOVED it calls for (R80). -/
structure Found where
  seat : Nat
  relaxed : Bool
  moved : Bool
deriving DecidableEq, Repr

/-- Stages 2 and 3 over the candidate seats in order: the first that passes the spacing test, else the first of all
when relaxing is permitted (R80, R83, R84). -/
def State.pick (s : State) (c : Nat) (moved : Bool) (order : List Nat) : Option Found :=
  match order.find? fun i => !s.crowded i c none with
  | some i => some ⟨i, false, moved⟩
  | none => if (s.chan c).config.relax then order.head?.map fun i => ⟨i, true, moved⟩ else none

/-- The seat search for entry `e` (R80 to R84). -/
def State.search (s : State) (e : Entry) : Option Found :=
  let order := if (s.cls e.cls).accessible then s.accessibleSeats else s.zoneSeats e.channel
  match e.fixed with
  | some i => if s.eligible i then some ⟨i, s.crowded i e.channel none, false⟩ else s.pick e.channel true order
  | none => s.pick e.channel false order

/-! ## Entrance check-in (5.1) -/

/-- The entry after the effects of R78 on it: snapshots (R12), clock figures (R59), seat and marks. -/
def Entry.checkIn (e : Entry) (k : AllowanceClass) (w : Nat) (f : Found) : Entry :=
  { e.seatAt f.seat with
    state := .allocated
    percent := k.percent
    budget := k.budget
    accessible := k.accessible
    allowed := allowedSeconds w k.percent
    written := 0
    remaining := k.budget
    relaxed := e.relaxed || f.relaxed
    moved := e.moved || f.moved }

/-- The effects of a check-in of slot `k` with entry `e` at station `a`, serial `b`, seat found `f` (R78). -/
def State.admitCandidate (s : State) (a k : Nat) (e : Entry) (b : Nat) (f : Found) : State :=
  let s1 := (s.putEntry k (e.checkIn (s.cls e.cls) (s.chan e.channel).length f)).dropWarning k
  let s2 := (if b = 0 then s1 else s1.issueNew k e b).holdSeat f.seat k
  (s2.noteStation a (.seatGiven (s.seat f.seat).row (s.seat f.seat).column)).noteSeat f.seat (.reserved (e.id % 10000))

/-- Whether a LOADED channel's roster holds the id (R76, check 3). -/
def State.inLoaded (s : State) (id : Nat) : Bool :=
  channelNumbers.any fun c => decide ((s.chan c).state = .loaded) && (s.channelLookup id c).isSome

/-- The answer to the check-in of an entry that is not EXPECTED: ALREADY_IN, with the place of its seat (R76, check 4), but
LATE for one that the closing of admission has made ABSENT (R43). That for such an entry R43, and R76's own words that both
failing cases of check 5 are answered LATE, stand before the order of R76's checks 4 and 5 is the model's choice (DESIGN CHOICE,
log entry 38). -/
def State.notExpected (s : State) (e : Entry) : NoteContent :=
  if e.state = .absent ∧ (s.chan e.channel).admitting = false then .late
  else .alreadyIn (e.seat.map fun i => ((s.seat i).row, (s.seat i).column))

/-- CHECKIN from the station at address `a` (R76, R43). -/
def State.takeCheckin (s : State) (a id b : Nat) : State :=
  if s.office.ready = false then s.noteStation a .notReady
  else if s.time.held then s.noteStation a .held
  else match s.activeLookup id with
    | none => s.noteStation a (if s.inLoaded id then .notAdmitting else .unknownCandidate)
    | some (k, e) =>
      if e.state ≠ .expected then s.noteStation a (s.notExpected e)
      else if (s.chan e.channel).admitting = false then s.noteStation a .late
      else match (if b = 0 then none else s.bookletRefusal k e b) with
        | some answer => s.noteStation a answer
        | none =>
          match s.search e with
          | none => s.noteStation a .noSeat
          | some f => s.admitCandidate a k e b f

/-! ## Desk taps (5.4) -/

/-- The seating of slot `k` at seat `i` by a tap on the held seat (R90, R63). -/
def State.seatCandidate (s : State) (i k : Nat) (e : Entry) : State :=
  let c := s.chan e.channel
  let e' := if c.state = .writing
    then { e.seatAt i with state := .writing, written := c.writeElapsed, late := true }
    else { e.seatAt i with state := .seated }
  ((((s.putEntry k e').occupySeat i k).warnTest k).setMark i).noteSeat i (.welcome (e.id % 10000))

/-- The answer to a tap by a candidate whose seat is another: WRONG_SEAT with its position, counted (R89). -/
def State.wrongSeat (s : State) (d i : Nat) : State :=
  (s.noteSeat d (.wrongSeat (s.seat i).row (s.seat i).column)).onStats (seatLine d)
    fun t => { t with wrongSeat := statUp t.wrongSeat }

/-- A card tap with the id at the desk of seat `d` (R89). -/
def State.takeTap (s : State) (d id : Nat) : State :=
  match s.activeLookup id with
  | none => s.noteSeat d .unknown
  | some (k, e) =>
    match e.state with
    | .expected => s.noteSeat d .goToEntrance
    | .allocated => if e.seat = some d then s.seatCandidate d k e else s.wrongSeat d (e.seat.getD 0)
    | .seated | .writing | .onBreak => if e.seat = some d then s.setMark d else s.wrongSeat d (e.seat.getD 0)
    | .finished | .timeUp | .collected => s.noteSeat d .alreadyLeft
    | .absent => s.noteSeat d .notAdmitted
    | .missing => s.noteSeat d .unknown

/-! ## Holds, clearing -/

/-- The expiry of the hold of seat `i` for slot `k` (R86). -/
def State.expire (s : State) (i k : Nat) : State :=
  ((s.releaseHold i).onEntry k fun e => { e with state := .expected, seat := none }).notify (.seatingExpired i k)

/-- The end of the clearing of seat `i` (R91). -/
def State.endClearing (s : State) (i : Nat) : State := (s.freeSeat i).noteSeat i .blank

/-- A second tick for seat `i` (R85, R91): a hold runs down unless the hall is held, a clearing always. -/
def State.tickSeat (s : State) (i : Nat) : State :=
  match (s.seat i).occ with
  | .held k n =>
    if s.time.held then s
    else
      let t := s.onSeat i fun r => { r with occ := .held k (n - 1) }
      if n ≤ 1 then t.expire i k else t
  | .clearing n =>
    let t := s.onSeat i fun r => { r with occ := .clearing (n - 1) }
    if n ≤ 1 then t.endClearing i else t
  | _ => s

/-- A second tick taken by the seat allocator (R24, R85, R91), by ascending seat index (DESIGN CHOICE, log entry 29). -/
def State.tickSeats (s : State) : State := s.seatKeys.foldl State.tickSeat s

/-- The close of admission for an ALLOCATED slot: hold released, entry ABSENT (R43). For an EXPECTED one: ABSENT. -/
def State.shutOut (s : State) (k : Nat) : State :=
  match s.entry k with
  | none => s
  | some e =>
    let t := match e.seat with
      | some i => if e.state = EntryState.allocated then s.releaseHold i else s
      | none => s
    t.onEntry k fun e => { e with state := .absent, seat := none }

/-! ## Desks lost and found (5.7) -/

/-- The desk of seat `i` leaves PRESENT (R95). -/
def State.deskGone (s : State) (i : Nat) : State :=
  match (s.seat i).occ with
  | .occupied k =>
    (s.onSeat i fun r => { r with lost := some k }).onEntry k fun e => { e with deskLost := true }
  | _ => s

/-- The desk of seat `i` becomes PRESENT (R96). Under a FREE or CLEARING seat no clock frame is to be sent, so a
mark still listed for it goes (R111). -/
def State.deskFound (s : State) (i : Nat) : State :=
  let t := match (s.seat i).lost with
    | some k => (s.onEntry k fun e => { e with deskLost := false }).onSeat i fun r => { r with lost := none }
    | none => s
  match (t.seat i).occ with
  | .occupied _ | .held _ _ => t.setMark i
  | _ => t.dropMark i

/-! ## Reseat (5.6) -/

/-- The checks of R92; none when they pass. -/
def State.reseatRefusal (s : State) (k i : Nat) : Option Code :=
  if 511 < k ∨ 383 < i then some .range
  else match s.entry k with
    | none => some .notFound
    | some e =>
      if e.state = .allocated ∨ e.state.isSeated then
        (if s.eligible i then none else some .inUse)
      else some .wrongPhase

/-- The old seat given up at a reseat: released when HELD, CLEARING with word NONE when OCCUPIED (R93). -/
def State.leaveSeat (s : State) (k j : Nat) : State :=
  let t := match (s.seat j).occ with
    | .held _ _ => s.releaseHold j
    | .occupied _ => s.clearSeat j .none
    | _ => s
  t.onSeat j fun r => if r.lost = some k then { r with lost := none } else r

/-- The changes of an accepted RESEAT of slot `k` to seat `i` (R93). -/
def State.moveTo (s : State) (k i : Nat) (e : Entry) : State :=
  let s1 := match e.seat with
    | some j => s.leaveSeat k j
    | none => s
  let s2 := if e.state = .allocated then s1.holdSeat i k else s1.occupySeat i k
  (s2.onEntry k fun e => { e.seatAt i with
    relaxed := e.relaxed || s.crowded i e.channel (some k)
    deskLost := false }).setMark i

end Sys2Proof.Machine
end

