-- ==== Sys2Proof/Machine/Lines.lean ====
section
/-! DEFINITION. The line controller (chapter 6): replies, presence, poll credit, the arbiter, the waking sweep, the
wiring test, line commands. -/

namespace Sys2Proof.Machine

/-- The seven lines, ascending. -/
def lineNumbers : List Nat := List.range 7

/-! ## Replies (R99, R198, 12.2) -/

/-- An event of a REPLY (12.2). -/
inductive DeskEvent where
  | idle
  | tap (id : Nat)
  | finish
  | takeBreak
  | help
  | checkin (id serial : Nat)
  | issue (id serial : Nat)
  | hand (serial : Nat)
deriving DecidableEq, Repr

/-- The event of a REPLY body; none for an undefined code, a wrong length, or a packed digit above 9 (R198, 12.2). -/
def readEvent (body : List Byte) : Option DeskEvent :=
  let fields := body.drop 1
  let pair := fun f : Nat → Nat → DeskEvent =>
    match unpack (fields.take 4), unpack (fields.drop 4) with
    | some id, some b => if fields.length = 7 then some (f id b) else none
    | _, _ => none
  match (beVal (body.take 1)), fields.length with
  | 0, 0 => if body = [] then none else some .idle
  | 1, 4 => (unpack fields).map DeskEvent.tap
  | 2, 0 => some .finish
  | 3, 0 => some .takeBreak
  | 4, 0 => some .help
  | 5, _ => pair .checkin
  | 6, _ => pair .issue
  | 7, 3 => (unpack fields).map DeskEvent.hand
  | _, _ => none

/-- Whether an event is one of the kinds defined for line `l` (R101). -/
def DeskEvent.definedFor (l : Nat) : DeskEvent → Bool
  | .idle => true
  | .tap _ | .finish | .takeBreak | .help => isSeatLine l
  | .checkin _ _ | .issue _ _ | .hand _ => !isSeatLine l

/-- A frame up a line whose check value is correct: its address, kind and body (12.2). The frame ends with its two CRC
bytes; bytes after its end enter no computation (R197). -/
def readReply (bytes : List Byte) : Option (Nat × Nat × List Byte) :=
  let n := beVal ((bytes.drop 2).take 1)
  if n + 5 ≤ bytes.length ∧ n ≤ 48 ∧ crcMatches (bytes.take (n + 3)) ((bytes.drop (n + 3)).take 2) then
    some (beVal (bytes.take 1), beVal ((bytes.drop 1).take 1), (bytes.drop 3).take n)
  else none

/-- The outcome of an exchange that called for a reply (R99). -/
inductive Heard where
  | event (e : DeskEvent)
  | ack
  | echo (v : Nat)
  | bad
  | silent
deriving DecidableEq, Repr

/-- A good reply of any kind. -/
def Heard.good : Heard → Bool
  | .event _ | .ack | .echo _ => true
  | .bad | .silent => false

/-- What a reply body of kind `kind` says to a frame of kind `x`; a bad check unless it is of the kind called for
and holds what R99 asks (R99, R198). -/
def ExchangeKind.hear (l : Nat) (x : ExchangeKind) (kind : Nat) (body : List Byte) : Heard :=
  match x with
  | .poll =>
    match (if kind = 0x81 then readEvent body else none) with
    | some e => if e.definedFor l then .event e else .bad
    | none => .bad
  | .discover _ => if kind = 0x81 ∧ readEvent body = some .idle then .event .idle else .bad
  | .clock _ _ | .note _ => if kind = 0x82 ∧ body = [] then .ack else .bad
  | .test _ => if kind = 0x85 ∧ body.length = 2 then .echo (beVal body) else .bad
  | .broadcast _ => .bad

/-- The judgement of a received reply to exchange `x` on line `l` (R99). -/
def Exchange.hear (l : Nat) (x : Exchange) (bytes : List Byte) : Heard :=
  match readReply bytes with
  | some (a, kind, body) => if a = x.addr then x.kind.hear l kind body else .bad
  | none => .bad

/-- The frame in flight calls for a reply (R99). -/
def Exchange.callsForReply (x : Exchange) : Bool :=
  match x.kind with
  | .broadcast _ => false
  | _ => true

/-- The statistics of an outcome (R121). -/
def LineStats.hear (t : LineStats) : Heard → LineStats
  | .bad => { t with badCheck := statUp t.badCheck }
  | .silent => { t with missed := statUp t.missed }
  | _ => { t with replies := statUp t.replies }

/-! ## Presence (R95, R96, R100, R104, R107) -/

/-- The seat of a drop address on a seat line. -/
def seatOn (l a : Nat) : Option Nat := if isSeatLine l then some (seatIndex l a) else none

/-- The roster slot that OCCUPIES the seat of a drop address (R100). -/
def State.occupantOn (s : State) (l a : Nat) : Option Nat :=
  match (seatOn l a).map fun i => (s.seat i).occ with
  | some (.occupied k) => some k
  | _ => none

/-- The seat of a drop address is HELD or OCCUPIED (R104). -/
def State.inUseOn (s : State) (l a : Nat) : Bool :=
  ((seatOn l a).bind fun i => (s.seat i).occ.slot).isSome

/-- The presence of a drop address with its counts 0 and its discovery-due mark clear. -/
def AddrState.at (p : Presence) : AddrState := ⟨p, 0, 0, false⟩

/-- A drop address takes presence `p`: its counts become 0, and its discovery-due mark is cleared unless it becomes
ABSENT, which clears no mark (R100, R104, R107, R115). -/
def AddrState.become (r : AddrState) (p : Presence) : AddrState :=
  { AddrState.at p with due := decide (p = .absent) && r.due }

/-- A presence set anew; on a seat line a change to or from PRESENT is handed to the seat allocator (R95, R96, R100,
R104, R107, R115). -/
def State.setPresence (s : State) (l a : Nat) (p : Presence) : State :=
  let was := s.presence l a
  let t := s.onAddr l a fun r => r.become p
  match seatOn l a with
  | none => t
  | some i =>
    if p = .present ∧ was ≠ .present then t.deskFound i
    else if p ≠ .present ∧ was = .present then t.deskGone i
    else t

/-- The DESK_LOST event of a drop address with its new presence (R100). -/
def State.raiseLost (s : State) (l a : Nat) (p : Presence) : State :=
  s.notify (.deskLost l a p (seatOn l a) (s.occupantOn l a))

/-- The DESK_LOST event of a loss by exchange `x` (R100): none by a TEST frame, since a wiring test raises no DESK_LOST
(R115; DEDUCED, log entry 17). -/
def State.raiseLossBy (s : State) (l : Nat) (x : Exchange) : State :=
  match x.kind with
  | .test _ => s
  | _ => s.raiseLost l x.addr .lost

/-- A PRESENT address becomes LOST by exchange `x` (R100). -/
def State.loseDesk (s : State) (l : Nat) (x : Exchange) : State := (s.raiseLossBy l x).setPresence l x.addr .lost

/-- The outcome `h` of exchange `x` of any kind on the missed-reply count of a PRESENT address (R100). -/
def State.countMiss (s : State) (l : Nat) (x : Exchange) (h : Heard) : State :=
  if s.presence l x.addr = .present then
    if h.good then s.onAddr l x.addr fun r => { r with missed := 0 }
    else if 2 ≤ ((s.line l).addr x.addr).missed then s.loseDesk l x
    else s.onAddr l x.addr fun r => { r with missed := r.missed + 1 }
  else s

/-- A discovery poll's outcome (R107). -/
def State.takeDiscovery (s : State) (l a : Nat) (h : Heard) : State :=
  if h.good ∧ s.presence l a ≠ .present then
    (s.setPresence l a .present).notify (.deskBack l a (seatOn l a))
  else s

/-- The outcome of a sweep's DISCOVER (R104), on the presence as the count of R100 has left it: an address that the count
has just made LOST, with its DESK_LOST, is not PRESENT any more (DEDUCED, log entry 17). -/
def State.takeSweep (s : State) (l a : Nat) (h : Heard) : State :=
  if h.good then s.setPresence l a .present
  else
    let t := if s.presence l a = .present ∧ s.inUseOn l a then s.raiseLost l a .absent else s
    t.setPresence l a .absent

/-- A CLOCK frame's outcome on its mark (R110): an ACK removes it, and a mark set again since the content was built
stands again at the tail as it stands at the ACK (DESIGN CHOICE, log entry 37: R110 does not say when it is appended). -/
def Line.takeClock (n : Line) (a : Nat) (again : Bool) (h : Heard) : Line :=
  if h.good then { n with marks := n.marks.filter (· ≠ a) ++ if again then [a] else [] } else n

/-! ## Events (R101) -/

/-- An event of the station at address `a`, by its role (R101). -/
def State.stationEvent (s : State) (a : Nat) (e : DeskEvent) : State :=
  match (s.station a).role, e with
  | .entrance, .checkin id b => s.takeCheckin a id b
  | .issue, .issue id b => s.takeIssue a id b
  | .collect, .hand b => s.takeReturn a b
  | _, .idle => s
  | _, _ => s.noteStation a .wrongStation

/-- An event of the desk of seat `i` (R101). -/
def State.deskEvent (s : State) (i : Nat) (e : DeskEvent) : State :=
  match e with
  | .tap id => s.takeTap i id
  | .finish => s.pressFinish i
  | .takeBreak => s.pressBreak i
  | .help => s.pressHelp i
  | _ => s

/-- The event of a good REPLY to a POLL handed on (R101). -/
def State.handOn (s : State) (l a : Nat) (h : Heard) : State :=
  match h with
  | .event e =>
    match seatOn l a with
    | some i => s.deskEvent i e
    | none => s.stationEvent a e
  | _ => s

/-! ## The wiring test (R114 to R116) -/

/-- The progress with one more exchange's outcome, the correct echo being `want` (R115). -/
def TestProgress.hear (t : TestProgress) (want : Nat) (h : Heard) : TestProgress :=
  { t with
    pattern := t.pattern + 1
    correct := if h = .echo want then t.correct + 1 else t.correct
    replies := if h = .silent then t.replies else t.replies + 1 }

/-- The presence decided after the fourth exchange (R115). -/
def TestProgress.verdict (t : TestProgress) : Presence :=
  if t.correct = 4 then .present else if t.replies = 0 then .absent else .faulty

/-- The progress with the address decided and counted (R115, R116). The count stands though the address be unconfigured before
the test ends (DESIGN CHOICE, log entry 30: R115 counts an address unconfigured in no outcome, R116 the addresses decided). -/
def TestProgress.decided (t : TestProgress) : TestProgress :=
  match t.verdict with
  | .present => { TestProgress.blank with present := t.present + 1, faulty := t.faulty, absent := t.absent }
  | .faulty => { TestProgress.blank with present := t.present, faulty := t.faulty + 1, absent := t.absent }
  | _ => { TestProgress.blank with present := t.present, faulty := t.faulty, absent := t.absent + 1 }

/-- A TEST frame's outcome (R115); it counts for nothing once the line has left TESTING (R105) or the address is
configured no more. An address unconfigured and configured again while its TEST frame is in flight goes on with the
echoes gathered (DESIGN CHOICE, log entry 30). -/
def State.takeTest (s : State) (l a i : Nat) (h : Heard) : State :=
  if (s.line l).state = .testing ∧ (s.line l).test.addr = a ∧ s.configured l a then
    let t := (s.line l).test.hear (testEcho a (BitVec.ofNat 16 (testPattern a i))).toNat h
    if t.pattern < 4 then s.onLine l fun n => { n with test := t }
    else (s.onLine l fun n => { n with test := t.decided, cursor := a + 1 }).setPresence l a t.verdict
  else s

/-- Every count 0 and every discovery-due mark clear (R105, R114). -/
def Line.zeroCounts (n : Line) : Line :=
  (mapKeys n.addrs).foldl (fun n a => n.onAddr a fun r => AddrState.at r.presence) n

/-- A wiring test that has been taken starts on a line with no exchange in flight: counts 0 and marks clear (R114). -/
def Line.startTest (n : Line) : Line :=
  if n.testDue ∧ n.state = .testing ∧ n.exchange = none then { n.zeroCounts with testDue := false } else n

/-! ## The end of an exchange (R99) -/

/-- The outcome `h` of exchange `x` of line `l`: the line is free, the outcome is counted, and it is taken by R100 and by
the rule for the frame's kind, in that order (R99; the order is DEDUCED, log entry 17). An address configured no more
changes no presence; one unconfigured and configured again while its DISCOVER was in flight takes the outcome (DESIGN
CHOICE, log entry 30). -/
def State.takeOutcome (s : State) (l : Nat) (x : Exchange) (h : Heard) : State :=
  let t := s.onLine l fun n => { n with exchange := none, stats := n.stats.hear h }
  match x.kind with
  | .poll => (t.countMiss l x h).handOn l x.addr h
  | .clock _ again => (t.onLine l fun n => n.takeClock x.addr again h).countMiss l x h
  | .note _ => t.countMiss l x h
  | .discover sweep =>
    let u := t.countMiss l x h
    if s.configured l x.addr then (if sweep then u.takeSweep l x.addr h else u.takeDiscovery l x.addr h) else u
  | .test i => (t.countMiss l x h).takeTest l x.addr i h
  | .broadcast _ => t

/-- An exchange ends with the outcome `h`; a wiring test that waited for its end starts (R102, R114). -/
def State.endExchange (s : State) (l : Nat) (x : Exchange) (h : Heard) : State :=
  (s.takeOutcome l x h).onLine l Line.startTest

/-- A reply frame received within the window on line `l` (R99); with no frame that calls for a reply in flight it is
not heard (R120). -/
def State.lineReply (s : State) (l : Nat) (bytes : List Byte) : State :=
  match (s.line l).exchange with
  | some x => if x.callsForReply then s.endExchange l x (x.hear l bytes) else s
  | none => s

/-- The reply window of line `l` closes with no reply (R99). -/
def State.windowClose (s : State) (l : Nat) : State :=
  match (s.line l).exchange with
  | some x => if x.callsForReply then s.endExchange l x .silent else s
  | none => s

/-- The last byte of a broadcast leaves line `l` (R99). -/
def State.broadcastEnd (s : State) (l : Nat) : State :=
  match (s.line l).exchange with
  | some x => if x.callsForReply then s else s.onLine l fun n => Line.startTest { n with exchange := none }
  | none => s

/-! ## Intervals and discovery rounds (R106, R107) -/

/-- The poll interval of line `l` in the hall settings (R183). -/
def State.pollInterval (s : State) (l : Nat) : Nat :=
  if isSeatLine l then s.hall.seatPoll.getD l 250 else s.hall.stationPoll

/-- The PRESENT addresses of line `l`, ascending. -/
def State.presentAddrs (s : State) (l : Nat) : List Nat :=
  (s.configuredAddrs l).filter fun a => decide (s.presence l a = .present)

/-- The owed poll count of a PRESENT address at an interval end (R106). -/
def AddrState.owe (r : AddrState) : AddrState := { r with owed := min 9 (r.owed + 1) }

/-- The owed poll counts and late polls of line `n` at an interval end, for the PRESENT addresses given (R106). -/
def Line.oweAll (n : Line) (present : List Nat) : Line :=
  present.foldl (fun n a =>
    let late := decide (9 ≤ (n.addr a).owed)
    let m := n.onAddr a AddrState.owe
    if late then { m with stats := { m.stats with latePolls := statUp m.stats.latePolls } } else m) n

/-- A discovery round: the mark on every configured ABSENT or LOST address (R107). -/
def State.discoveryRound (s : State) (l : Nat) : State :=
  (s.configuredAddrs l).foldl
    (fun t a => if s.presence l a = .absent ∨ s.presence l a = .lost then t.onAddr l a fun r => { r with due := true }
      else t) s

/-- The interval timer of line `l` restarts, with its length taken anew (R106). -/
def State.restartInterval (s : State) (l : Nat) : State :=
  s.onLine l fun n => { n with timer := 0, interval := s.pollInterval l }

/-- The discovery count of line `l` advances; at 16 it restarts and a round is taken (R106). -/
def State.advanceDiscovery (s : State) (l : Nat) : State :=
  if 16 ≤ (s.line l).discovery + 1 then (s.onLine l fun n => { n with discovery := 0 }).discoveryRound l
  else s.onLine l fun n => { n with discovery := n.discovery + 1 }

/-- An interval end on line `l` (R102, R106). -/
def State.endInterval (s : State) (l : Nat) : State :=
  let t := s.restartInterval l
  if (s.line l).state = .active then
    (t.onLine l fun n => n.oweAll (s.presentAddrs l)).advanceDiscovery l
  else t

/-- An interval end is due on line `l` (R106). -/
def State.intervalDue (s : State) (l : Nat) : Bool := decide ((s.line l).interval ≤ (s.line l).timer)

/-- A 1 ms tick for line `l` (R18, R106). -/
def State.tickLine (s : State) (l : Nat) : State :=
  let t := s.onLine l fun n => { n with timer := n.timer + 1 }
  if t.intervalDue l then t.endInterval l else t

/-- A 1 ms tick taken by the line controller. -/
def State.tickLines (s : State) : State := lineNumbers.foldl State.tickLine s

/-! ## What a free line sends (R103, R104, R108, R115) -/

/-- Frame `x` goes out on line `l`. -/
def State.send (s : State) (l : Nat) (x : Exchange) : State := s.onLine l fun n => { n with exchange := some x }

/-- One more POLL or DISCOVER frame (R121). -/
def LineStats.poll (t : LineStats) : LineStats := { t with polls := statUp t.polls }

/-- One more NOTE frame (R113). -/
def LineStats.note (t : LineStats) : LineStats := { t with notesSent := statUp t.notesSent }

/-- A POLL to address `a` (R109). -/
def State.sendPoll (s : State) (l a : Nat) : State :=
  (((s.onAddr l a fun r => { r with owed := r.owed - 1 }).onStats l LineStats.poll)).send l ⟨a, .poll⟩

/-- A DISCOVER to the marked address `a`; the mark is cleared (R107). -/
def State.sendDiscovery (s : State) (l a : Nat) : State :=
  ((s.onAddr l a fun r => { r with due := false }).onStats l LineStats.poll).send l ⟨a, .discover false⟩

/-- A CLOCK frame to the desk at address `a`, its content built now (R110, R72). -/
def State.sendClock (s : State) (l a : Nat) : State :=
  ((s.spendWarning (seatIndex l a)).onStats l fun t => { t with clockFrames := statUp t.clockFrames }).send l
    ⟨a, .clock (s.clockContent (seatIndex l a)) false⟩

/-- The frame of a note (R113): broadcast at address 0. -/
def Note.exchange (n : Note) : Exchange := ⟨n.addr, if n.addr = 0 then .broadcast n.content else .note n.content⟩

/-- A note taken from the head of the FIFO is sent (R113), by the address as it stands then: a note whose address has been
unconfigured and configured again while it waited is sent (DESIGN CHOICE, log entry 44: the table of R113 and its last sentence
differ there). -/
def State.noteGoes (s : State) (l : Nat) (n : Note) : Bool :=
  decide (n.addr = 0) || (s.configured l n.addr && decide (s.presence l n.addr ≠ .faulty))

/-- The address with the largest owed poll count of those given, the lowest on ties (R108). -/
def Line.mostOwed (n : Line) (addrs : List Nat) : Option Nat :=
  addrs.foldl (fun best a => match best with
    | some b => if (n.addr b).owed < (n.addr a).owed then some a else some b
    | none => some a) none

/-- The address with the smallest owed poll count of those given, the lowest on ties (R108). -/
def Line.leastOwed (n : Line) (addrs : List Nat) : Option Nat :=
  addrs.foldl (fun best a => match best with
    | some b => if (n.addr a).owed < (n.addr b).owed then some a else some b
    | none => some a) none

/-- The arbiter's steps 4 to 6 (R108). -/
def State.pollStep (s : State) (l : Nat) : State :=
  let n := s.line l
  match n.mostOwed ((s.presentAddrs l).filter fun a => decide (0 < (n.addr a).owed)) with
  | some a => s.sendPoll l a
  | none =>
    match (s.configuredAddrs l).find? fun a => (n.addr a).due with
    | some a => s.sendDiscovery l a
    | none =>
      match n.leastOwed ((s.presentAddrs l).filter fun a => decide (-8 < (n.addr a).owed)) with
      | some a => s.sendPoll l a
      | none => s

/-- The arbiter's steps 3 to 6: leading notes that cannot go are removed (R108, R113). -/
def State.noteStep (s : State) (l : Nat) : State :=
  match (s.line l).fifo.dropWhile fun n => !s.noteGoes l n with
  | n :: rest => ((s.onLine l fun m => { m with fifo := rest }).onStats l LineStats.note).send l n.exchange
  | [] => (s.onLine l fun m => { m with fifo := [] }).pollStep l

/-- The mark that step 2 serves: the oldest whose desk is PRESENT; none on the station line (R108, R119). -/
def State.markServed (s : State) (l : Nat) : Option Nat :=
  if isSeatLine l then (s.line l).marks.find? fun a => decide (s.presence l a = .present) else none

/-- The arbiter chooses the next frame of line `l` (R108). -/
def State.arbitrate (s : State) (l : Nat) : State :=
  match (s.presentAddrs l).find? fun a => decide (((s.line l).addr a).owed = 9) with
  | some a => s.sendPoll l a
  | none =>
    match s.markServed l with
    | some a => s.sendClock l a
    | none => s.noteStep l

/-- The seats of line `l` that are HELD or OCCUPIED (R105), ascending (DESIGN CHOICE, log entry 29: it orders their
marks). -/
def State.usedSeats (s : State) (l : Nat) : List Nat :=
  if isSeatLine l then (s.seats.filter fun p => decide (seatLine p.1 = l) && p.2.occ.slot.isSome).map Prod.fst else []

/-- The sweep of line `l` ends (R104, R105). -/
def State.endSweep (s : State) (l : Nat) : State :=
  let t := (s.onLine l fun n => { n with state := .active, discovery := 0, cursor := 1, swept := true }).restartInterval l
  if (s.line l).resetSweep then
    (s.usedSeats l).foldl State.setMark (t.onLine l fun n => { n with resetSweep := false })
  else t

/-- The sweep of line `l` goes on to its next address, or ends (R104). -/
def State.sweepStep (s : State) (l : Nat) : State :=
  match (s.configuredAddrs l).find? fun a => decide ((s.line l).cursor ≤ a) && decide (s.presence l a ≠ .faulty) with
  | some a =>
    ((s.onLine l fun n => { n with cursor := a + 1 }).onStats l LineStats.poll).send l ⟨a, .discover true⟩
  | none => (s.endSweep l).arbitrate l

/-- The wiring test of line `l` ends (R116). -/
def State.endTest (s : State) (l : Nat) : State :=
  let t := (s.line l).test
  ((s.onLine l fun n => { n with state := .active, discovery := 0, cursor := 1, test := TestProgress.blank }).restartInterval
    l).notify (.lineTestDone l t.present t.faulty t.absent)

/-- The progress at address `a`: its own, or a new address begun (R115). -/
def TestProgress.begin (t : TestProgress) (a : Nat) : TestProgress :=
  if t.addr = a then t
  else { TestProgress.blank with addr := a, present := t.present, faulty := t.faulty, absent := t.absent }

/-- The wiring test of line `l` goes on to its next exchange, or ends (R115, R116). A test that finds no address to try, and
has decided none, ends at once with counts 0, 0, 0: R116 speaks of the last configured address alone (DESIGN CHOICE, log
entry 39). -/
def State.testStep (s : State) (l : Nat) : State :=
  match (s.configuredAddrs l).find? fun a => decide ((s.line l).cursor ≤ a) with
  | some a =>
    let t := (s.line l).test.begin a
    (s.onLine l fun n => { n with test := t, cursor := a }).send l ⟨a, .test t.pattern⟩
  | none => (s.endTest l).arbitrate l

/-- An exchange in flight of an emptied line: no mark stands for its CLOCK frame to keep. -/
def Exchange.forget (x : Exchange) : Exchange :=
  match x.kind with
  | .clock c _ => ⟨x.addr, .clock c false⟩
  | _ => x

/-- The clock-mark list and note FIFO of a line emptied (R103, R105, R122). -/
def Line.flush (n : Line) : Line := { n with marks := [], fifo := [], exchange := n.exchange.map Exchange.forget }

/-- The work of a line on entry to QUIET (R103). -/
def State.quietStep (s : State) (l : Nat) : State :=
  if (s.line l).blankDue then
    ((s.onLine l fun n => { n.flush with blankDue := false }).onStats l LineStats.note).send l ⟨0, .broadcast .blank⟩
  else s

/-- A line with no exchange in flight starts the work of its state (6.2). -/
def State.runLine (s : State) (l : Nat) : State :=
  if (s.line l).exchange.isSome then s
  else match (s.line l).state with
    | .active => s.arbitrate l
    | .quiet => s.quietStep l
    | .waking => s.sweepStep l
    | .testing => s.testStep l

/-- Every line goes on. -/
def State.runLines (s : State) : State := lineNumbers.foldl State.runLine s

/-! ## Changes of configured (R2, R118) -/

/-- The address of a seat or station whose configured field has changed: ABSENT, counts 0, mark clear, no clock mark
(R2, R118). -/
def State.newAddress (s : State) (l a : Nat) : State :=
  s.onLine l fun n => (n.onAddr a fun _ => AddrState.blank).dropMark a

/-! ## Line commands (R103, R105, R114, R117) -/

/-- LINE_QUIET's effect on an ACTIVE line (R103). -/
def Line.goQuiet (n : Line) : Line := { n with state := .quiet, blankDue := true }

/-- LINE_WAKE's effect on a QUIET line (R105). -/
def Line.goWaking (n : Line) : Line := { n with state := .waking, blankDue := false, cursor := 1, resetSweep := false }

/-- LINE_TEST's effect: TESTING at once, and the test started unless an exchange is still in flight (R102, R114). -/
def Line.goTesting (n : Line) : Line :=
  Line.startTest { n with state := .testing, blankDue := false, cursor := 1, test := TestProgress.blank, testDue := true }

/-- LINE_RESET's effect (R105). -/
def Line.restart (n : Line) : Line :=
  { n.zeroCounts.flush with
    state := .waking
    blankDue := false
    cursor := 1
    test := TestProgress.blank
    testDue := false
    resetSweep := true }

/-- The checks of DESK_CLEAR (R117). -/
def State.clearRefusal (s : State) (l a : Nat) : Option Code :=
  if 6 < l ∨ a < 1 ∨ addrCount l < a then some .range
  else if s.configured l a = false then some .notFound
  else if s.presence l a ≠ .faulty then some .wrongPhase
  else none

/-- The checks of LINE_TEST (R114). -/
def State.testRefusal (s : State) (l : Nat) : Option Code :=
  if 6 < l then some .range
  else match (s.line l).state with
    | .waking | .testing => some .wrongPhase
    | _ => if s.lineInUse l then some .inUse else none

/-- The checks of LINE_QUIET (R103). -/
def State.quietRefusal (s : State) (l : Nat) : Option Code :=
  if 6 < l then some .range
  else match (s.line l).state with
    | .active => if s.lineInUse l then some .inUse else none
    | .quiet => none
    | _ => some .wrongPhase

/-- The checks of LINE_WAKE (R105). -/
def State.wakeRefusal (s : State) (l : Nat) : Option Code :=
  if 6 < l then some .range else if (s.line l).state = .quiet then none else some .wrongPhase

/-! ## Resets (R122) -/

/-- Line `l` at RESET_SITTINGS (R122). -/
def State.blankLine (s : State) (l : Nat) : State :=
  let t := s.onLine l Line.flush
  if (s.line l).state = .active then t.queueNote l 0 .blank else t

end Sys2Proof.Machine
end

