-- ==== Sys2Proof/Machine/Log.lean ====
section
/-! DEFINITION. The result log and the score histograms (chapter 10). -/

namespace Sys2Proof.Machine

/-- The sequence number of the oldest record held (R170, R174); of an empty log, for which R174 gives none, a free value
(log entry 31). -/
def ResultLog.oldest (g : ResultLog) : Nat :=
  match g.records with
  | r :: _ => r.number
  | [] => (Config.oldestOfEmptyLog g.next).toNat

/-- The score band of P (R164, step 3). -/
def bandOf (p : Nat) : Nat := min 19 (p / 50)

/-- The result log changed by `f`. -/
def State.onLog (s : State) (f : ResultLog → ResultLog) : State := { s with log := f s.log }

/-- The log with `r` placed at its tail under the next sequence number, which rises unless exhausted (R169, R170). -/
def ResultLog.place (g : ResultLog) (r : ResultRecord) (time : Nat) : ResultLog :=
  { g with records := g.records ++ [{ r with number := g.next, time := time }], next := satUp 4294967295 g.next }

/-- One count added to the band of a scored record in its channel's histogram (R170, step 4; R175). -/
def State.countBand (s : State) (r : ResultRecord) : State :=
  match r.channel, r.score with
  | some c, some x =>
    s.onChan c fun ch => { ch with
      histogram := tabSet 0 ch.histogram (bandOf x.perMille) (satUp 65535 (tabGet 0 ch.histogram (bandOf x.perMille))) }
  | _, _ => s

/-- LOG_HIGH when the count of records held equals the high mark (R170, step 5). -/
def State.highTest (s : State) : State :=
  if s.log.records.length = s.hall.highMark then s.notify (.logHigh s.log.records.length s.log.oldest) else s

/-- The placement of a record (R170). -/
def State.placeRecord (s : State) (r : ResultRecord) : State :=
  ((s.onLog fun g => g.place r s.time.hallTime).countBand r).highTest

/-- A LOG_FULL rejection of the sheet, announced when the full-notice arming is armed (R174). -/
def State.fullReject (s : State) (sheet : Nat) : State :=
  if s.log.armed then (s.onLog fun g => { g with armed := false }).notify (.logFull sheet s.log.oldest) else s

/-- The log after a release of every record numbered at or below `upto` (R173). -/
def ResultLog.release (g : ResultLog) (upto : Nat) : ResultLog :=
  let left := g.records.filter fun r => decide (upto < r.number)
  { g with records := left, armed := g.armed || decide (left.length < Config.logSize) }

/-- The records a READ_RESULTS returns (R172). -/
def ResultLog.read (g : ResultLog) (start most : Nat) : List ResultRecord :=
  (g.records.filter fun r => decide (start ≤ r.number)).take most

end Sys2Proof.Machine
end

