-- ==== Sys2Proof/Machine/Sitting.lean ====
section
/-! DEFINITION. The sitting unit (chapter 3): admission, start, the channel second, amendments, base end, collection,
teardown. -/

namespace Sys2Proof.Machine

/-! ## Admission (R37, R38) -/

/-- The lowest slot of channel `c` whose id also stands in another active channel (R37). -/
def State.conflictSlot (s : State) (c : Nat) : Option Nat :=
  (s.roster.find? fun p => decide (p.2.channel = c) &&
    s.roster.any fun q => decide (q.2.channel ≠ c) && decide (q.2.id = p.2.id) &&
      (s.chan q.2.channel).state.isActive).map Prod.fst

/-- A timed admission attempt of channel `c` (R38). -/
def State.timedAttempt (s : State) (c : Nat) : State :=
  match s.conflictSlot c with
  | none => s.enterPhase c .opened
  | some k => (s.onChan c fun ch => { ch with spent := true }).notify (.openFailed c k)

/-- The second tick that channel `c` is given, or that is taken from it again: a channel takes its timed event with a tick
in hand alone (R40). -/
def State.giveTick (s : State) (c : Option Nat) : State := { s with ticking := c }

/-- A timed admission is due: channel `c` has a second tick in hand (R40), and R38's conditions stand. -/
def State.admissionDue (s : State) (c : Nat) : Bool :=
  let ch := s.chan c
  decide (s.ticking = some c) && decide (ch.state = .loaded) && !ch.spent && ch.config.admission.any fun t => decide (t ≤ s.time.hallTime)

/-- A timed start is due: channel `c` has a second tick in hand (R40), and R39's conditions stand. -/
def State.startDue (s : State) (c : Nat) : Bool :=
  let ch := s.chan c
  decide (s.ticking = some c) && decide (ch.state = .opened) && ch.config.start.any fun t => decide (t ≤ s.time.hallTime)

/-! ## Amendments (R47 to R49) -/

/-- A requested writing length brought into range (R47). -/
def amendLength (v : Nat) : Nat := bring 600 14400 v

/-- Whether an amendment applied at writing elapsed `e` is too late (R49, step 1). -/
def tooLate (e : Nat) : Bool := decide (14400 < e + 60)

/-- The new writing length of an amendment (R49, step 2). -/
def amended (v e : Nat) : Nat := max v (e + 60)

/-- An amendment of channel `c` with length `v` applied at writing elapsed `e`, in time (R49, steps 2 to 4). Any
pending amendment becomes absent: it is the one applied, or is cancelled by the immediate form (R47). -/
def State.amend (s : State) (c v e : Nat) : State :=
  ((s.onChan c fun ch => { ch with length := amended v e, amendment := none }).recomputeAll c (amended v e)).notify
    (.amendApplied c (amended v e) e)

/-- The pending amendment of channel `c` dropped (R44, R49). -/
def State.dropAmendment (s : State) (c : Nat) : State :=
  match (s.chan c).amendment with
  | some a => (s.onChan c fun ch => { ch with amendment := none }).notify (.amendDropped c a.length)
  | none => s

/-- The pending amendment of channel `c` applied at its writing elapsed, or dropped when too late (R48, R49). -/
def State.applyPending (s : State) (c : Nat) : State :=
  match (s.chan c).amendment with
  | some a =>
    if tooLate (s.chan c).writeElapsed then s.dropAmendment c else s.amend c a.length (s.chan c).writeElapsed
  | none => s

/-! ## Start (R39, R41) -/

/-- The writing start of channel `c` (R41), its three effects in the order R41 lists them, which it does not call an order
(DESIGN CHOICE, log entry 29): the SEATED candidates are WRITING when a pending amendment is applied, so that the amendment
makes R75's tests for them, and the amendment's notice is queued before CHANNEL_PHASE. -/
def State.startWriting (s : State) (c : Nat) : State :=
  (((s.onChan c fun ch => { ch with state := .writing, writeElapsed := 0 }).startWriters c).applyPending c).notify
    (.channelPhase c .writing s.time.hallTime)

/-- A start of channel `c` (R39). -/
def State.startChannel (s : State) (c : Nat) : State :=
  if 0 < (s.chan c).config.reading then
    ((s.onChan c fun ch => { ch with readElapsed := 0 }).enterPhase c .reading).markEntries c fun st =>
      decide (st = .seated)
  else s.startWriting c

/-! ## The channel second (R42 to R44) -/

/-- The closing of admission of channel `c` (R43), its entries in roster slot order (DESIGN CHOICE, log entry 29). -/
def State.closeAdmission (s : State) (c : Nat) : State :=
  let out := s.slotsIn c fun st => decide (st = .expected) || decide (st = .allocated)
  (out.foldl State.shutOut (s.onChan c fun ch => { ch with closed := true })).notify (.admissionClosed c out.length)

/-- Admission closes if it has not (R43, R44). -/
def State.closeOnce (s : State) (c : Nat) : State := if (s.chan c).closed then s else s.closeAdmission c

/-- Base end of channel `c` (R44). -/
def State.endBase (s : State) (c : Nat) : State :=
  let t := (s.closeOnce c).dropAmendment c
  if t.hasWriter c then t.enterPhase c .overtime else t.enterCollecting c

/-- A pending amendment falls due at this writing second (R43, step 2). -/
def State.secondAmendment (s : State) (c : Nat) : State :=
  if (s.chan c).writeElapsed % 60 = 0 then s.applyPending c else s

/-- Step 4 of R43. -/
def State.secondClose (s : State) (c : Nat) : State :=
  if (s.chan c).config.late < (s.chan c).writeElapsed then s.closeOnce c else s

/-- Step 5 of R43. -/
def State.secondBase (s : State) (c : Nat) : State :=
  if (s.chan c).state = .writing ∧ (s.chan c).length ≤ (s.chan c).writeElapsed then s.endBase c else s

/-- A writing second of channel `c`, in the steps of R43. -/
def State.writingSecond (s : State) (c : Nat) : State :=
  (((((s.onChan c fun ch => { ch with writeElapsed := ch.writeElapsed + 1 }).secondAmendment c).countChannel
    c).secondClose c).secondBase c)

/-- A reading second of channel `c` (R42, R41, R75). -/
def State.readingSecond (s : State) (c : Nat) : State :=
  let t := (s.onChan c fun ch => { ch with readElapsed := ch.readElapsed + 1 }).readingMarks c
  if (t.chan c).config.reading ≤ (t.chan c).readElapsed then t.startWriting c else t

/-- A held second of channel `c` (R42). -/
def State.heldSecond (s : State) (c : Nat) : State :=
  s.onChan c fun ch => { ch with holdSeconds := satUp 86399 ch.holdSeconds }

/-- Channel `c` takes a second tick: a timed event, or the second of its classification (R40, R42). -/
def State.tickChannel (s : State) (c : Nat) : State :=
  match (s.chan c).state with
  | .loaded => if s.admissionDue c then s.timedAttempt c else s
  | .opened => if s.startDue c then s.startChannel c else s
  | .reading => if s.time.held || (s.chan c).hold then s.heldSecond c else s.readingSecond c
  | .writing | .overtime => if s.time.held || (s.chan c).hold then s.heldSecond c else s.writingSecond c
  | _ => s

/-- Channel `c` is given a second tick, takes it, and has it no more (R40). -/
def State.passTick (s : State) (c : Nat) : State := ((s.giveTick (some c)).tickChannel c).giveTick none

/-- A second tick taken by the sitting unit, in one pass over the channels in ascending number. R38 gives that order for
timed attempts among themselves; for all else one channel's tick does to another the order is a DESIGN CHOICE (log
entry 29). -/
def State.tickSittings (s : State) : State := channelNumbers.foldl State.passTick s

/-! ## Load, close, teardown (R35, R52 to R55) -/

/-- The runtime fields at load (R35). -/
def Channel.atLoad (c : Channel) : Channel :=
  { Channel.blank with config := c.config, state := .loaded, length := c.config.writing }

/-- Whether another channel that is not FREE has the paper number (R34, R35). -/
def State.paperTaken (s : State) (c paper : Nat) : Bool :=
  channelNumbers.any fun d => decide (d ≠ c) && decide ((s.chan d).state ≠ .free) &&
    decide ((s.chan d).config.paper = paper)

/-- The checks of R35 on channel `c`; none when they pass. -/
def State.loadRefusal (s : State) (c : Nat) : Option Code :=
  let ch := s.chan c
  if ch.state ≠ .free then some .wrongPhase
  else if (s.form ch.config.form).defined = false then some .notFound
  else if (s.profile ch.config.profile).defined = false then some .notFound
  else if s.paperTaken c ch.config.paper then some .duplicate
  else none

/-- A channel that has become FREE (R55): configuration, histogram, active bank and generation kept. -/
def Channel.freed (c : Channel) : Channel :=
  { c.atLoad with state := .free, active := c.active, generation := c.generation, histogram := c.histogram }

/-- Channel `c` becomes FREE (R55, R17, R134). -/
def State.freeChannel (s : State) (c : Nat) : State :=
  (((s.slotsOf c).foldl State.freeSlot s).onChan c Channel.freed).notify (.teardownDone c s.time.hallTime)

/-- The teardown gate of channel `c` is open (R54). -/
def State.gateOpen (s : State) (c : Nat) : Bool :=
  (s.log.records.all fun r => decide (r.channel ≠ some c)) &&
    s.intake.slots.all fun p => !(decide (p.2.state = .scoring) && decide (p.2.resolved = some c))

/-- The teardown gate of channel `c` tested (R54). -/
def State.testGate (s : State) (c : Nat) : State :=
  if (s.chan c).state = .releasing ∧ s.gateOpen c then s.freeChannel c else s

/-- The teardown gate of every RELEASING channel tested (R54, R144, R173), in ascending channel number (DESIGN CHOICE, log
entry 29). -/
def State.testGates (s : State) : State := channelNumbers.foldl State.testGate s

/-- CHANNEL_CLOSE's effect on a COLLECTING channel (R52). -/
def State.closeChannel (s : State) (c : Nat) : State :=
  ((s.slotsIn c fun st => decide (st = .finished) || decide (st = .timeUp)).foldl
    (fun t k => t.onEntry k fun e => { e with state := .missing }) s).enterPhase c .reconciled

/-- A change of the channel hold flag (R46): marks when it starts or stops the channel's clock. -/
def State.setHold (s : State) (c : Nat) (h : Bool) : State :=
  let t := s.onChan c fun ch => { ch with hold := h }
  if (s.chan c).hold ≠ h ∧ (s.chan c).state.hasClock ∧ s.time.held = false then t.markEntries c EntryState.isSeated
  else t

end Sys2Proof.Machine
end

