-- ==== Sys2Proof/Machine/Marking.lean ====
section
/-! DEFINITION. The marking unit (chapter 9): darkness, group classes, the sheet checks, the score, key commits. -/

namespace Sys2Proof.Machine

/-! ## Darkness and groups (R157, R158) -/

/-- The darkness of a raw value between the white level `w` and the black level `k` (R157). -/
def darkness (w k v : Nat) : Nat :=
  if v ≤ w then 0 else if k ≤ v then 100 else (v - w) * 100 / (k - w)

/-- The class of a group (R158). -/
inductive GroupClass where
  | blank
  | single (option : Nat)
  | multiple
  | unclear
deriving DecidableEq, Repr

/-- The largest darkness of a group and the lowest index that has it; `i` is the index of the head (R158). -/
def darkest : Nat → List Nat → Nat × Nat
  | i, [] => (0, i)
  | i, [d] => (d, i)
  | i, d :: e :: ds => let r := darkest (i + 1) (e :: ds); if d < r.1 then r else (d, i)

/-- The largest darkness other than the one at index `o` (R158). -/
def runnerUp (o : Nat) (ds : List Nat) : Nat := (darkest 0 (ds.eraseIdx o)).1

/-- The class of a group by a profile's thresholds (R158). -/
def classify (p : Profile) (ds : List Nat) : GroupClass :=
  let d1 := (darkest 0 ds).1
  let d2 := runnerUp (darkest 0 ds).2 ds
  if d1 < p.blank then .blank
  else if p.mark ≤ d1 ∧ (d2 < p.blank ∨ p.margin ≤ d1 - d2) then .single (darkest 0 ds).2
  else if p.mark ≤ d1 ∧ p.mark ≤ d2 ∧ d1 - d2 < p.margin then .multiple
  else .unclear

/-- The darkness of every value of a slot (R157). -/
def Slot.darks (t : Slot) : List Nat := t.values.map fun v => darkness t.white t.black v.toNat

/-- The group of `n` values at place `j` of a list. -/
def groupAt (n j : Nat) (ds : List Nat) : List Nat := (ds.drop (j * n)).take n

/-- A grid read by its columns, ten values each, most significant first; none when a column is not SINGLE (R160). -/
def readGrid (p : Profile) (columns : Nat) (ds : List Nat) : Option Nat :=
  (List.range columns).foldl
    (fun acc j => match acc, classify p (groupAt 10 j ds) with
      | some a, .single d => some (a * 10 + d)
      | _, _ => none)
    (some 0)

/-! ## The sheet checks (R159) -/

/-- The bank of a channel by its name. -/
def Channel.bank (c : Channel) : Bank → PMap KeyEntry
  | .a => c.bankA
  | .b => c.bankB

/-- The channel that is not FREE with the paper number (R159, check 7). -/
def State.paperChannel (s : State) (paper : Nat) : Option Nat :=
  channelNumbers.find? fun c => decide ((s.chan c).state ≠ .free) && decide ((s.chan c).config.paper = paper)

/-- The entry found at check 9. -/
def State.markedEntry (s : State) (m : Marking) : Option Entry := m.entry.bind s.entry

/-- The channel found at check 7. -/
def State.markedChan (s : State) (m : Marking) : Channel := s.chan (m.channel.getD 0)

/-- Check number `i` made on the sheet of slot record `t` (R159): the work with what the check found, or the status
of its failure. Check 3 holds both its parts; that check 13 waits is `commitRuns`. Check 11 looks for the entry in the
channel found, so that R171 holds however long the checks take (log entry 9). Checks 11 and 12 read the entry that stands in
the slot then, also where it is another candidate's than check 9 found (DESIGN CHOICE, log entry 43). -/
def State.makeCheck (s : State) (t : Slot) (m : Marking) (i : Nat) : Marking ⊕ Status :=
  match i with
  | 1 => if t.good then .inl m else .inr .badFrame
  | 2 =>
    if t.form ≤ 3 ∧ m.formed then .inl m else .inr .formUnknown
  | 3 =>
    if t.overrun then .inr .overrun
    else if t.declared = 120 + m.questions * m.options then .inl m else .inr .formMismatch
  | 4 => if t.white < t.black ∧ (s.profile m.grid).span ≤ t.black - t.white then .inl m else .inr .calFault
  | 5 =>
    match readGrid (s.profile m.grid) 8 t.darks with
    | some id => .inl { m with id := some id }
    | none => .inr .idUnreadable
  | 6 =>
    match readGrid (s.profile m.grid) 4 (t.darks.drop 80) with
    | some paper => .inl { m with paper := paper }
    | none => .inr .paperUnreadable
  | 7 =>
    match s.paperChannel m.paper with
    | some c => .inl { m with channel := some c }
    | none => .inr .noChannel
  | 8 => if (s.markedChan m).config.form = t.form then .inl m else .inr .formMismatch
  | 9 =>
    match s.channelLookup (m.id.getD 0) (m.channel.getD 0) with
    | some (k, _) => .inl { m with entry := some k }
    | none => .inr .notOnRoster
  | 10 => if (s.markedChan m).state = .releasing then .inr .channelClosed else .inl m
  | 11 =>
    if (s.markedEntry m).any fun e => decide (e.state = .collected) && decide (m.channel = some e.channel) then .inl m
    else .inr .notCollected
  | 12 => if (s.markedEntry m).any fun e => decide (e.result = .none) then .inl m else .inr .duplicateSheet
  | 13 => .inl { m with bank := (s.markedChan m).active, generation := (s.markedChan m).generation }
  | _ => if s.log.records.length < Config.logSize then .inl m else .inr .logFull

/-- The channel's commit stage is RUNNING, so that the sheet waits at check 13 (R159, R143). -/
def State.commitRuns (s : State) (m : Marking) : Bool :=
  match (s.markedChan m).stage with
  | .running _ => true
  | _ => false

/-- The status of a failed check, with the log-full test of R162. -/
def State.failure (s : State) (x : Status) : Status := if s.log.records.length < Config.logSize then x else .logFull

/-- Check `i` of a sheet that has passed the checks before it, if the marking unit reaches it now (R159). -/
def State.nextCheck (s : State) (t : Slot) (reach : Nat) (m : Marking) (i : Nat) : Marking :=
  if m.failed.isSome ∨ m.made + 1 ≠ i ∨ reach < i ∨ (i = 13 ∧ s.commitRuns m) then m
  else match s.makeCheck t m i with
    | .inl m' => { m' with made := i }
    | .inr x => { m with failed := some (s.failure x) }

/-- The fourteen checks in order. -/
def checkNumbers : List Nat := [1, 2, 3, 4, 5, 6, 7, 8, 9, 10, 11, 12, 13, 14]

/-- The marking unit makes its checks up to number `reach` as the part now stands; the channel found is set in the
slot (R143, R159). -/
def State.advance (s : State) (reach : Nat) : State :=
  match s.intake.marking with
  | none => s
  | some m =>
    let m' := checkNumbers.foldl (s.nextCheck (s.intake.slot m.slot) reach) m
    s.onIntake fun t => { t.onSlot m.slot fun r => { r with resolved := m'.channel } with marking := some m' }

/-! ## Scoring (R163 to R165) -/

/-- The running totals of a score: S as an exact integer, and the counts. -/
structure Tally where
  sum : Int
  maximum : Nat
  correct : Nat
  wrong : Nat
  multiple : Nat
  blank : Nat
  unclear : Nat
  void : Nat
  unclearList : List Nat
deriving DecidableEq, Repr

/-- The totals before question 1. -/
def Tally.zero : Tally := ⟨0, 0, 0, 0, 0, 0, 0, 0, []⟩

/-- Question `q` of class `g` scored against key entry `e` (R163). -/
def Tally.score (t : Tally) (asWrong : Bool) (q : Nat) (e : KeyEntry) (g : GroupClass) : Tally :=
  match e.mode with
  | .voidDrop => { t with void := t.void + 1 }
  | .voidAward => { t with void := t.void + 1, sum := t.sum + e.weight, maximum := t.maximum + e.weight }
  | .normal =>
    let u := { t with maximum := t.maximum + e.weight }
    match g with
    | .single o =>
      if o ∈ e.accepted then { u with sum := u.sum + e.weight, correct := u.correct + 1 }
      else { u with sum := u.sum - e.penalty, wrong := u.wrong + 1 }
    | .multiple => { u with sum := u.sum - e.penalty, multiple := u.multiple + 1 }
    | .blank => { u with blank := u.blank + 1 }
    | .unclear =>
      { u with
        sum := if asWrong then u.sum - e.penalty else u.sum
        unclear := u.unclear + 1
        unclearList := u.unclearList ++ [q] }

/-- The totals over every question of the sheet, question 1 first (R163). -/
def tallySheet (p : Profile) (bank : PMap KeyEntry) (questions options : Nat) (ds : List Nat) : Tally :=
  (List.range questions).foldl
    (fun t j => t.score p.asWrong (j + 1) (tabGet KeyEntry.zero bank j) (classify p (groupAt options j ds)))
    Tally.zero

/-- The score fields of the record (R163, R164). -/
def Tally.finish (t : Tally) (generation : Nat) : Score :=
  let f := t.sum.toNat
  { generation := generation
    final := f
    maximum := t.maximum
    perMille := if t.maximum = 0 then 0 else f * 1000 / t.maximum
    correct := t.correct
    wrong := t.wrong
    multiple := t.multiple
    blank := t.blank
    unclear := t.unclear
    void := t.void
    unclearList := t.unclearList.take 16
    truncated := decide (16 < t.unclearList.length)
    clamped := decide (t.sum < 0)
    noMax := decide (t.maximum = 0) }

/-- The score of the sheet of slot record `t` under the work `m` (R163, R164). -/
def State.scoreOf (s : State) (t : Slot) (m : Marking) : Score :=
  let c := s.markedChan m
  (tallySheet (s.profile c.config.profile) (c.bank m.bank) m.questions m.options (t.darks.drop 120)).finish m.generation

/-- REFERRED when U is above 0 and the unclear count at or above it, else SCORED (R165). -/
def referral (u unclear : Nat) : Status := if 0 < u ∧ u ≤ unclear then .referred else .scored

/-- The verdict of a status (R159, R165). -/
def Status.verdict : Status → Verdict
  | .scored => .accept
  | .referred => .review
  | _ => .reject

/-- The status and score the work ends in, once no check is left to make (R159, R165). -/
def State.outcome (s : State) (t : Slot) (m : Marking) : Status × Option Score :=
  match m.failed with
  | some x => (x, none)
  | none =>
    let x := s.scoreOf t m
    (referral (s.profile (s.markedChan m).config.profile).refer x.unclear, some x)

/-- The record's contents (R166), before the log numbers and times it. The seat is the last seat of the entry that stands in
the roster slot at the completion (DESIGN CHOICE, log entry 36: no rule says it of a rejected sheet whose slot has been freed or
written since check 9). -/
def State.recordOf (s : State) (t : Slot) (m : Marking) (x : Status × Option Score) (late : Bool) : ResultRecord where
  number := 0
  sheet := t.sheet
  time := 0
  verdict := x.1.verdict
  status := x.1
  late := late
  channel := m.channel
  id := m.id
  slot := m.entry
  seat := (s.markedEntry m).bind Entry.lastSeat
  score := x.2

/-- The result status of a scored sheet written into the candidate's entry (R161, R166). -/
def State.setResult (s : State) (m : Marking) (x : Status) : State :=
  match m.entry, x with
  | some k, .scored => s.onEntry k fun e => { e with result := .scored }
  | some k, .referred => s.onEntry k fun e => { e with result := .referred }
  | _, _ => s

/-! ## The take and the completion (R142, R144) -/

/-- The marking unit takes the head of the arrival list when no slot is SCORING (R142), and reads the sheet's form in the
FORMS table, so that no write applied while the sheet is SCORING reaches it (R150). -/
def Intake.take (t : Intake) (forms : PMap Form) : Intake :=
  match t.marking, t.arrivals with
  | none, n :: rest =>
    { t.onSlot n fun r => { r with state := .scoring } with
      arrivals := rest
      marking := some (Marking.take n (tabGet Form.blank forms (t.slot n).form)) }
  | _, _ => t

/-- The marking unit takes the next sheet, if one waits and none is SCORING (R142). -/
def State.takeSheet (s : State) : State := s.onIntake fun t => t.take s.forms

/-- The sheet-port statistics of a completion (R144, R147). -/
def SheetStats.complete (u : SheetStats) (late : Bool) (x : Status) : SheetStats :=
  { u with
    lateVerdicts := if late then statUp u.lateVerdicts else u.lateVerdicts
    logFull := if x = .logFull then statUp u.logFull else u.logFull
    calFaults := if x = .calFault then statUp u.calFaults else u.calFaults }

/-- A commit PENDING on channel `c` begins (R155; R144, step 4). -/
def State.beginCommit (s : State) (c : Nat) : State :=
  if (s.chan c).stage = .pending then s.onChan c fun ch => { ch with stage := .running 0 } else s

/-- The record of a completion: placed in the log, or turned away when the log is full (R144, step 2; R162, R174). -/
def State.logSheet (s : State) (r : ResultRecord) : State :=
  if r.status = .logFull then s.fullReject r.sheet else s.placeRecord r

/-- The completion of the SCORING sheet of slot `m.slot` whose work `m` is done (R144, R166). -/
def State.completeSheet (s : State) (m : Marking) : State :=
  let t := s.intake.slot m.slot
  let late := decide (t.deadline < t.age)
  let x := s.outcome t m
  let s1 := (s.setResult m x.1).logSheet (s.recordOf t m x late)
  let s2 := s1.onIntake fun n =>
    { n.onSlot m.slot fun _ => Slot.blank with
      verdicts := n.verdicts ++ [⟨t.sheet, x.1.verdict, x.1, late, false⟩]
      marking := none
      stats := n.stats.complete late x.1 }
  let s3 := match m.channel with
    | some c => s2.beginCommit c
    | none => s2
  s3.testGates.takeSheet

/-- Scoring completes: the checks left are made, and unless the sheet waits at check 13 it is completed (R143, R144). -/
def State.complete (s : State) : State :=
  let t := s.advance 14
  match t.intake.marking with
  | some m => if m.failed.isSome ∨ m.made = 14 then t.completeSheet m else t
  | none => t

/-! ## Key commits (R155, R156) -/

/-- A SCORING sheet is resolved to channel `c` (R155). -/
def State.scoringResolved (s : State) (c : Nat) : Bool :=
  s.intake.slots.any fun p => decide (p.2.state = .scoring) && decide (p.2.resolved = some c)

/-- The channel after a commit's completion (R156, steps 1 to 4). -/
def Channel.commit (c : Channel) : Channel :=
  match c.active with
  | .a => { c with active := .b, generation := (c.generation + 1) % 256, bankA := c.bankB, stage := .idle }
  | .b => { c with active := .a, generation := (c.generation + 1) % 256, bankB := c.bankA, stage := .idle }

/-- A sheet waiting at check 13 for channel `c` goes on (R156, step 5). -/
def State.resumeSheet (s : State) (c : Nat) : State :=
  match s.intake.marking with
  | some m => if m.made = 12 ∧ m.failed = none ∧ m.channel = some c then s.advance 14 else s
  | none => s

/-- The commit of channel `c` completes (R156). -/
def State.endCommit (s : State) (c : Nat) : State := (s.onChan c Channel.commit).resumeSheet c

/-- A 1 ms tick for channel `c`'s commit (R156). -/
def State.tickCommit (s : State) (c : Nat) : State :=
  match (s.chan c).stage with
  | .running n =>
    let t := s.onChan c fun ch => { ch with stage := .running (n + 1) }
    if 20 ≤ n + 1 then t.endCommit c else t
  | _ => s

/-- A 1 ms tick taken by the marking unit (R18, R156). -/
def State.tickCommits (s : State) : State := channelNumbers.foldl State.tickCommit s

end Sys2Proof.Machine
end

