-- ==== Sys2Proof/Machine/Intake.lean ====
section
/-! DEFINITION. Sheet intake (chapter 8): the receiver, the slots, the arrival list, the verdict queue. -/

namespace Sys2Proof.Machine

/-- The slot numbers, ascending. -/
def slotNumbers : List Nat := [0, 1, 2, 3]

/-- The lowest-numbered EMPTY slot (R139). -/
def Intake.emptySlot (t : Intake) : Option Nat := slotNumbers.find? fun n => decide ((t.slot n).state = .empty)

/-- The number of slots that are not EMPTY (R191). -/
def Intake.busy (t : Intake) : Nat := (slotNumbers.filter fun n => decide ((t.slot n).state ≠ .empty)).length

/-- A start byte on SP_RX (R136, R139): taken outside a frame alone. The slot it takes is blank but for its state, and stays
so to the end of the frame (DESIGN CHOICE, log entry 42: no row brings the bytes one at a time). -/
def State.sheetStart (s : State) : State :=
  if s.intake.rx = .outside then
    match (if s.office.ready then s.intake.emptySlot else none) with
    | some n => s.onIntake fun t =>
        { t.onSlot n fun _ => { Slot.blank with state := .receiving } with rx := .receiving n }
    | none => s.onIntake fun t => { t with rx := .overrun true }
  else s

/-- A field of `n` bytes at offset `o`; 0 when it did not arrive whole (R141). -/
def headerField (bytes : List Byte) (o n : Nat) : Nat :=
  if o + n ≤ bytes.length then beVal ((bytes.drop o).take n) else 0

/-- The reader sheet number of a skipped frame: the bytes that arrived, 0 for those that did not (R139). -/
def overrunSheet (bytes : List Byte) : Nat := beVal ((bytes ++ [0#8, 0#8]).take 2)

/-- The record of a slot whose frame has carried these bytes (R137, R139): header, stored values, overrun, all of them entered
at the end of the frame, where R139 stores them as they arrive (DESIGN CHOICE, log entry 42). -/
def Slot.receive (t : Slot) (bytes : List Byte) : Slot :=
  let declared := headerField bytes 5 2
  let values := (bytes.drop 7).take declared
  { t with
    sheet := headerField bytes 0 2
    form := headerField bytes 2 1
    white := headerField bytes 3 1
    black := headerField bytes 4 1
    declared := declared
    values := values.take Config.slotSize
    overrun := decide (Config.slotSize < values.length) }

/-- A frame has arrived whole: its header, its declared values and its two CRC bytes (R140). -/
def sheetWhole (bytes : List Byte) : Bool :=
  decide (7 ≤ bytes.length) && decide (7 + headerField bytes 5 2 + 2 ≤ bytes.length)

/-- The CRC of a whole frame agrees, over every byte after the start byte (R140, R197). -/
def sheetGood (bytes : List Byte) : Bool :=
  let n := 7 + headerField bytes 5 2
  crcMatches (bytes.take n) ((bytes.drop n).take 2)

/-- The statistics at a frame's end (R140, R141). -/
def SheetStats.frameEnd (u : SheetStats) (good overrun : Bool) : SheetStats :=
  { u with
    badCrc := if good then u.badCrc else statUp u.badCrc
    sheets := statUp u.sheets
    midOverruns := if overrun then statUp u.midOverruns else u.midOverruns }

/-- The end-of-frame step for slot `n` (R140, R141), with the bytes that the frame has carried since its start (log entry 42),
and the take that may follow (R142). -/
def State.endFrame (s : State) (n : Nat) (bytes : List Byte) (good : Bool) : State :=
  let r := (s.intake.slot n).receive bytes
  let t := s.onIntake fun t =>
    { t.onSlot n fun _ => { r with state := .waiting, good := good, age := 0, deadline := s.hall.verdictDeadline } with
      rx := .outside
      arrivals := t.arrivals ++ [n]
      stats := t.stats.frameEnd good r.overrun }
  (if r.overrun then t.notify (.overrun true r.sheet) else t).takeSheet

/-- The number of start-of-sheet overrun verdicts waiting (R145). -/
def Intake.overrunsWaiting (t : Intake) : Nat := (t.verdicts.filter VerdictFrame.startOverrun).length

/-- A start-of-sheet overrun verdict offered to the queue (R145). -/
def Intake.offerOverrun (t : Intake) (sheet : Nat) : Intake :=
  if t.overrunsWaiting < 4 then { t with verdicts := t.verdicts ++ [⟨sheet, .reject, .overrun, false, true⟩] } else t

/-- A skipped start-of-sheet overrun frame ends (R139, R188, R148). -/
def State.endOverrun (s : State) (bytes : List Byte) : State :=
  match s.intake.rx with
  | .overrun offer =>
    (s.onIntake fun t =>
      { (if offer then t.offerOverrun (overrunSheet bytes) else t) with
        rx := .outside
        stats := { t.stats with startOverruns := statUp t.stats.startOverruns } }).notify
      (.overrun false (overrunSheet bytes))
  | _ => s

/-- A frame abandoned at RESET_SITTINGS reaches its end (R148). -/
def State.endAbandoned (s : State) : State :=
  if s.intake.rx = .abandoned then s.onIntake fun t => { t with rx := .outside } else s

/-- A sheet frame ends whole (R140); a skipped frame ends by its own rule. -/
def State.sheetEnd (s : State) (bytes : List Byte) : State :=
  if sheetWhole bytes then
    match s.intake.rx with
    | .receiving n => s.endFrame n bytes (sheetGood bytes)
    | .overrun _ => s.endOverrun bytes
    | .abandoned => s.endAbandoned
    | _ => s
  else s

/-- The gap limit inside a frame (R141); a skipped frame ends by its own rule. -/
def State.sheetGap (s : State) (bytes : List Byte) : State :=
  match s.intake.rx with
  | .receiving n => s.endFrame n bytes false
  | .overrun _ => s.endOverrun bytes
  | .abandoned => s.endAbandoned
  | _ => s

/-- SP_RX has been quiet for 20 ms after a reset (R136). -/
def State.sheetQuiet (s : State) : State :=
  if s.intake.rx = .awaitQuiet then s.onIntake fun t => { t with rx := .outside } else s

/-- The last byte of a verdict frame has left SP_TX (R145, R148). -/
def Intake.sent (t : Intake) : Intake :=
  match t.tx with
  | .idle => t
  | .head => { t with verdicts := t.verdicts.tail, tx := .idle }
  | .orphan _ => { t with tx := .idle }

/-- SP_TX takes the head of the verdict queue when it is free (R145). -/
def Intake.startTx (t : Intake) : Intake :=
  if t.tx = .idle ∧ t.verdicts ≠ [] then { t with tx := .head } else t

/-- A 1 ms tick: the age of every WAITING or SCORING slot (R137). -/
def Intake.tick (t : Intake) : Intake :=
  slotNumbers.foldl
    (fun t n => t.onSlot n fun r =>
      if r.state = .waiting ∨ r.state = .scoring then { r with age := satUp 65535 r.age } else r) t

/-- The receiver's place after RESET_SITTINGS (R148). -/
def SheetRx.abandon : SheetRx → SheetRx
  | .receiving _ => .abandoned
  | .overrun _ => .overrun false
  | x => x

/-- What SP_TX goes on sending when RESET_SITTINGS empties the queue (R148). -/
def Intake.orphanTx (t : Intake) : SpTx :=
  match t.tx, t.verdicts with
  | .head, v :: _ => .orphan v
  | .head, [] => .idle
  | x, _ => x

/-- The intake after RESET_SITTINGS (R148). -/
def Intake.abandon (t : Intake) : Intake :=
  { t with rx := t.rx.abandon, slots := [], arrivals := [], verdicts := [], tx := t.orphanTx, marking := none }

end Sys2Proof.Machine
end

