-- ==== Sys2Proof/Machine/TimeBase.lean ====
section
/-! DEFINITION. The time base (chapter 2): second ticks, the reference, the hold input, the signal lines. -/

namespace Sys2Proof.Machine

/-! ## Signal lines (R29 to R31) -/

/-- The smallest warning offset of a list, none of an empty one. -/
def smallest (offsets : List Nat) : Option Nat := offsets.min?

/-- The condition of an entry with source CHANNEL `c` (R30). -/
def State.channelCondition (s : State) (c : Nat) (x : SignalCondition) : Bool :=
  let ch := s.chan c
  match x with
  | .reading => decide (ch.state = .reading)
  | .writing => decide (ch.state = .writing) || decide (ch.state = .overtime)
  | .overtime => decide (ch.state = .overtime)
  | .final => decide (ch.state = .writing) &&
      (smallest ch.config.warnings).any fun n => decide (ch.length ≤ ch.writeElapsed + n)
  | .held => ch.state.hasClock && (ch.hold || s.time.held)

/-- The condition of an entry (R30). -/
def State.signalCondition (s : State) (e : SignalEntry) : Bool :=
  match e.source with
  | .none => false
  | .hallHeld => s.time.held
  | .refLost => decide (s.time.refState = .lost)
  | .channel c => s.channelCondition c e.condition

/-- Signal line at a second tick: a pending write applied, then the output set (R31). -/
def State.tickSignal (s : State) (g : Signal) : Signal :=
  let e := g.pending.getD g.entry
  { entry := e
    pending := none
    active := s.signalCondition e && (!e.flash || !g.active) }

/-- A second tick taken by the signal lines (R31). -/
def State.tickSignals (s : State) : State :=
  (List.range 8).foldl (fun t n => t.onSignal n s.tickSignal) s

/-! ## The second tick (R24) -/

/-- The consumers of a second tick (R24). -/
inductive Consumer where
  | sitting
  | seats
  | signals
deriving DecidableEq, Repr

/-- One consumer takes the tick. -/
def State.consume (s : State) : Consumer → State
  | .sitting => s.tickSittings
  | .seats => s.tickSeats
  | .signals => s.tickSignals

/-- The consumers in the order named. -/
def consumersOf : TickOrder → List Consumer
  | .sittingSeatsSignals => [.sitting, .seats, .signals]
  | .sittingSignalsSeats => [.sitting, .signals, .seats]
  | .seatsSittingSignals => [.seats, .sitting, .signals]
  | .seatsSignalsSitting => [.seats, .signals, .sitting]
  | .signalsSittingSeats => [.signals, .sitting, .seats]
  | .signalsSeatsSitting => [.signals, .seats, .sitting]

/-- Hall time one second on; the divider restarts (R24, R19). -/
def TimeBase.second (t : TimeBase) : TimeBase :=
  { t with hallTime := if Config.lastHallSecond ≤ t.hallTime then 0 else t.hallTime + 1, divider := 0 }

/-- A second tick with the consumers in order `o`, and `mid` taken after the first `n` of them. -/
def State.secondTickWith (s : State) (o : TickOrder) (n : Nat) (mid : State → State) : State :=
  ((consumersOf o).drop n).foldl State.consume
    (mid (((consumersOf o).take n).foldl State.consume (s.onTime TimeBase.second)))

/-- A second tick (R24). -/
def State.secondTick (s : State) (o : TickOrder) : State :=
  (consumersOf o).foldl State.consume (s.onTime TimeBase.second)

/-- The divider count at which the divider itself produces a second tick (R19). -/
def TimeBase.threshold (t : TimeBase) : Nat := if t.refState = .good then 1100 else 1000

/-- The divider's tick is due (R19). -/
def TimeBase.dividerDue (t : TimeBase) : Bool := decide (t.threshold ≤ t.divider)

/-! ## The reference (R20 to R23) -/

/-- The reference becomes LOST: flag and notice, and the immediate tick of R19 when leaving GOOD at 1000 or more
(R21, R22). The notice is queued before the tick, and so carries the hall time before it and stands before the tick's own
notices (DESIGN CHOICE, log entry 41: R22 lists the two and calls that no order). -/
def State.loseReference (s : State) (o : TickOrder) : State :=
  let t := (s.onTime fun b => { b with refState := .lost, good := 0 }).notify .refLost
  if s.time.refState = .good ∧ 1000 ≤ s.time.divider then t.secondTick o else t

/-- A bad judgement (R21 to R23). In LOST the bad count stands, and in ACQUIRING and GOOD the good count restarts (DESIGN
CHOICE, log entry 35: the rules give these cases no effect). -/
def State.judgeBad (s : State) (o : TickOrder) : State :=
  match s.time.refState with
  | .lost => s.onTime fun b => { b with good := 0 }
  | _ =>
    let t := s.onTime fun b => { b with bad := b.bad + 1, good := 0 }
    if 3 ≤ t.time.bad then t.loseReference o else t

/-- The 500 ms test of a good edge (R22, R23). -/
def State.goodEdge (s : State) (o : TickOrder) : State :=
  if 500 ≤ s.time.divider then s.secondTick o else s.onTime fun b => { b with divider := 0 }

/-- A good judgement, made by an edge (R21 to R23). In GOOD the good count stands, in ACQUIRING it rises, and in LOST the bad
count stands until the fifth (DESIGN CHOICE, log entry 35: the rules give these cases no effect). -/
def State.judgeGood (s : State) (o : TickOrder) : State :=
  match s.time.refState with
  | .acquiring => (s.onTime fun b => { b with refState := .good, bad := 0, good := b.good + 1 }).goodEdge o
  | .good => (s.onTime fun b => { b with bad := 0 }).goodEdge o
  | .lost =>
    let t := s.onTime fun b => { b with good := b.good + 1 }
    if 5 ≤ t.time.good then
      ((t.onTime fun b => { b with refState := .good, bad := 0 }).notify .refBack).goodEdge o
    else t

/-- `n` core clocks pass (R18, R20). -/
def TimeBase.pass (t : TimeBase) (n : Nat) : TimeBase :=
  { t with prescaler := t.prescaler + n, missingTimer := t.missingTimer + n, openPeriod := t.openPeriod.map (· + n) }

/-- The missing-edge timer has reached 1.5 s: a bad judgement, no open period, the timer restarts (R20). -/
def State.judgeMissing (s : State) (o : TickOrder) : State :=
  (s.onTime fun b =>
    { b with openPeriod := none, missingTimer := b.missingTimer - Config.missingEdgeClocks }).judgeBad o

/-- The timer judged if it has run out (R20). -/
def State.missingTest (s : State) (o : TickOrder) : State :=
  if Config.missingEdgeClocks ≤ s.time.missingTimer then s.judgeMissing o else s

/-- A period of this many core clocks is good (R20). -/
def periodGood (n : Nat) : Bool := decide (19980000 ≤ n) && decide (n ≤ 20020000)

/-- A rising edge on REFSEC now (R20). -/
def State.edge (s : State) (o : TickOrder) : State :=
  let t := s.onTime fun b =>
    { b with openPeriod := some 0, missingTimer := 0, lastPeriod := b.openPeriod.or b.lastPeriod }
  match s.time.openPeriod with
  | none => t
  | some n => if periodGood n then t.judgeGood o else t.judgeBad o

/-- A rising edge on REFSEC when the prescaler stands at `phase` (a phase already past is taken as now). A missing-edge
timer that has run out by the clock of the edge, that clock included, is judged before the edge is taken (DESIGN CHOICE,
log entry 7: R20 gives the two no order at one clock). An edge at the clock of a 1 ms tick is taken after that tick, at
prescaler 0 (DESIGN CHOICE, log entry 7: R18 and R22 give the two no order). -/
def State.edgeAt (s : State) (phase : Nat) (o : TickOrder) : State :=
  ((s.onTime fun b => b.pass (min phase (Config.clocksPerTick - 1) - b.prescaler)).missingTest o).edge o

/-- The missing-edge judgement is due before the next 1 ms tick: the core clocks to it. -/
def TimeBase.missingIn (t : TimeBase) : Option Nat :=
  let n := Config.missingEdgeClocks - t.missingTimer
  if n + t.prescaler < Config.clocksPerTick then some n else none

/-- The missing-edge judgement that falls before the next 1 ms tick, if one does, made at its clock (R20). -/
def State.missingFirst (s : State) (o : TickOrder) : State :=
  match s.time.missingIn with
  | some n => (s.onTime fun b => b.pass n).judgeMissing o
  | none => s

/-! ## The hold input (R26) -/

/-- A sample of HOLDIN, asserted or not: the count of consecutive differing samples (R26). -/
def TimeBase.sample (t : TimeBase) (asserted : Bool) : TimeBase :=
  if asserted = t.holdPin then { t with holdCount := 0 } else { t with holdCount := t.holdCount + 1 }

/-- The debounced level is to change: the third consecutive differing sample stands counted (R26). -/
def TimeBase.pinDue (t : TimeBase) : Bool := decide (3 ≤ t.holdCount)

/-- The debounced level changes (R26). -/
def TimeBase.flipPin (t : TimeBase) : TimeBase := { t with holdPin := !t.holdPin, holdCount := 0 }

/-- The debounced level changes, with what R28 attaches to it. -/
def State.changePin (s : State) : State := s.changeHold .pin TimeBase.flipPin

/-- The debounce at a 1 ms tick: every tenth tick samples (R26). -/
def TimeBase.debounce (t : TimeBase) (asserted : Bool) : TimeBase :=
  if t.samplePhase + 1 < 10 then { t with samplePhase := t.samplePhase + 1 }
  else { t.sample asserted with samplePhase := 0 }

/-! ## The 1 ms tick (R18) -/

/-- The core clocks to the next 1 ms tick pass, and the prescaler restarts (R18). -/
def TimeBase.toTick (t : TimeBase) : TimeBase := { t.pass (Config.clocksPerTick - t.prescaler) with prescaler := 0 }

/-- The divider takes a 1 ms tick (R19). -/
def TimeBase.divide (t : TimeBase) : TimeBase := { t with divider := t.divider + 1 }

/-- The divider's second tick and the change of the debounced level, when this 1 ms tick brings them: the change is
taken before all consumers of the second tick but the first `n` (R28). Hall time has advanced before the change, whatever `n`
is, so that its notice carries the new hall time (DESIGN CHOICE, log entry 34: R24 and R28 give the two no order). -/
def State.tickTail (s : State) (n : Nat) (o : TickOrder) : State :=
  let pin := fun t : State => if s.time.pinDue then t.changePin else t
  if s.time.dividerDue then s.secondTickWith o n pin else pin s

end Sys2Proof.Machine
end

