-- ==== Sys2Proof/Machine/Writes.lean ====
section
/-! DEFINITION. The entries an office writes: each table's range checks and the values stored (chapters 1 to 3, 6, 9,
11). -/

namespace Sys2Proof.Machine

/-- The categories that have a mask: all but NOTICE_LOST (R189). -/
def Category.maskable : List Category := Category.all.take 16

/-- A poll interval rounded down to a multiple of 50, then brought into range (R183). -/
def clampPoll (lo hi v : Nat) : Nat := bring lo hi (v / 50 * 50)

/-- A role by its code. -/
def roleOf : Nat → Role
  | 0 => .entrance
  | 1 => .collect
  | _ => .issue

/-- A rectangle in bounds (R32). -/
def rectOk (r : Rect) : Bool :=
  decide (r.r0 ≤ r.r1) && decide (r.r1 ≤ 63) && decide (r.c0 ≤ r.c1) && decide (r.c1 ≤ 63)

/-- Strictly descending. -/
def descending : List Nat → Bool
  | a :: b :: rest => decide (b < a) && descending (b :: rest)
  | _ => true

/-- The warning offsets of R32. -/
def warningsOk (ws : List Nat) : Bool :=
  decide (ws.length ≤ 4) && (ws.all fun n => decide (60 ≤ n) && decide (n ≤ 3600) && decide (n % 60 = 0)) && descending ws

end Sys2Proof.Machine

namespace Sys2Proof

open Sys2Proof.Machine

/-- The settings that a HALL write stores (R183). -/
def HallWrite.stored (w : HallWrite) : HallSettings where
  seatPoll := w.seatPoll.map (clampPoll 100 1000)
  stationPoll := clampPoll 50 500 w.stationPoll
  seatingLimit := bring 60 900 w.seatingLimit
  clearingTime := bring 0 600 w.clearingTime
  verdictDeadline := bring 100 2000 w.verdictDeadline
  highMark := bring 1 255 w.highMark
  masks := ((Category.maskable.zip w.masks).filter fun p => decide (0 < p.2)).map Prod.fst

/-- Whether no value of a HALL write was changed to store it (R183). -/
def HallWrite.exact (w : HallWrite) : Bool :=
  decide (w.stored.seatPoll = w.seatPoll) && decide (w.stored.stationPoll = w.stationPoll) &&
    decide (w.stored.seatingLimit = w.seatingLimit) && decide (w.stored.clearingTime = w.clearingTime) &&
    decide (w.stored.verdictDeadline = w.verdictDeadline) && decide (w.stored.highMark = w.highMark) &&
    w.masks.all fun m => decide (m ≤ 1)

/-- A written HALL entry has its six intervals and sixteen masks (R183). -/
def HallWrite.whole (w : HallWrite) : Bool := decide (w.seatPoll.length = 6) && decide (w.masks.length = 16)

/-- Every field of a SEATS entry is in range (R7, check 1). -/
def SeatWrite.inRange (w : SeatWrite) : Bool :=
  decide (w.configured ≤ 1) && decide (w.row ≤ 63) && decide (w.column ≤ 63) && decide (w.accessible ≤ 1) &&
    decide (w.service ≤ 1)

/-- The range check of a STATIONS entry (R118). -/
def StationWrite.refusal (w : StationWrite) : Option Code :=
  if w.configured ≤ 1 ∧ w.role ≤ 2 then none else some .range

/-- The range check of a ROSTER entry (R13, check 1). -/
def RosterWrite.inRange : RosterWrite → Bool
  | .use id c n fixed =>
    decide (id ≤ 99999999) && decide (c ≤ 15) && decide (n ≤ 7) && fixed.all fun i => decide (i ≤ 383)
  | .free => true

/-- Every configuration field is in range (R34, check 2). -/
def ChannelWrite.inRange (w : ChannelWrite) : Bool :=
  decide (w.paper ≤ 9999) && decide (w.form ≤ 3) && decide (w.profile ≤ 3) &&
    decide (1 ≤ w.zones.length) && decide (w.zones.length ≤ 4) && w.zones.all rectOk &&
    decide (w.fill ≤ 1) && decide (w.spacing ≤ 2) && decide (w.relax ≤ 1) &&
    (w.admission.all fun t => decide (t ≤ 86399)) && (w.start.all fun t => decide (t ≤ 86399)) &&
    decide (w.reading ≤ 1800) && decide (600 ≤ w.writing) && decide (w.writing ≤ 14400) &&
    decide (w.late ≤ 3600) && decide (w.barStart ≤ 3600) && decide (w.barEnd ≤ 3600) && warningsOk w.warnings

/-- The configuration written (R32). -/
def ChannelWrite.config (w : ChannelWrite) : ChanConfig where
  paper := w.paper
  form := w.form
  profile := w.profile
  zones := w.zones
  fill := if w.fill = 0 then .rowwise else .serpentine
  spacing := match w.spacing with | 0 => .none | 1 => .row | _ => .cross
  relax := decide (w.relax = 1)
  admission := w.admission
  start := w.start
  reading := w.reading
  writing := w.writing
  late := w.late
  barStart := w.barStart
  barEnd := w.barEnd
  warnings := w.warnings

/-- The range check of a CLASSES entry (R9). -/
def ClassWrite.refusal (w : ClassWrite) : Option Code :=
  if w.percent ≤ 100 ∧ w.budget ≤ 3600 ∧ w.accessible ≤ 1 then none else some .range

/-- The range check of a FORMS entry (R150). -/
def FormWrite.inRange (w : FormWrite) : Bool :=
  decide (w.defined ≤ 1) && decide (1 ≤ w.questions) && decide (w.questions ≤ 200) && decide (2 ≤ w.options) &&
    decide (w.options ≤ 8) && decide (w.grid ≤ 3)

/-- The range check of a PROFILES entry, T_mark above T_blank included (R151). -/
def ProfileWrite.inRange (w : ProfileWrite) : Bool :=
  decide (w.defined ≤ 1) && decide (w.blank ≤ 99) && decide (1 ≤ w.mark) && decide (w.mark ≤ 100) &&
    decide (1 ≤ w.margin) && decide (w.margin ≤ 100) && decide (w.handling ≤ 1) && decide (w.refer ≤ 200) &&
    decide (10 ≤ w.span) && decide (w.span ≤ 255) && decide (w.blank < w.mark)

/-- Entry by entry, the check of R153: `q` is the question number, `questions` and `options` the form's N and n. -/
def KeyWrite.inRange (w : KeyWrite) (q questions options : Nat) : Bool :=
  (w.accepted.all fun o => decide (o ≤ 7)) && decide (w.weight ≤ 60) && decide (w.penalty ≤ 60) && decide (w.mode ≤ 2) &&
    decide (q ≤ questions) &&
    (decide (w.mode ≠ 0) || (!w.accepted.isEmpty && w.accepted.all fun o => decide (o < options)))

/-- The key entry written (R152); the accepted set in ascending order. -/
def KeyWrite.entry (w : KeyWrite) : KeyEntry where
  accepted := (List.range 8).filter fun o => decide (o ∈ w.accepted)
  weight := w.weight
  penalty := w.penalty
  mode := match w.mode with | 0 => .normal | 1 => .voidAward | _ => .voidDrop

/-- The range check of a SIGNALS entry (R29). -/
def SignalWrite.refusal (w : SignalWrite) : Option Code :=
  if w.source ≤ 3 ∧ (w.source = 1 → w.channel ≤ 15) ∧ w.condition ≤ 4 ∧ w.mode ≤ 1 ∧ w.polarity ≤ 1 then none
  else some .range

/-- The entry written (R29). -/
def SignalWrite.entry (w : SignalWrite) : SignalEntry where
  source := match w.source with | 0 => .none | 1 => .channel w.channel | 2 => .hallHeld | _ => .refLost
  condition := match w.condition with | 0 => .reading | 1 => .writing | 2 => .final | 3 => .overtime | _ => .held
  flash := decide (w.mode = 1)
  activeLow := decide (w.polarity = 1)

end Sys2Proof
end

