-- ==== Sys2Proof/Machine/Tables.lean ====
section
/-! DEFINITION. Table access (11.2): the entries a read returns as bytes (R199), and the writes with each table's own
checks. -/

namespace Sys2Proof.Machine

/-- What the owner of a request answers: the result code, the payload after it, and the part as it then stands. -/
structure Answer where
  code : Code
  payload : List Byte
  state : State

/-- A refusal changes nothing (R178). -/
def State.refuse (s : State) (c : Code) : Answer := ⟨c, [], s⟩

/-- Done as asked, with no payload. -/
def State.done (s : State) : Answer := ⟨.ok, [], s⟩

/-- Done as asked unless a check refuses. -/
def State.unless (s : State) (refusal : Option Code) (t : State) : Answer :=
  match refusal with
  | some c => s.refuse c
  | none => t.done

/-! ## What a read returns (R180, R199) -/

/-- A SEATS entry: the five written fields, the occupancy and its sub-fields (R1). -/
def Seat.bytes (r : Seat) : List Byte :=
  bBool r.configured ++ b1 r.row ++ b1 r.column ++ bBool r.accessible ++ b1 (if r.inService then 0 else 1) ++
    match r.occ with
    | .free => b1 0
    | .held k n => b1 1 ++ be 2 k ++ be 2 n
    | .occupied k => b1 2 ++ be 2 k
    | .clearing n => b1 3 ++ be 2 n

/-- A station's role, numbered in the order of R118. -/
def Role.code : Role → Nat
  | .entrance => 0
  | .collect => 1
  | .issue => 2

/-- A STATIONS entry (R118). -/
def Station.bytes (t : Station) : List Byte := bBool t.configured ++ b1 t.role.code

/-- A result status, numbered in the order of R12. -/
def ResultStatus.code : ResultStatus → Nat
  | .none => 0
  | .scored => 1
  | .referred => 2

/-- The fields of an in-use ROSTER entry, with the returned mark of each serial (R10, R12). -/
def State.entryBytes (s : State) (e : Entry) : List Byte :=
  packed 4 e.id ++ b1 e.channel ++ b1 e.cls ++ bOpt (be 2) e.fixed ++
    b1 e.state.code ++ bOpt (be 2) e.seat ++ bOpt (be 2) e.lastSeat ++
    b1 e.percent ++ be 2 e.budget ++ bBool e.accessible ++ be 2 e.allowed ++ be 2 e.written ++ be 2 e.remaining ++
    b1 e.breaks ++ bList (fun b => packed 3 b ++ bBool (s.isReturned b)) e.booklets ++ bOpt (be 3) e.finish ++
    b1 e.result.code ++ bBool e.late ++ bBool e.relaxed ++ bBool e.moved ++ bBool e.budgetOut ++ bBool e.deskLost

/-- A ROSTER entry; a free slot gives in use no and nothing else (R10). -/
def State.rosterBytes (s : State) (k : Nat) : List Byte :=
  match s.entry k with
  | some e => bBool true ++ s.entryBytes e
  | none => bBool false

/-- Fill order, numbered in the order of R32. -/
def Fill.code : Fill → Nat
  | .rowwise => 0
  | .serpentine => 1

/-- Spacing, numbered in the order of R32. -/
def Spacing.code : Spacing → Nat
  | .none => 0
  | .row => 1
  | .cross => 2

/-- The configuration fields of a CHANNELS entry (R32). -/
def ChanConfig.bytes (g : ChanConfig) : List Byte :=
  packed 2 g.paper ++ b1 g.form ++ b1 g.profile ++
    bList (fun r : Rect => b1 r.r0 ++ b1 r.r1 ++ b1 r.c0 ++ b1 r.c1) g.zones ++
    b1 g.fill.code ++ b1 g.spacing.code ++ bBool g.relax ++ bOpt (be 3) g.admission ++ bOpt (be 3) g.start ++
    be 2 g.reading ++ be 2 g.writing ++ be 2 g.late ++ be 2 g.barStart ++ be 2 g.barEnd ++ bList (be 2) g.warnings

/-- Committing is yes while the stage is PENDING or RUNNING (R152). -/
def Channel.committing (c : Channel) : Bool := decide (c.stage ≠ .idle)

/-- The runtime fields of a CHANNELS entry except the histogram (R33, R34). -/
def Channel.runtimeBytes (c : Channel) : List Byte :=
  b1 c.state.code ++ be 2 c.length ++ be 2 c.readElapsed ++ be 2 c.writeElapsed ++ bBool c.closed ++ bBool c.spent ++
    bBool c.hold ++ be 3 c.holdSeconds ++ bOpt (be 2) (c.amendment.map Amendment.length) ++
    b1 (match c.active with | .a => 0 | .b => 1) ++ b1 c.generation ++ bBool c.committing

/-- A CHANNELS entry: configuration, runtime fields, and the in-use slots that name it (R34). -/
def State.chanBytes (s : State) (c : Nat) : List Byte :=
  (s.chan c).config.bytes ++ (s.chan c).runtimeBytes ++ be 2 (s.slotsOf c).length

/-- A CLASSES entry (R9). -/
def AllowanceClass.bytes (k : AllowanceClass) : List Byte := b1 k.percent ++ be 2 k.budget ++ bBool k.accessible

/-- A FORMS entry (R150). -/
def Form.bytes (f : Form) : List Byte := bBool f.defined ++ b1 f.questions ++ b1 f.options ++ b1 f.grid

/-- A PROFILES entry (R151). -/
def Profile.bytes (p : Profile) : List Byte :=
  bBool p.defined ++ b1 p.blank ++ b1 p.mark ++ b1 p.margin ++ b1 (if p.asWrong then 1 else 0) ++ b1 p.refer ++ b1 p.span

/-- A key entry's mode, numbered in the order of R152. -/
def KeyMode.code : KeyMode → Nat
  | .normal => 0
  | .voidAward => 1
  | .voidDrop => 2

/-- A KEYS entry (R152). -/
def KeyEntry.bytes (e : KeyEntry) : List Byte := bList b1 e.accepted ++ b1 e.weight ++ b1 e.penalty ++ b1 e.mode.code

/-- A SIGNALS entry's source with its channel (R29). -/
def SignalSource.bytes : SignalSource → List Byte
  | .none => b1 0
  | .channel c => b1 1 ++ b1 c
  | .hallHeld => b1 2
  | .refLost => b1 3

/-- A signal condition, numbered in the order of R29. -/
def SignalCondition.code : SignalCondition → Nat
  | .reading => 0
  | .writing => 1
  | .final => 2
  | .overtime => 3
  | .held => 4

/-- A SIGNALS entry as last written, pending included, with the level driven (R29). -/
def Signal.bytes (g : Signal) : List Byte :=
  let e := g.pending.getD g.entry
  e.source.bytes ++ b1 e.condition.code ++ bBool e.flash ++ bBool e.activeLow ++ bBool g.pin

/-- One mask or flag for each category given (R183, R187). -/
def categoryBytes (all set : List Category) : List Byte := all.flatMap fun c => bBool (decide (c ∈ set))

/-- The HALL entry with its read-only fields (R183). -/
def State.hallBytes (s : State) : List Byte :=
  s.hall.seatPoll.flatMap (be 2) ++ be 2 s.hall.stationPoll ++ be 2 s.hall.seatingLimit ++ be 2 s.hall.clearingTime ++
    be 2 s.hall.verdictDeadline ++ b1 s.hall.highMark ++ categoryBytes Category.maskable s.hall.masks ++
    be 3 s.time.hallTime ++ be 4 (s.time.lastPeriod.getD 0)

/-- A signed number of one byte, in two's complement (R199). -/
def bInt (v : Int) : List Byte := [BitVec.ofInt 8 v]

/-- A PRESENCE entry for address `a` of line `l` (R180). -/
def State.addrBytes (s : State) (l a : Nat) : List Byte :=
  let r := (s.line l).addr a
  bBool (s.configured l a) ++ b1 r.presence.code ++ b1 r.missed ++ bInt r.owed ++ b1 (s.line l).state.code

/-- The PRESENCE entry of index `i`: seats 0 to 383, then the stations (R180). -/
def State.presenceBytes (s : State) (i : Nat) : List Byte :=
  if i < 384 then s.addrBytes (seatLine i) (seatAddr i) else s.addrBytes 6 (i - 383)

/-- The tables by their code (12.4): the first index and one past the last. -/
def tableSpan : Nat → Option (Nat × Nat)
  | 1 => some (0, 1)
  | 2 => some (0, 384)
  | 3 => some (1, 9)
  | 4 => some (0, 512)
  | 5 => some (0, 16)
  | 6 => some (0, 8)
  | 7 => some (0, 4)
  | 8 => some (0, 4)
  | 9 => some (0, 3200)
  | 10 => some (0, 64)
  | 11 => some (0, 8)
  | 12 => some (0, 392)
  | _ => none

/-- Entry `i` of the table with code `t`, as it stands (R180); KEYS as the zero entry (R154). -/
def State.tableBytes (s : State) (t i : Nat) : List Byte :=
  match t with
  | 1 => s.hallBytes
  | 2 => (s.seat i).bytes
  | 3 => (s.station i).bytes
  | 4 => s.rosterBytes i
  | 5 => s.chanBytes i
  | 6 => (s.cls i).bytes
  | 7 => (s.form i).bytes
  | 8 => (s.profile i).bytes
  | 9 => KeyEntry.zero.bytes
  | 10 => bList (fun b => [b]) (s.message i)
  | 11 => (s.signal i).bytes
  | _ => s.presenceBytes i

/-- The entries named that stand in the table, in index order. -/
def State.entriesBytes (s : State) (t first count last : Nat) : List Byte :=
  (((List.range count).map (first + ·)).filter fun i => decide (i < last)).flatMap (s.tableBytes t)

/-- The bytes of entries that one response frame of length 1024 carries beside kind, tag and result code (R180). -/
def readRoom : Nat := 1021

/-- READ_TABLE (R180, R154). -/
def State.read (s : State) (t first count : Nat) : Answer :=
  match tableSpan t with
  | none => s.refuse .unknownTable
  | some (lo, hi) =>
    let body := s.entriesBytes t first count hi
    if count = 0 then s.refuse .range
    else if 16 < count ∨ readRoom < body.length then s.refuse .tooLong
    else if first < lo ∨ hi < first + count then s.refuse .range
    else if t = 9 then
      ⟨.ok, body, s.onOffice fun o => { o with stats := { o.stats with protectedReads := statUp o.stats.protectedReads } }⟩
    else ⟨.ok, body, s⟩

/-! ## Writes (R181) -/

/-- The common checks of a write over the table span `lo` to `hi` (R181, checks 2 and 3). -/
def writeRefusal (lo hi first count : Nat) : Option Code :=
  if count = 0 then some .range
  else if 4 < count then some .tooLong
  else if first < lo ∨ hi < first + count then some .range
  else none

/-- The entries of a write with their indexes. -/
def indexed {α : Type} (first : Nat) (ws : List α) : List (Nat × α) :=
  match ws with
  | [] => []
  | w :: rest => (first, w) :: indexed (first + 1) rest

/-- A write whose entries are checked against the part as it stands, first failure first, and then applied together. -/
def State.writeAll {α : Type} (s : State) (lo hi first : Nat) (ws : List α) (check : Nat → α → Option Code)
    (put : State → Nat → α → State) : Answer :=
  match (writeRefusal lo hi first ws.length).or ((indexed first ws).findSome? fun p => check p.1 p.2) with
  | some c => s.refuse c
  | none => ((indexed first ws).foldl (fun t p => put t p.1 p.2) s).done

/-- One entry of a write whose checks count the entries before it: checked, then put, unless a check has failed. -/
def stepEntry {α : Type} (check : State → Nat → α → Option Code) (put : State → Nat → α → State)
    (acc : State × Option Code) (p : Nat × α) : State × Option Code :=
  match acc.2 with
  | some _ => acc
  | none =>
    match check acc.1 p.1 p.2 with
    | some c => (acc.1, some c)
    | none => (put acc.1 p.1 p.2, none)

/-- A write whose entries are checked with the entries before them applied, all or nothing (R14, R15, R34). -/
def State.writeEach {α : Type} (s : State) (lo hi first : Nat) (ws : List α) (check : State → Nat → α → Option Code)
    (put : State → Nat → α → State) : Answer :=
  match writeRefusal lo hi first ws.length with
  | some c => s.refuse c
  | none =>
    match (indexed first ws).foldl (stepEntry check put) (s, none) with
    | (_, some c) => s.refuse c
    | (t, none) => t.done

/-! ### HALL (R183) -/

/-- A HALL write (R181, R183). -/
def State.writeHall (s : State) (first : Nat) (ws : List HallWrite) : Answer :=
  match writeRefusal 0 1 first ws.length, ws with
  | none, [w] =>
    if w.whole then ⟨if w.exact then .ok else .clamped, [], { s with hall := w.stored }⟩ else s.refuse .range
  | none, _ => s.refuse .range
  | some c, _ => s.refuse c

/-! ### SEATS (R7) -/

/-- The record with the five written fields (R1); occupancy, closing word and lost occupant stand (R7). -/
def Seat.write (r : Seat) (w : SeatWrite) : Seat :=
  { r with
    configured := decide (w.configured = 1)
    row := w.row
    column := w.column
    accessible := decide (w.accessible = 1)
    inService := decide (w.service = 0) }

/-- A SEATS entry applied, with the effects of a change of configured (R2). -/
def State.putSeat (s : State) (i : Nat) (w : SeatWrite) : State :=
  let t := s.onSeat i fun r => r.write w
  if (t.seat i).configured = (s.seat i).configured then t else t.newAddress (seatLine i) (seatAddr i)

/-- The seat map after the whole write. -/
def State.seatsAfter (s : State) (first : Nat) (ws : List SeatWrite) : PMap Seat :=
  (indexed first ws).foldl (fun m p => tabSet Seat.blank m p.1 ((tabGet Seat.blank m p.1).write p.2)) s.seats

/-- Two configured seats share a position (R3). -/
def sharesPosition (m : PMap Seat) : Bool :=
  m.any fun p => m.any fun q => decide (p.1 ≠ q.1) && p.2.configured && q.2.configured && decide (p.2.row = q.2.row) &&
    decide (p.2.column = q.2.column)

/-- The checks of R7 on one entry, `clash` being the position test of the whole write. -/
def State.seatRefusal (s : State) (clash : Bool) (i : Nat) (w : SeatWrite) : Option Code :=
  if w.inRange = false then some .range
  else if (s.seat i).occ.slot.isSome then some .inUse
  else if clash then some .duplicate
  else none

/-- A SEATS write (R7). -/
def State.writeSeats (s : State) (first : Nat) (ws : List SeatWrite) : Answer :=
  s.writeAll 0 384 first ws (s.seatRefusal (sharesPosition (s.seatsAfter first ws))) State.putSeat

/-! ### STATIONS (R118) -/

/-- A STATIONS entry applied, with the effects of a change of configured (R118). -/
def State.putStation (s : State) (a : Nat) (w : StationWrite) : State :=
  let t := { s with stations := tabSet Station.blank s.stations a ⟨decide (w.configured = 1), roleOf w.role⟩ }
  if (t.station a).configured = (s.station a).configured then t else t.newAddress 6 a

/-- A STATIONS write (R118). -/
def State.writeStations (s : State) (first : Nat) (ws : List StationWrite) : Answer :=
  s.writeAll 1 9 first ws (fun _ w => w.refusal) State.putStation

/-! ### ROSTER (R13 to R15) -/

/-- An in-use slot may not be replaced or freed (R13, check 2). -/
def State.slotBound (s : State) (k : Nat) : Bool :=
  (s.entry k).any fun e => decide (e.state ≠ .expected) ||
    (decide ((s.chan e.channel).state ≠ .loaded) && decide ((s.chan e.channel).state ≠ .opened)) || !e.booklets.isEmpty

/-- A channel takes roster entries (R13, check 3). -/
def Channel.takesEntries (c : Channel) : Bool := decide (c.state = .loaded) || c.admitting

/-- The id stands in another slot of the channel (R14). -/
def State.duplicates (s : State) (k id c : Nat) : Bool :=
  s.roster.any fun p => decide (p.1 ≠ k) && decide (p.2.id = id) && decide (p.2.channel = c)

/-- The id stands in another slot, in a different active channel, while channel `c` is active (R15). -/
def State.conflicts (s : State) (k id c : Nat) : Bool :=
  (s.chan c).state.isActive && s.roster.any fun p =>
    decide (p.1 ≠ k) && decide (p.2.id = id) && decide (p.2.channel ≠ c) && (s.chan p.2.channel).state.isActive

/-- The checks of R13 on one entry. -/
def State.rosterRefusal (s : State) (k : Nat) (w : RosterWrite) : Option Code :=
  if w.inRange = false then some .range
  else if s.slotBound k then some .inUse
  else match w with
    | .free => none
    | .use id c _ _ =>
      if (s.chan c).takesEntries = false then some .wrongPhase
      else if s.duplicates k id c then some .duplicate
      else if s.conflicts k id c then some .conflict
      else none

/-- A ROSTER entry applied: what hung on the slot goes, and a slot in use takes the values of R12 (R13, R17). -/
def State.putRoster (s : State) (k : Nat) (w : RosterWrite) : State :=
  match w with
  | .free => s.freeSlot k
  | .use id c n fixed => (s.freeSlot k).putEntry k (Entry.written0 id c n fixed)

/-- A ROSTER write (R13). -/
def State.writeRoster (s : State) (first : Nat) (ws : List RosterWrite) : Answer :=
  s.writeEach 0 512 first ws State.rosterRefusal State.putRoster

/-! ### CHANNELS (R34) -/

/-- The checks of R34 on one entry. -/
def State.channelRefusal (s : State) (c : Nat) (w : ChannelWrite) : Option Code :=
  let st := (s.chan c).state
  if st ≠ .free ∧ st ≠ .loaded then some .wrongPhase
  else if w.inRange = false then some .range
  else if st = .loaded ∧ ((s.form w.form).defined = false ∨ (s.profile w.profile).defined = false) then some .notFound
  else if st = .loaded ∧ s.paperTaken c w.paper then some .duplicate
  else none

/-- The channel with the configuration written; a LOADED one takes W into the working W and clears admission spent
(R34). -/
def Channel.write (ch : Channel) (w : ChannelWrite) : Channel :=
  if ch.state = .loaded then { ch with config := w.config, length := w.writing, spent := false }
  else { ch with config := w.config }

/-- A CHANNELS entry applied (R34). -/
def State.putChannel (s : State) (c : Nat) (w : ChannelWrite) : State := s.onChan c fun ch => ch.write w

/-- A CHANNELS write (R34). -/
def State.writeChannels (s : State) (first : Nat) (ws : List ChannelWrite) : Answer :=
  s.writeEach 0 16 first ws State.channelRefusal State.putChannel

/-! ### CLASSES, FORMS, PROFILES (R9, R150, R151, R182) -/

/-- A CLASSES entry applied (R9). -/
def State.putClass (s : State) (n : Nat) (w : ClassWrite) : State :=
  { s with classes := tabSet AllowanceClass.blank s.classes n ⟨w.percent, w.budget, decide (w.accessible = 1)⟩ }

/-- A CLASSES write (R9). -/
def State.writeClasses (s : State) (first : Nat) (ws : List ClassWrite) : Answer :=
  s.writeAll 0 8 first ws (fun _ w => w.refusal) State.putClass

/-- A channel that is not FREE names form `n` (R182). -/
def State.formUsed (s : State) (n : Nat) : Bool :=
  channelNumbers.any fun c => decide ((s.chan c).state ≠ .free) && decide ((s.chan c).config.form = n)

/-- The checks of R150 and R182 on one entry. -/
def State.formRefusal (s : State) (n : Nat) (w : FormWrite) : Option Code :=
  if w.inRange = false then some .range
  else if s.formUsed n then some .inUse
  else if w.defined = 1 ∧ (s.profile w.grid).defined = false then some .notFound
  else none

/-- A FORMS entry applied (R150). -/
def State.putForm (s : State) (n : Nat) (w : FormWrite) : State :=
  { s with forms := tabSet Form.blank s.forms n ⟨decide (w.defined = 1), w.questions, w.options, w.grid⟩ }

/-- A FORMS write (R150). -/
def State.writeForms (s : State) (first : Nat) (ws : List FormWrite) : Answer :=
  s.writeAll 0 4 first ws s.formRefusal State.putForm

/-- A channel that is not FREE references profile `n`, itself or through its form (R182). -/
def State.profileUsed (s : State) (n : Nat) : Bool :=
  channelNumbers.any fun c => decide ((s.chan c).state ≠ .free) &&
    (decide ((s.chan c).config.profile = n) || decide ((s.form (s.chan c).config.form).grid = n))

/-- A defined form names profile `n` as its grid profile (R151). -/
def State.gridUsed (s : State) (n : Nat) : Bool :=
  (List.range 4).any fun f => (s.form f).defined && decide ((s.form f).grid = n)

/-- The checks of R151 and R182 on one entry. -/
def State.profileRefusal (s : State) (n : Nat) (w : ProfileWrite) : Option Code :=
  if w.inRange = false then some .range
  else if s.profileUsed n then some .inUse
  else if w.defined = 0 ∧ s.gridUsed n then some .inUse
  else none

/-- A PROFILES entry applied (R151). -/
def State.putProfile (s : State) (n : Nat) (w : ProfileWrite) : State :=
  { s with profiles := tabSet Profile.initial s.profiles n (⟨decide (w.defined = 1), w.blank, w.mark, w.margin, decide (w.handling = 1),
      w.refer, w.span⟩) }

/-- A PROFILES write (R151). -/
def State.writeProfiles (s : State) (first : Nat) (ws : List ProfileWrite) : Answer :=
  s.writeAll 0 4 first ws s.profileRefusal State.putProfile

/-! ### KEYS (R153) -/

/-- The channel with an entry written into its inactive bank (R153). -/
def Channel.putKey (c : Channel) (q : Nat) (e : KeyEntry) : Channel :=
  match c.active with
  | .a => { c with bankB := tabSet KeyEntry.zero c.bankB q e }
  | .b => { c with bankA := tabSet KeyEntry.zero c.bankA q e }

/-- The checks of R153. -/
def State.keysRefusal (s : State) (first : Nat) (ws : List KeyWrite) : Option Code :=
  let c := s.chan (first / 200)
  let f := s.form c.config.form
  (writeRefusal 0 3200 first ws.length).or <|
    if first / 200 ≠ (first + ws.length - 1) / 200 then some .range
    else if c.state = .free then some .wrongPhase
    else if c.committing then some .busy
    else if (indexed first ws).all fun p => p.2.inRange (p.1 % 200 + 1) f.questions f.options then none
    else some .range

/-- A KEYS write (R153). -/
def State.writeKeys (s : State) (first : Nat) (ws : List KeyWrite) : Answer :=
  s.unless (s.keysRefusal first ws)
    (s.onChan (first / 200) fun c => (indexed first ws).foldl (fun c p => c.putKey (p.1 % 200) p.2.entry) c)

/-! ### MESSAGES and SIGNALS (R184, R29) -/

/-- A text of at most 40 printable characters (R184). -/
def textOk (t : List Byte) : Bool :=
  decide (t.length ≤ 40) && t.all fun b => decide (0x20 ≤ b.toNat) && decide (b.toNat ≤ 0x7E)

/-- A MESSAGES write (R184). -/
def State.writeMessages (s : State) (first : Nat) (ws : List (List Byte)) : Answer :=
  s.writeAll 0 64 first ws (fun _ t => if textOk t then none else some .range)
    (fun s n t => { s with messages := tabSet [] s.messages n t })

/-- A SIGNALS entry held as pending (R29). -/
def State.putSignal (s : State) (n : Nat) (w : SignalWrite) : State :=
  s.onSignal n fun g => { g with pending := some w.entry }

/-- A SIGNALS write (R29). -/
def State.writeSignals (s : State) (first : Nat) (ws : List SignalWrite) : Answer :=
  s.writeAll 0 8 first ws (fun _ w => w.refusal) State.putSignal

end Sys2Proof.Machine
end

