-- ==== Sys2Proof/Machine/Requests.lean ====
section
/-! DEFINITION. The requests beside table access: status, flags, statistics, results, histograms, desk messages, and
the commands of 11.4. -/

namespace Sys2Proof.Machine

/-! ## Status, flags, statistics (R187, R191, R193) -/

/-- The hall-held condition with its cause: NONE 0, PIN 1, OFFICE 2, BOTH 3 (R28, R191). -/
def TimeBase.cause (t : TimeBase) : Nat :=
  match t.holdPin, t.officeHold with
  | false, false => 0
  | true, false => 1
  | false, true => 2
  | true, true => 3

/-- The reference state, numbered in the order of R191. -/
def RefState.code : RefState → Nat
  | .acquiring => 0
  | .good => 1
  | .lost => 2

/-- The channels whose committing is yes, ascending (R191). -/
def State.committingChannels (s : State) : List Nat := channelNumbers.filter fun c => (s.chan c).committing

/-- The payload of READ_STATUS (R191); READY is 0 and NOT_READY 1. -/
def State.statusBytes (s : State) : List Byte :=
  b1 (if s.office.ready then 0 else 1) ++ b1 s.time.cause ++ b1 s.time.refState.code ++ be 3 s.time.hallTime ++
    lineNumbers.flatMap (fun l => b1 (s.line l).state.code) ++
    channelNumbers.flatMap (fun c => b1 (s.chan c).state.code) ++
    be 2 s.log.records.length ++ b1 s.intake.busy ++ bList b1 s.committingChannels

/-- READ_STATUS (R191). -/
def State.status (s : State) : Answer := ⟨.ok, s.statusBytes, s⟩

/-- READ_FLAGS: every flag returned, and every flag cleared (R187). -/
def State.readFlags (s : State) : Answer :=
  ⟨.ok, categoryBytes Category.all s.office.flags, s.onOffice fun o => { o with flags := [] }⟩

/-- The counters of a line (R121). -/
def LineStats.bytes (t : LineStats) : List Byte :=
  [t.polls, t.replies, t.missed, t.badCheck, t.latePolls, t.clockFrames, t.notesSent, t.notesDropped,
    t.wrongSeat].flatMap (be 4)

/-- The counters of the sheet port (R147). -/
def SheetStats.bytes (t : SheetStats) : List Byte :=
  [t.sheets, t.startOverruns, t.midOverruns, t.badCrc, t.calFaults, t.lateVerdicts, t.logFull].flatMap (be 4)

/-- The counters of the booklet register (R135). -/
def BookletStats.bytes (t : BookletStats) : List Byte := [t.issued, t.returned, t.duplicate].flatMap (be 4)

/-- The counters of the office link (R193). -/
def OfficeStats.bytes (t : OfficeStats) : List Byte :=
  [t.framesIn, t.badFrames, t.noticesSent, t.noticesDropped, t.protectedReads].flatMap (be 4)

/-- The counters of group `g`: lines 0 to 6, the sheet port 7, the booklet register 8, the office link 9 (R193). -/
def State.groupBytes (s : State) (g : Nat) : List Byte :=
  match g with
  | 7 => s.intake.stats.bytes
  | 8 => s.bookletStats.bytes
  | 9 => s.office.stats.bytes
  | l => (s.line l).stats.bytes

/-- The counters of group `g` set to 0 (R193). -/
def State.clearGroup (s : State) (g : Nat) : State :=
  match g with
  | 7 => s.onIntake fun t => { t with stats := ⟨0, 0, 0, 0, 0, 0, 0⟩ }
  | 8 => { s with bookletStats := ⟨0, 0, 0⟩ }
  | 9 => s.onOffice fun o => { o with stats := ⟨0, 0, 0, 0, 0⟩ }
  | l => s.onStats l fun _ => LineStats.zero

/-- The groups of statistics (R193). -/
def statsGroups : List Nat := List.range 10

/-- READ_STATS (R193). -/
def State.readStats (s : State) (g : Nat) (clear : Bool) : Answer :=
  if 9 < g then s.refuse .range else ⟨.ok, s.groupBytes g, if clear then s.clearGroup g else s⟩

/-- STATS_CLEAR (R193). -/
def State.statsClear (s : State) : Answer := (statsGroups.foldl State.clearGroup s).done

/-! ## Results (R172, R173, R176, 12.5) -/

/-- A byte whose bits are the choices given, bit 0 first. -/
def bitsOf : List Bool → Nat
  | [] => 0
  | b :: bs => (if b then 1 else 0) + 2 * bitsOf bs

/-- The score fields of a record (12.5); the unclear list takes sixteen places. -/
def Score.bytes (x : Score) : List Byte :=
  b1 x.generation ++ be 2 x.final ++ be 2 x.maximum ++ be 2 x.perMille ++ b1 x.correct ++ b1 x.wrong ++ b1 x.multiple ++
    b1 x.blank ++ b1 x.unclear ++ b1 x.void ++ b1 x.unclearList.length ++
    (x.unclearList.flatMap b1 ++ List.replicate 16 0#8).take 16

/-- A result record in its 52 bytes (12.5). -/
def ResultRecord.bytes (r : ResultRecord) : List Byte :=
  be 4 r.number ++ be 2 r.sheet ++ be 3 r.time ++ b1 r.verdict.code ++ b1 r.status.code ++
    b1 (bitsOf [r.late, r.score.any Score.clamped, r.score.any Score.noMax, r.score.any Score.truncated]) ++
    b1 (bitsOf [r.channel.isSome, r.id.isSome, r.slot.isSome, r.seat.isSome, r.score.isSome]) ++
    b1 (r.channel.getD 0) ++ packed 4 (r.id.getD 0) ++ be 2 (r.slot.getD 0) ++ be 2 (r.seat.getD 0) ++
    ((r.score.map Score.bytes).getD (List.replicate 30 0#8))

/-- READ_RESULTS (R172). -/
def State.readResults (s : State) (start most : Nat) : Answer :=
  let found := s.log.read start most
  if most = 0 then s.refuse .range
  else if 4 < most then s.refuse .tooLong
  else ⟨.ok, be 2 s.log.records.length ++ be 4 s.log.next ++ b1 found.length ++ found.flatMap ResultRecord.bytes, s⟩

/-- RELEASE_RESULTS (R173, R54). -/
def State.releaseResults (s : State) (upto : Nat) : Answer :=
  let t := s.onLog fun g => g.release upto
  ⟨.ok, be 2 (s.log.records.length - t.log.records.length) ++ be 2 t.log.records.length, t.testGates⟩

/-- READ_HISTOGRAM (R176). -/
def State.readHistogram (s : State) (c : Nat) : Answer :=
  if 15 < c then s.refuse .range
  else ⟨.ok, b1 (s.chan c).state.code ++
    (List.range 20).flatMap (fun b => be 2 (tabGet 0 (s.chan c).histogram b)), s⟩

/-! ## Desk messages (R185) -/

/-- The seats OCCUPIED by an entry of channel `c`, ascending (R185). -/
def State.seatedOf (s : State) (c : Nat) : List Nat :=
  (s.seats.filter fun p => match p.2.occ with
    | .occupied k => (s.entry k).any fun e => decide (e.channel = c)
    | _ => false).map Prod.fst

/-- The line and address of each note a target calls for, or the refusal (R185). -/
def State.messageTargets (s : State) : DeskTarget → Except Code (List (Nat × Nat))
  | .seat i =>
    if 383 < i then .error .range
    else if (s.seat i).configured = false then .error .notFound
    else .ok [(seatLine i, seatAddr i)]
  | .channel c => if 15 < c then .error .range else .ok ((s.seatedOf c).map fun i => (seatLine i, seatAddr i))
  | .line l => if 6 < l then .error .range else .ok [(l, 0)]
  | .hall => .ok (lineNumbers.map fun l => (l, 0))

/-- One note of a message queued, with the counts of notes queued and dropped (R185). -/
def queueOne (n : NoteContent) (acc : State × Nat × Nat) (p : Nat × Nat) : State × Nat × Nat :=
  let taken := (acc.1.line p.1).takesNote
  (acc.1.queueNote p.1 p.2 n, if taken then acc.2.1 + 1 else acc.2.1, if taken then acc.2.2 else acc.2.2 + 1)

/-- DESK_MESSAGE (R185): the message index is tested before the target (DESIGN CHOICE, log entry 33: R185 gives the two
refusals no order). -/
def State.deskMessage (s : State) (target : DeskTarget) (message : Nat) : Answer :=
  if 63 < message then s.refuse .range
  else match s.messageTargets target with
    | .error c => s.refuse c
    | .ok notes =>
      let r := notes.foldl (queueOne (.message (s.message message))) (s, 0, 0)
      ⟨.ok, be 2 r.2.1 ++ be 2 r.2.2, r.1⟩

/-! ## Commands on a channel -/

/-- CHANNEL_LOAD (R35). -/
def State.channelLoad (s : State) (c : Nat) : Answer :=
  s.unless (if 15 < c then some .range else s.loadRefusal c) ((s.onChan c Channel.atLoad).enterPhase c .loaded)

/-- CHANNEL_OPEN (R38). -/
def State.channelOpen (s : State) (c : Nat) : Answer :=
  if 15 < c then s.refuse .range
  else if (s.chan c).state ≠ .loaded then s.refuse .wrongPhase
  else match s.conflictSlot c with
    | some k => ⟨.conflict, be 2 k, s⟩
    | none => (s.enterPhase c .opened).done

/-- CHANNEL_START (R39). -/
def State.channelStart (s : State) (c : Nat) : Answer :=
  s.unless (if 15 < c then some .range else if (s.chan c).state ≠ .opened then some .wrongPhase else none)
    (s.startChannel c)

/-- CHANNEL_HOLD (`h` true) and CHANNEL_RESUME (R46). -/
def State.channelHold (s : State) (c : Nat) (h : Bool) : Answer :=
  s.unless (if 15 < c then some .range else if (s.chan c).state.isActive then none else some .wrongPhase) (s.setHold c h)

/-- The check of an amendment's channel (R47, R48). -/
def State.amendRefusal (s : State) (c : Nat) : Option Code :=
  if 15 < c then some .range
  else match (s.chan c).state with
    | .reading | .writing => none
    | _ => some .wrongPhase

/-- OK, or CLAMPED when the value taken differs from the value asked (R47, R48). -/
def clampCode (asked taken : Nat) : Code := if taken = asked then .ok else .clamped

/-- AMEND_NOW (R47). -/
def State.amendNow (s : State) (c v : Nat) : Answer :=
  match s.amendRefusal c with
  | some x => s.refuse x
  | none =>
    let e := (s.chan c).writeElapsed
    let w := amended (amendLength v) e
    if tooLate e then s.refuse .tooLate else ⟨clampCode v w, be 2 w, s.amend c (amendLength v) e⟩

/-- AMEND_AT_MINUTE (R48). -/
def State.amendAtMinute (s : State) (c v : Nat) : Answer :=
  match s.amendRefusal c with
  | some x => s.refuse x
  | none => ⟨clampCode v (amendLength v), [],
      s.onChan c fun ch => { ch with amendment := some ⟨amendLength v, ch.writeElapsed⟩ }⟩

/-- CHANNEL_CLOSE (R52). -/
def State.channelClose (s : State) (c : Nat) : Answer :=
  if 15 < c then s.refuse .range
  else if (s.chan c).state ≠ .collecting then s.refuse .wrongPhase
  else ⟨.ok, be 2 (s.slotsIn c fun st => decide (st = .finished) || decide (st = .timeUp)).length, s.closeChannel c⟩

/-- CHANNEL_TEARDOWN (R53). -/
def State.channelTeardown (s : State) (c : Nat) : Answer :=
  if 15 < c then s.refuse .range
  else match (s.chan c).state with
    | .loaded => (s.freeChannel c).done
    | .reconciled => ((s.enterPhase c .releasing).testGate c).done
    | _ => s.refuse .wrongPhase

/-- KEY_COMMIT (R155). -/
def State.keyCommit (s : State) (c : Nat) : Answer :=
  s.unless
    (if 15 < c then some .range
      else if (s.chan c).state = .free then some .wrongPhase
      else if (s.chan c).committing then some .busy
      else none)
    (s.onChan c fun ch => { ch with stage := if s.scoringResolved c then .pending else .running 0 })

/-! ## Commands on the hall, a candidate, a desk, a line -/

/-- HALL_HOLD (`h` true) and HALL_RESUME (R27, R28). -/
def State.hallHold (s : State) (h : Bool) : Answer :=
  (s.changeHold .office fun t => { t with officeHold := h }).done

/-- HALL_TIME_SET (R25). -/
def State.hallTimeSet (s : State) (v : Nat) : Answer :=
  s.unless (if Config.lastHallSecond < v then some .range else none) (s.onTime fun t => { t with hallTime := v })

/-- RESEAT (R92, R93). -/
def State.reseat (s : State) (k i : Nat) : Answer :=
  match s.reseatRefusal k i, s.entry k with
  | some c, _ => s.refuse c
  | none, some e => (s.moveTo k i e).done
  | none, none => s.refuse .notFound

/-- The checks of CANDIDATE_FINISH (R69). -/
def State.finishRefusal (s : State) (k : Nat) : Option Code :=
  if 511 < k then some .range
  else match s.entry k with
    | none => some .notFound
    | some e => if e.state.isWriting then none else some .wrongPhase

/-- CANDIDATE_FINISH (R69). -/
def State.candidateFinish (s : State) (k : Nat) : Answer := s.unless (s.finishRefusal k) (s.depart k .finished)

/-- DESK_CLEAR (R117). -/
def State.deskClear (s : State) (l a : Nat) : Answer :=
  s.unless (s.clearRefusal l a) (s.onAddr l a fun r => r.become .absent)

/-- LINE_QUIET (R103). -/
def State.lineQuiet (s : State) (l : Nat) : Answer :=
  s.unless (s.quietRefusal l) (if (s.line l).state = .quiet then s else s.onLine l Line.goQuiet)

/-- LINE_WAKE (R105). -/
def State.lineWake (s : State) (l : Nat) : Answer := s.unless (s.wakeRefusal l) (s.onLine l Line.goWaking)

/-- LINE_TEST (R114). -/
def State.lineTest (s : State) (l : Nat) : Answer := s.unless (s.testRefusal l) (s.onLine l Line.goTesting)

/-- LINE_RESET (R105). -/
def State.lineReset (s : State) (l : Nat) : Answer :=
  s.unless (if 6 < l then some .range else none) (s.onLine l Line.restart)

/-! ## The resets (R194, R195) -/

/-- A channel at RESET_SITTINGS (R56). -/
def Channel.ended (c : Channel) : Channel := { c.atLoad with state := .free }

/-- A seat at RESET_SITTINGS (R8, R57, R95). -/
def Seat.ended (r : Seat) : Seat := { r with occ := .free, closing := .none, lost := none }

/-- The log at RESET_SITTINGS (R169). -/
def ResultLog.ended (g : ResultLog) : ResultLog := { g with records := [], armed := true }

/-- RESET_SITTINGS's effects on every owner but the line controller (R194). -/
def State.endSittings (s : State) : State :=
  { s with
    seats := tabMap Seat.blank Seat.ended s.seats
    roster := []
    warnings := []
    channels := tabMap Channel.blank Channel.ended s.channels
    booklets := []
    intake := s.intake.abandon
    log := s.log.ended }

/-- RESET_SITTINGS (R194, R122). -/
def State.resetSittings (s : State) : Answer := (lineNumbers.foldl State.blankLine s.endSittings).done

/-- RESET_ALL as it is taken: the reset follows when its response has left (R195). -/
def State.resetAll (s : State) : Answer := (s.onOffice fun o => { o with resetPending := true }).done

end Sys2Proof.Machine
end

