-- ==== Sys2Proof/Machine/Operands.lean ====
section
/-! DEFINITION. The operands of office-link requests read from their payload bytes (R196, R198, R199), each handed to
the owner of the request. -/

namespace Sys2Proof.Machine

/-! ## Fields -/

/-- A field read from the front of a payload: its value and the bytes left; none when the payload is too short. -/
abbrev Parse (α : Type) := List Byte → Option (α × List Byte)

/-- A number of `n` bytes. -/
def pNat (n : Nat) : Parse Nat := fun bs => if n ≤ bs.length then some (beVal (bs.take n), bs.drop n) else none

/-- A number in `n` bytes of packed digits; a digit above 9 gives a number out of every range (R196, R198). -/
def pPacked (n : Nat) : Parse Nat := fun bs =>
  if n ≤ bs.length then some ((unpack (bs.take n)).getD (100 ^ n), bs.drop n) else none

/-- An optional field (R199). -/
def pOpt {α : Type} (p : Parse α) : Parse (Option α) := fun bs =>
  match bs with
  | [] => none
  | b :: rest =>
    if b = 0#8 then some (none, rest)
    else if b = 1#8 then (p rest).map fun r => (some r.1, r.2)
    else none

/-- `n` fields of one kind. -/
def pMany {α : Type} (n : Nat) (p : Parse α) : Parse (List α) := fun bs =>
  match n with
  | 0 => some ([], bs)
  | n + 1 => do
    let (v, bs) ← p bs
    let (vs, bs) ← pMany n p bs
    return (v :: vs, bs)

/-- A list with its length in the byte before it (R199). -/
def pList {α : Type} (p : Parse α) : Parse (List α) := fun bs => do
  let (n, bs) ← pNat 1 bs
  pMany n p bs

/-- `n` entries that fill the payload exactly. -/
def entriesIn {α : Type} (n : Nat) (p : Parse α) (bs : List Byte) : Option (List α) :=
  match pMany n p bs with
  | some (vs, []) => some vs
  | _ => none

/-! ## Table entries -/

/-- A SEATS entry: the five written fields (R1). -/
def pSeat : Parse SeatWrite := fun bs => do
  let (configured, bs) ← pNat 1 bs
  let (row, bs) ← pNat 1 bs
  let (column, bs) ← pNat 1 bs
  let (accessible, bs) ← pNat 1 bs
  let (service, bs) ← pNat 1 bs
  return (⟨configured, row, column, accessible, service⟩, bs)

/-- A STATIONS entry (R118). -/
def pStation : Parse StationWrite := fun bs => do
  let (configured, bs) ← pNat 1 bs
  let (role, bs) ← pNat 1 bs
  return (⟨configured, role⟩, bs)

/-- A ROSTER entry: in use yes with its four fields, or in use no (R13). -/
def pRoster : Parse RosterWrite := fun bs => do
  let (used, bs) ← pOpt (fun bs => do
    let (id, bs) ← pPacked 4 bs
    let (channel, bs) ← pNat 1 bs
    let (cls, bs) ← pNat 1 bs
    let (fixed, bs) ← pOpt (pNat 2) bs
    return (RosterWrite.use id channel cls fixed, bs)) bs
  return (used.getD .free, bs)

/-- A zone rectangle (R32). -/
def pRect : Parse Rect := fun bs => do
  let (r0, bs) ← pNat 1 bs
  let (r1, bs) ← pNat 1 bs
  let (c0, bs) ← pNat 1 bs
  let (c1, bs) ← pNat 1 bs
  return (⟨r0, r1, c0, c1⟩, bs)

/-- The configuration fields of a CHANNELS entry (R32). -/
def pChannel : Parse ChannelWrite := fun bs => do
  let (paper, bs) ← pPacked 2 bs
  let (form, bs) ← pNat 1 bs
  let (profile, bs) ← pNat 1 bs
  let (zones, bs) ← pList pRect bs
  let (fill, bs) ← pNat 1 bs
  let (spacing, bs) ← pNat 1 bs
  let (relax, bs) ← pNat 1 bs
  let (admission, bs) ← pOpt (pNat 3) bs
  let (start, bs) ← pOpt (pNat 3) bs
  let (reading, bs) ← pNat 2 bs
  let (writing, bs) ← pNat 2 bs
  let (late, bs) ← pNat 2 bs
  let (barStart, bs) ← pNat 2 bs
  let (barEnd, bs) ← pNat 2 bs
  let (warnings, bs) ← pList (pNat 2) bs
  return (⟨paper, form, profile, zones, fill, spacing, relax, admission, start, reading, writing, late, barStart, barEnd,
    warnings⟩, bs)

/-- The runtime fields that a CHANNELS entry may carry, which are ignored (R33, R181). -/
def pRuntime : Parse Unit := fun bs => do
  let (_, bs) ← pNat 13 bs
  let (_, bs) ← pOpt (pNat 2) bs
  let (_, bs) ← pNat 5 bs
  return ((), bs)

/-- A CHANNELS entry with its runtime fields. -/
def pChannelWhole : Parse ChannelWrite := fun bs => do
  let (w, bs) ← pChannel bs
  let (_, bs) ← pRuntime bs
  return (w, bs)

/-- A CLASSES entry (R9). -/
def pClass : Parse ClassWrite := fun bs => do
  let (percent, bs) ← pNat 1 bs
  let (budget, bs) ← pNat 2 bs
  let (accessible, bs) ← pNat 1 bs
  return (⟨percent, budget, accessible⟩, bs)

/-- A FORMS entry (R150). -/
def pForm : Parse FormWrite := fun bs => do
  let (defined, bs) ← pNat 1 bs
  let (questions, bs) ← pNat 1 bs
  let (options, bs) ← pNat 1 bs
  let (grid, bs) ← pNat 1 bs
  return (⟨defined, questions, options, grid⟩, bs)

/-- A PROFILES entry (R151). -/
def pProfile : Parse ProfileWrite := fun bs => do
  let (defined, bs) ← pNat 1 bs
  let (blank, bs) ← pNat 1 bs
  let (mark, bs) ← pNat 1 bs
  let (margin, bs) ← pNat 1 bs
  let (handling, bs) ← pNat 1 bs
  let (refer, bs) ← pNat 1 bs
  let (span, bs) ← pNat 1 bs
  return (⟨defined, blank, mark, margin, handling, refer, span⟩, bs)

/-- A KEYS entry (R152). -/
def pKey : Parse KeyWrite := fun bs => do
  let (accepted, bs) ← pList (pNat 1) bs
  let (weight, bs) ← pNat 1 bs
  let (penalty, bs) ← pNat 1 bs
  let (mode, bs) ← pNat 1 bs
  return (⟨accepted, weight, penalty, mode⟩, bs)

/-- One character of a text. -/
def pByte : Parse Byte := fun bs =>
  match bs with
  | [] => none
  | b :: rest => some (b, rest)

/-- A SIGNALS entry; the channel number stands with the source CHANNEL alone (R29). -/
def pSignal : Parse SignalWrite := fun bs => do
  let (source, bs) ← pNat 1 bs
  let (channel, bs) ← if source = 1 then pNat 1 bs else some (0, bs)
  let (condition, bs) ← pNat 1 bs
  let (mode, bs) ← pNat 1 bs
  let (polarity, bs) ← pNat 1 bs
  return (⟨source, channel, condition, mode, polarity⟩, bs)

/-- The written fields of the HALL entry (R183). -/
def pHall : Parse HallWrite := fun bs => do
  let (seatPoll, bs) ← pMany 6 (pNat 2) bs
  let (stationPoll, bs) ← pNat 2 bs
  let (seatingLimit, bs) ← pNat 2 bs
  let (clearingTime, bs) ← pNat 2 bs
  let (verdictDeadline, bs) ← pNat 2 bs
  let (highMark, bs) ← pNat 1 bs
  let (masks, bs) ← pMany 16 (pNat 1) bs
  return (⟨seatPoll, stationPoll, seatingLimit, clearingTime, verdictDeadline, highMark, masks⟩, bs)

/-- The HALL entry with its two read-only fields, which are ignored (R181). -/
def pHallWhole : Parse HallWrite := fun bs => do
  let (w, bs) ← pHall bs
  let (_, bs) ← pNat 7 bs
  return (w, bs)

/-! ## Table requests -/

/-- A write whose entries have been read from the payload, or RANGE for a payload of the wrong size (R178). -/
def State.withEntries {α : Type} (s : State) (entries : Option (List α)) (f : List α → Answer) : Answer :=
  match entries with
  | some ws => f ws
  | none => s.refuse .range

/-- The table's own write over the entries of the payload. -/
def State.writeEntries (s : State) (t first n : Nat) (bs : List Byte) : Answer :=
  match t with
  | 1 => s.withEntries ((entriesIn n pHallWhole bs).or (entriesIn n pHall bs)) (s.writeHall first)
  | 2 => s.withEntries (entriesIn n pSeat bs) (s.writeSeats first)
  | 3 => s.withEntries (entriesIn n pStation bs) (s.writeStations first)
  | 4 => s.withEntries (entriesIn n pRoster bs) (s.writeRoster first)
  | 5 => s.withEntries ((entriesIn n pChannelWhole bs).or (entriesIn n pChannel bs)) (s.writeChannels first)
  | 6 => s.withEntries (entriesIn n pClass bs) (s.writeClasses first)
  | 7 => s.withEntries (entriesIn n pForm bs) (s.writeForms first)
  | 8 => s.withEntries (entriesIn n pProfile bs) (s.writeProfiles first)
  | 9 => s.withEntries (entriesIn n pKey bs) (s.writeKeys first)
  | 10 => s.withEntries (entriesIn n (pList pByte) bs) (s.writeMessages first)
  | 11 => s.withEntries (entriesIn n pSignal bs) (s.writeSignals first)
  | _ => s.refuse .unknownTable

/-- WRITE_TABLE: the checks of R181 in order, then the table's own write. -/
def State.write (s : State) (t first n : Nat) (bs : List Byte) : Answer :=
  match (if t = 12 then none else tableSpan t) with
  | none => s.refuse .unknownTable
  | some (lo, hi) =>
    match writeRefusal lo hi first n with
    | some c => s.refuse c
    | none => s.writeEntries t first n bs

/-! ## Requests and commands by their numbers (12.4) -/

/-- The arguments read whole, or RANGE for arguments of the wrong size (11.4, R178). -/
def State.withArgs {α : Type} (s : State) (p : Parse α) (bs : List Byte) (f : α → Answer) : Answer :=
  match p bs with
  | some (v, []) => f v
  | _ => s.refuse .range

/-- Two fields one after the other. -/
def pPair {α β : Type} (p : Parse α) (q : Parse β) : Parse (α × β) := fun bs => do
  let (a, bs) ← p bs
  let (b, bs) ← q bs
  return ((a, b), bs)

/-- No field. -/
def pNothing : Parse Unit := fun bs => some ((), bs)

/-- A COMMAND by its number, with its arguments (11.4, 12.4). -/
def State.command (s : State) (n : Nat) (bs : List Byte) : Answer :=
  match n with
  | 1 => s.withArgs (pNat 1) bs s.channelLoad
  | 2 => s.withArgs (pNat 1) bs s.channelOpen
  | 3 => s.withArgs (pNat 1) bs s.channelStart
  | 4 => s.withArgs (pNat 1) bs fun c => s.channelHold c true
  | 5 => s.withArgs (pNat 1) bs fun c => s.channelHold c false
  | 6 => s.withArgs (pPair (pNat 1) (pNat 2)) bs fun a => s.amendNow a.1 a.2
  | 7 => s.withArgs (pPair (pNat 1) (pNat 2)) bs fun a => s.amendAtMinute a.1 a.2
  | 8 => s.withArgs (pNat 1) bs s.channelClose
  | 9 => s.withArgs (pNat 1) bs s.channelTeardown
  | 10 => s.withArgs (pNat 1) bs s.keyCommit
  | 11 => s.withArgs pNothing bs fun _ => s.hallHold true
  | 12 => s.withArgs pNothing bs fun _ => s.hallHold false
  | 13 => s.withArgs (pNat 3) bs s.hallTimeSet
  | 14 => s.withArgs (pPair (pNat 2) (pNat 2)) bs fun a => s.reseat a.1 a.2
  | 15 => s.withArgs (pNat 2) bs s.candidateFinish
  | 16 => s.withArgs (pPair (pNat 1) (pNat 1)) bs fun a => s.deskClear a.1 a.2
  | 17 => s.withArgs (pNat 1) bs s.lineQuiet
  | 18 => s.withArgs (pNat 1) bs s.lineWake
  | 19 => s.withArgs (pNat 1) bs s.lineTest
  | 20 => s.withArgs (pNat 1) bs s.lineReset
  | 21 => s.withArgs pNothing bs fun _ => s.statsClear
  | 22 => s.withArgs pNothing bs fun _ => s.resetSittings
  | 23 => s.withArgs pNothing bs fun _ => s.resetAll
  | _ => s.refuse .unknownCommand

/-- The target of a desk message: SEAT 0, CHANNEL 1, LINE 2, HALL 3, and its argument (R185, R199). -/
def pTarget : Parse DeskTarget := fun bs => do
  let (t, bs) ← pNat 1 bs
  match t with
  | 0 => (pNat 2 bs).map fun r => (.seat r.1, r.2)
  | 1 => (pNat 1 bs).map fun r => (.channel r.1, r.2)
  | 2 => (pNat 1 bs).map fun r => (.line r.1, r.2)
  | 3 => some (.hall, bs)
  | _ => none

/-- A request by its kind, with its payload (R178, 12.4). A payload of the wrong size is refused RANGE before the request's
own checks, those of a WRITE_TABLE's entries excepted, which follow R181's first three (DESIGN CHOICE, log entry 33). -/
def State.serve (s : State) (kind : Nat) (bs : List Byte) : Answer :=
  match kind with
  | 0x01 => s.withArgs (pPair (pNat 1) (pPair (pNat 2) (pNat 1))) bs fun a => s.read a.1 a.2.1 a.2.2
  | 0x02 =>
    match pPair (pNat 1) (pPair (pNat 2) (pNat 1)) bs with
    | some (a, rest) => s.write a.1 a.2.1 a.2.2 rest
    | none => s.refuse .range
  | 0x03 =>
    match pNat 1 bs with
    | some (n, rest) => s.command n rest
    | none => s.refuse .range
  | 0x04 => s.withArgs pNothing bs fun _ => s.status
  | 0x05 => s.withArgs pNothing bs fun _ => s.readFlags
  | 0x06 => s.withArgs (pPair (pNat 1) (pNat 1)) bs fun a =>
      if 1 < a.2 then s.refuse .range else s.readStats a.1 (decide (a.2 = 1))
  | 0x07 => s.withArgs (pPair (pNat 4) (pNat 1)) bs fun a => s.readResults a.1 a.2
  | 0x08 => s.withArgs (pNat 4) bs s.releaseResults
  | 0x09 => s.withArgs (pNat 1) bs s.readHistogram
  | 0x0A => s.withArgs (pPair pTarget (pNat 1)) bs fun a => s.deskMessage a.1 a.2
  | _ => s.refuse .unknownCommand

end Sys2Proof.Machine
end

