-- ==== Sys2Proof/Machine/Office.lean ====
section
/-! DEFINITION. The office link (11.1): frames that end, requests taken, frames sent, and the reset that follows
RESET_ALL. -/

namespace Sys2Proof.Machine

/-- One more bad frame (R177, R178). -/
def OfficeStats.bad (t : OfficeStats) : OfficeStats := { t with badFrames := statUp t.badFrames }

/-- A discarded frame or request counted (R177, R178). -/
def State.discard (s : State) : State := s.onOffice fun o => { o with stats := o.stats.bad }

/-- One more good frame (R177). -/
def State.countFrame (s : State) : State :=
  s.onOffice fun o => { o with stats := { o.stats with framesIn := statUp o.stats.framesIn } }

/-- The response of an answer joins the tail of the response queue (R178). -/
def State.respond (s : State) (r : Response) : State := s.onOffice fun o => { o with responses := o.responses ++ [r] }

/-- A request whose frame has ended whole with a good CRC (R177, R178): until OL_RX has been quiet after a reset no frame
begins, and none ends (R177); after a RESET_ALL it is discarded uncounted (R195); at a full response queue it is
discarded and counted; else its answer is queued. -/
def State.takeRequest (s : State) (tag kind : Byte) (f : State → Answer) : State :=
  if s.office.awaitQuiet ∨ s.office.resetPending then s
  else
    let t := s.countFrame
    if Config.responseQueueSize ≤ t.office.responses.length then t.discard
    else (f t).state.respond ⟨tag, kind, (f t).code, (f t).payload⟩

/-- A COMMAND request taken. -/
def State.takeCommand (s : State) (tag : Byte) (f : State → Answer) : State := s.takeRequest tag 0x03#8 f

/-- A WRITE_TABLE request taken. -/
def State.takeWrite (s : State) (tag : Byte) (f : State → Answer) : State := s.takeRequest tag 0x02#8 f

/-- A request of any kind with its payload bytes (R178). -/
def State.takeRaw (s : State) (tag kind : Byte) (payload : List Byte) : State :=
  s.takeRequest tag kind fun t => t.serve kind.toNat payload

/-- A frame on OL_RX reaches its end, `bytes` being those after its start byte (R177). Until OL_RX has been quiet no
frame begins, and bytes that do not reach the frame's end end nothing. -/
def State.officeEnd (s : State) (bytes : List Byte) : State :=
  if s.office.awaitQuiet ∨ bytes.length < 2 then s
  else
    let n := beVal (bytes.take 2)
    if n < 2 ∨ 1024 < n then s.discard
    else if bytes.length < n + 4 then s
    else if crcMatches (bytes.take (n + 2)) ((bytes.drop (n + 2)).take 2) then
      match bytes.drop 2 with
      | kind :: tag :: rest => s.takeRaw tag kind (rest.take (n - 2))
      | _ => s
    else s.discard

/-- A pause of 20 ms inside a frame on OL_RX ends it short (R177). -/
def State.officeGap (s : State) : State := if s.office.awaitQuiet then s else s.discard

/-- OL_RX has been quiet for 20 ms after a reset (R177). -/
def State.officeQuiet (s : State) : State := s.onOffice fun o => { o with awaitQuiet := false }

/-- The part at power-on, the waiting commands kept (R192, R195). -/
def State.powerUp (s : State) : State := { State.atPowerOn with pending := s.pending }

/-- The last byte of a frame has left OL_TX (R179, R190); after the response to RESET_ALL the part is reset (R195). -/
def State.officeSent (s : State) : State :=
  match s.office.tx with
  | .idle => s
  | .notice => s.onOffice fun o =>
      { o with
        tx := .idle
        notices := o.notices.tail
        stats := { o.stats with noticesSent := statUp o.stats.noticesSent } }
  | .response =>
    let t := s.onOffice fun o => { o with tx := .idle, responses := o.responses.tail }
    if t.office.resetPending ∧ t.office.responses = [] then t.powerUp else t

end Sys2Proof.Machine
end

