-- ==== Sys2Proof/Machine/Settle.lean ====
section
/-! DEFINITION. What the part does at once after every event: free lines go on, READY is reached, free transmitters
take their next frame, SHEET_RDY is driven. -/

namespace Sys2Proof.Machine

/-- The two conditions of READY (R192). -/
def State.readyNow (s : State) : Bool :=
  decide (s.time.refState ≠ .acquiring) && lineNumbers.all fun l => (s.line l).swept

/-- The part becomes READY at the first moment both conditions hold (R192). -/
def State.becomeReady (s : State) : State := s.onOffice fun o => { o with ready := o.ready || s.readyNow }

/-- OL_TX takes the head of the response queue, else of the notice queue, when it is free (R179). -/
def Office.startTx (o : Office) : Office :=
  if o.tx = .idle then
    if o.responses ≠ [] then { o with tx := .response } else if o.notices ≠ [] then { o with tx := .notice } else o
  else o

/-- SHEET_RDY is asserted while the part is READY and a slot is EMPTY (R138). -/
def State.driveReady (s : State) : State :=
  s.onIntake fun t => { t with ready := s.office.ready && t.emptySlot.isSome }

/-- Everything that follows at once (R99, R108, R138, R145, R179, R192). -/
def State.settle (s : State) : State :=
  ((s.runLines.becomeReady.onOffice Office.startTx).onIntake Intake.startTx).driveReady

end Sys2Proof.Machine
end

