-- ==== Sys2Proof/Machine/PortEvents.lean ====
section
/-! DEFINITION. Events of the lines, the sheet port, the marking unit and the office link: one meaning for each row. -/

namespace Sys2Proof.Machine

/-- INTERVAL_END (R106): the interval timer has reached its length. -/
def execIntervalEnd (l : Fin 7) (s : State) : Host.Outcome State Fault Refusal :=
  .next (if s.intervalDue l then s.endInterval l else s).settle

/-- LINE_REPLY_RECEIVED (R99): a reply within the window, `bytes` those after its start byte. -/
def execLineReplyReceived (l : Fin 7) (bytes : List Byte) (s : State) : Host.Outcome State Fault Refusal :=
  .next (s.lineReply l bytes).settle

/-- REPLY_WINDOW_CLOSE (R99). -/
def execReplyWindowClose (l : Fin 7) (s : State) : Host.Outcome State Fault Refusal := .next (s.windowClose l).settle

/-- BROADCAST_END (R99). -/
def execBroadcastEnd (l : Fin 7) (s : State) : Host.Outcome State Fault Refusal := .next (s.broadcastEnd l).settle

/-- SHEET_FRAME_START (R139). -/
def execSheetFrameStart (s : State) : Host.Outcome State Fault Refusal := .next s.sheetStart.settle

/-- SHEET_FRAME_END (R140). -/
def execSheetFrameEnd (bytes : List Byte) (s : State) : Host.Outcome State Fault Refusal :=
  .next (s.sheetEnd bytes).settle

/-- SHEET_GAP_LIMIT (R141). -/
def execSheetGapLimit (bytes : List Byte) (s : State) : Host.Outcome State Fault Refusal :=
  .next (s.sheetGap bytes).settle

/-- OVERRUN_FRAME_END (R139). -/
def execOverrunFrameEnd (bytes : List Byte) (s : State) : Host.Outcome State Fault Refusal :=
  .next (s.endOverrun bytes).settle

/-- SHEET_CHANNEL_RESOLVED (R159): the marking unit has made its checks up to number `reach`, check 7 among them. -/
def execSheetChannelResolved (reach : Nat) (s : State) : Host.Outcome State Fault Refusal :=
  .next (s.advance (bring 7 12 reach)).settle

/-- SHEET_COMPLETION (R144). -/
def execSheetCompletion (s : State) : Host.Outcome State Fault Refusal := .next s.complete.settle

/-- KEY_COMMIT_END (R156): the count stands at 20. -/
def execKeyCommitEnd (c : Nat) (s : State) : Host.Outcome State Fault Refusal :=
  .next (match (s.chan c).stage with
    | .running n => if 20 ≤ n then s.endCommit c else s
    | _ => s).settle

/-- VERDICT_SENT (R145). -/
def execVerdictSent (s : State) : Host.Outcome State Fault Refusal := .next (s.onIntake Intake.sent).settle

/-- OFFICE_FRAME_END (R177). -/
def execOfficeFrameEnd (bytes : List Byte) (s : State) : Host.Outcome State Fault Refusal :=
  .next (s.officeEnd bytes).settle

/-- OFFICE_GAP_LIMIT (R177). -/
def execOfficeGapLimit (s : State) : Host.Outcome State Fault Refusal := .next s.officeGap.settle

/-- OFFICE_FRAME_SENT (R179, R195). -/
def execOfficeFrameSent (s : State) : Host.Outcome State Fault Refusal := .next s.officeSent.settle

/-- SHEET_PORT_QUIET_REACHED (R136). -/
def execSheetPortQuietReached (s : State) : Host.Outcome State Fault Refusal := .next s.sheetQuiet.settle

/-- OFFICE_LINK_QUIET_REACHED (R177). -/
def execOfficeLinkQuietReached (s : State) : Host.Outcome State Fault Refusal := .next s.officeQuiet.settle

/-- ABANDONED_FRAME_END (R148). -/
def execAbandonedFrameEnd (s : State) : Host.Outcome State Fault Refusal := .next s.endAbandoned.settle

end Sys2Proof.Machine
end

