-- ==== Sys2Proof/Machine/RequestRows.lean ====
section
/-! DEFINITION. The other requests and the commands taken (11.3 to 11.8): one meaning for each row. -/

namespace Sys2Proof.Machine

/-- READ_STATUS (R191). -/
def execReadStatus (tag : Byte) (s : State) : Host.Outcome State Fault Refusal :=
  .next (s.takeRequest tag 0x04#8 fun t => t.status).settle

/-- READ_FLAGS (R187). -/
def execReadFlags (tag : Byte) (s : State) : Host.Outcome State Fault Refusal :=
  .next (s.takeRequest tag 0x05#8 fun t => t.readFlags).settle

/-- READ_STATS (R193). -/
def execReadStats (tag : Byte) (group : Nat) (clear : Bool) (s : State) : Host.Outcome State Fault Refusal :=
  .next (s.takeRequest tag 0x06#8 fun t => t.readStats group clear).settle

/-- READ_RESULTS (R172). -/
def execReadResults (tag : Byte) (start most : Nat) (s : State) : Host.Outcome State Fault Refusal :=
  .next (s.takeRequest tag 0x07#8 fun t => t.readResults start most).settle

/-- RELEASE_RESULTS (R173). -/
def execReleaseResults (tag : Byte) (upto : Nat) (s : State) : Host.Outcome State Fault Refusal :=
  .next (s.takeRequest tag 0x08#8 fun t => t.releaseResults upto).settle

/-- READ_HISTOGRAM (R176). -/
def execReadHistogram (tag : Byte) (c : Nat) (s : State) : Host.Outcome State Fault Refusal :=
  .next (s.takeRequest tag 0x09#8 fun t => t.readHistogram c).settle

/-- DESK_MESSAGE (R185). -/
def execDeskMessage (tag : Byte) (target : DeskTarget) (message : Nat)
    (s : State) : Host.Outcome State Fault Refusal :=
  .next (s.takeRequest tag 0x0A#8 fun t => t.deskMessage target message).settle

/-- CHANNEL_LOAD (R35). -/
def execChannelLoad (tag : Byte) (c : Nat) (s : State) : Host.Outcome State Fault Refusal :=
  .next (s.takeCommand tag fun t => t.channelLoad c).settle

/-- CHANNEL_OPEN (R38). -/
def execChannelOpen (tag : Byte) (c : Nat) (s : State) : Host.Outcome State Fault Refusal :=
  .next (s.takeCommand tag fun t => t.channelOpen c).settle

/-- CHANNEL_START (R39). -/
def execChannelStart (tag : Byte) (c : Nat) (s : State) : Host.Outcome State Fault Refusal :=
  .next (s.takeCommand tag fun t => t.channelStart c).settle

/-- CHANNEL_HOLD (R46). -/
def execChannelHold (tag : Byte) (c : Nat) (s : State) : Host.Outcome State Fault Refusal :=
  .next (s.takeCommand tag fun t => t.channelHold c true).settle

/-- CHANNEL_RESUME (R46). -/
def execChannelResume (tag : Byte) (c : Nat) (s : State) : Host.Outcome State Fault Refusal :=
  .next (s.takeCommand tag fun t => t.channelHold c false).settle

/-- AMEND_NOW (R47). -/
def execAmendNow (tag : Byte) (c length : Nat) (s : State) : Host.Outcome State Fault Refusal :=
  .next (s.takeCommand tag fun t => t.amendNow c length).settle

/-- AMEND_AT_MINUTE (R48). -/
def execAmendAtMinute (tag : Byte) (c length : Nat) (s : State) : Host.Outcome State Fault Refusal :=
  .next (s.takeCommand tag fun t => t.amendAtMinute c length).settle

/-- CHANNEL_CLOSE (R52). -/
def execChannelClose (tag : Byte) (c : Nat) (s : State) : Host.Outcome State Fault Refusal :=
  .next (s.takeCommand tag fun t => t.channelClose c).settle

/-- CHANNEL_TEARDOWN (R53). -/
def execChannelTeardown (tag : Byte) (c : Nat) (s : State) : Host.Outcome State Fault Refusal :=
  .next (s.takeCommand tag fun t => t.channelTeardown c).settle

/-- KEY_COMMIT (R155). -/
def execKeyCommit (tag : Byte) (c : Nat) (s : State) : Host.Outcome State Fault Refusal :=
  .next (s.takeCommand tag fun t => t.keyCommit c).settle

/-- HALL_HOLD (R27). -/
def execHallHold (tag : Byte) (s : State) : Host.Outcome State Fault Refusal :=
  .next (s.takeCommand tag fun t => t.hallHold true).settle

/-- HALL_RESUME (R27). -/
def execHallResume (tag : Byte) (s : State) : Host.Outcome State Fault Refusal :=
  .next (s.takeCommand tag fun t => t.hallHold false).settle

/-- HALL_TIME_SET (R25). -/
def execHallTimeSet (tag : Byte) (value : Nat) (s : State) : Host.Outcome State Fault Refusal :=
  .next (s.takeCommand tag fun t => t.hallTimeSet value).settle

/-- RESEAT (R92, R93). -/
def execReseat (tag : Byte) (k i : Nat) (s : State) : Host.Outcome State Fault Refusal :=
  .next (s.takeCommand tag fun t => t.reseat k i).settle

/-- CANDIDATE_FINISH (R69). -/
def execCandidateFinish (tag : Byte) (k : Nat) (s : State) : Host.Outcome State Fault Refusal :=
  .next (s.takeCommand tag fun t => t.candidateFinish k).settle

/-- DESK_CLEAR (R117). -/
def execDeskClear (tag : Byte) (l a : Nat) (s : State) : Host.Outcome State Fault Refusal :=
  .next (s.takeCommand tag fun t => t.deskClear l a).settle

/-- LINE_QUIET (R103). -/
def execLineQuiet (tag : Byte) (l : Nat) (s : State) : Host.Outcome State Fault Refusal :=
  .next (s.takeCommand tag fun t => t.lineQuiet l).settle

/-- LINE_WAKE (R105). -/
def execLineWake (tag : Byte) (l : Nat) (s : State) : Host.Outcome State Fault Refusal :=
  .next (s.takeCommand tag fun t => t.lineWake l).settle

/-- LINE_TEST (R114). -/
def execLineTest (tag : Byte) (l : Nat) (s : State) : Host.Outcome State Fault Refusal :=
  .next (s.takeCommand tag fun t => t.lineTest l).settle

/-- LINE_RESET (R105). -/
def execLineReset (tag : Byte) (l : Nat) (s : State) : Host.Outcome State Fault Refusal :=
  .next (s.takeCommand tag fun t => t.lineReset l).settle

/-- STATS_CLEAR (R193). -/
def execStatsClear (tag : Byte) (s : State) : Host.Outcome State Fault Refusal :=
  .next (s.takeCommand tag fun t => t.statsClear).settle

/-- RESET_SITTINGS (R194). -/
def execResetSittings (tag : Byte) (s : State) : Host.Outcome State Fault Refusal :=
  .next (s.takeCommand tag fun t => t.resetSittings).settle

/-- RESET_ALL (R195). -/
def execResetAll (tag : Byte) (s : State) : Host.Outcome State Fault Refusal :=
  .next (s.takeCommand tag fun t => t.resetAll).settle

end Sys2Proof.Machine
end

