-- ==== Sys2Proof/Machine/TableRows.lean ====
section
/-! DEFINITION. Table requests taken (11.2): one meaning for each row. -/

namespace Sys2Proof.Machine

/-- A request of an undefined kind (R178); a defined kind is served as what it is. -/
def execUndefinedRequest (tag kind : Byte) (payload : List Byte) (s : State) : Host.Outcome State Fault Refusal :=
  .next (s.takeRaw tag kind payload).settle

/-- READ_TABLE (R180). -/
def execReadTable (tag : Byte) (table first count : Nat) (s : State) : Host.Outcome State Fault Refusal :=
  .next (s.takeRequest tag 0x01#8 fun t => t.read table first count).settle

/-- READ_TABLE of KEYS (R154). -/
def execReadKeys (tag : Byte) (first count : Nat) (s : State) : Host.Outcome State Fault Refusal :=
  .next (s.takeRequest tag 0x01#8 fun t => t.read 9 first count).settle

/-- WRITE_TABLE of any table, its entries as bytes (R181). -/
def execWriteTable (tag : Byte) (table first count : Nat) (payload : List Byte)
    (s : State) : Host.Outcome State Fault Refusal :=
  .next (s.takeWrite tag fun t => t.write table first count payload).settle

/-- WRITE_TABLE of HALL (R183). -/
def execWriteHall (tag : Byte) (first : Nat) (entries : List HallWrite)
    (s : State) : Host.Outcome State Fault Refusal :=
  .next (s.takeWrite tag fun t => t.writeHall first entries).settle

/-- WRITE_TABLE of SEATS (R7). -/
def execWriteSeats (tag : Byte) (first : Nat) (entries : List SeatWrite)
    (s : State) : Host.Outcome State Fault Refusal :=
  .next (s.takeWrite tag fun t => t.writeSeats first entries).settle

/-- WRITE_TABLE of STATIONS (R118). -/
def execWriteStations (tag : Byte) (first : Nat) (entries : List StationWrite)
    (s : State) : Host.Outcome State Fault Refusal :=
  .next (s.takeWrite tag fun t => t.writeStations first entries).settle

/-- WRITE_TABLE of ROSTER (R13). -/
def execWriteRoster (tag : Byte) (first : Nat) (entries : List RosterWrite)
    (s : State) : Host.Outcome State Fault Refusal :=
  .next (s.takeWrite tag fun t => t.writeRoster first entries).settle

/-- WRITE_TABLE of CHANNELS (R34). -/
def execWriteChannels (tag : Byte) (first : Nat) (entries : List ChannelWrite)
    (s : State) : Host.Outcome State Fault Refusal :=
  .next (s.takeWrite tag fun t => t.writeChannels first entries).settle

/-- WRITE_TABLE of CLASSES (R9). -/
def execWriteClasses (tag : Byte) (first : Nat) (entries : List ClassWrite)
    (s : State) : Host.Outcome State Fault Refusal :=
  .next (s.takeWrite tag fun t => t.writeClasses first entries).settle

/-- WRITE_TABLE of FORMS (R150). -/
def execWriteForms (tag : Byte) (first : Nat) (entries : List FormWrite)
    (s : State) : Host.Outcome State Fault Refusal :=
  .next (s.takeWrite tag fun t => t.writeForms first entries).settle

/-- WRITE_TABLE of PROFILES (R151). -/
def execWriteProfiles (tag : Byte) (first : Nat) (entries : List ProfileWrite)
    (s : State) : Host.Outcome State Fault Refusal :=
  .next (s.takeWrite tag fun t => t.writeProfiles first entries).settle

/-- WRITE_TABLE of KEYS (R153). -/
def execWriteKeys (tag : Byte) (first : Nat) (entries : List KeyWrite)
    (s : State) : Host.Outcome State Fault Refusal :=
  .next (s.takeWrite tag fun t => t.writeKeys first entries).settle

/-- WRITE_TABLE of MESSAGES (R184). -/
def execWriteMessages (tag : Byte) (first : Nat) (entries : List (List Byte))
    (s : State) : Host.Outcome State Fault Refusal :=
  .next (s.takeWrite tag fun t => t.writeMessages first entries).settle

/-- WRITE_TABLE of SIGNALS (R29). -/
def execWriteSignals (tag : Byte) (first : Nat) (entries : List SignalWrite)
    (s : State) : Host.Outcome State Fault Refusal :=
  .next (s.takeWrite tag fun t => t.writeSignals first entries).settle

end Sys2Proof.Machine
end

