-- ==== Sys2Proof/Machine/TimeEvents.lean ====
section
/-! DEFINITION. Events of the time base, of sitting channels, candidates and seats: one meaning for each row. A row that names an
event the block raises of itself takes that event where it is due, and else leaves the part as it stands (log entry 2). -/

namespace Sys2Proof.Machine

/-- Reading elapsed has reached R (R41). -/
def State.readingOver (s : State) (c : Nat) : Bool :=
  decide ((s.chan c).state = .reading) && decide ((s.chan c).config.reading ≤ (s.chan c).readElapsed)

/-- A pending amendment is due: a whole minute of writing elapsed, later than its acceptance (R48). -/
def State.amendmentDue (s : State) (c : Nat) : Bool :=
  decide ((s.chan c).state = .writing) && decide ((s.chan c).writeElapsed % 60 = 0) &&
    (s.chan c).amendment.any fun a => decide (a.since < (s.chan c).writeElapsed)

/-- Writing elapsed stands above L (R43). -/
def State.closeDue (s : State) (c : Nat) : Bool :=
  decide ((s.chan c).state = .writing) && decide ((s.chan c).config.late < (s.chan c).writeElapsed)

/-- Written seconds have reached allowed seconds (R71). -/
def State.timeUpDue (s : State) (k : Nat) : Bool :=
  (s.entry k).any fun e => e.state.isWriting && decide (e.allowed ≤ e.written)

/-- The break budget stands exhausted on break and not yet told (R66). -/
def State.budgetDue (s : State) (k : Nat) : Bool :=
  (s.entry k).any fun e => decide (e.state = .onBreak) && decide (e.remaining = 0) && !e.budgetOut

/-- POWER_ON (R192): every block at its power-on values. -/
def execPowerOn (s : State) : Host.Outcome State Fault Refusal := .next s.powerUp.settle

/-- TICK_1MS (R18): the clocks to the tick pass, a missing-edge judgement that falls before it made at its own clock
(R20); then every consumer takes the tick; HOLDIN low is asserted (R26), `holdAt` places a change of the debounced level
among the consumers of a second tick (R28), `o` orders them (R24). -/
def execTick1ms (holdinLow : Bool) (holdAt : Nat) (o : TickOrder) (s : State) : Host.Outcome State Fault Refusal :=
  let t := (s.missingFirst o).onTime fun b => b.toTick.divide.debounce holdinLow
  .next ((((t.tickLines.onIntake Intake.tick).tickCommits.tickTail holdAt o).missingTest o).settle)

/-- DIVIDER_TICK (R19): the second tick that the divider owes. -/
def execDividerTick (o : TickOrder) (s : State) : Host.Outcome State Fault Refusal :=
  .next (if s.time.dividerDue then s.secondTick o else s).settle

/-- REFSEC_EDGE (R20): a rising edge on REFSEC when the prescaler stands at `phase`. -/
def execRefsecEdge (phase : Nat) (o : TickOrder) (s : State) : Host.Outcome State Fault Refusal :=
  .next (s.edgeAt phase o).settle

/-- MISSING_EDGE_JUDGEMENT (R20): the timer runs out before the next 1 ms tick. -/
def execMissingEdgeJudgement (o : TickOrder) (s : State) : Host.Outcome State Fault Refusal :=
  .next (s.missingFirst o).settle

/-- TIMED_ADMISSION (R38, R40): channel `c`, with a second tick in hand, spends it on its admission attempt. -/
def execTimedAdmission (c : Nat) (s : State) : Host.Outcome State Fault Refusal :=
  .next (if s.admissionDue c then (s.timedAttempt c).giveTick none else s).settle

/-- TIMED_START (R39, R40): channel `c`, with a second tick in hand, spends it on its start. -/
def execTimedStart (c : Nat) (s : State) : Host.Outcome State Fault Refusal :=
  .next (if s.startDue c then (s.startChannel c).giveTick none else s).settle

/-- WRITING_START (R41): reading elapsed has reached R. -/
def execWritingStart (c : Nat) (s : State) : Host.Outcome State Fault Refusal :=
  .next (if s.readingOver c then s.startWriting c else s).settle

/-- DEFERRED_AMENDMENT (R48): at a whole minute of writing elapsed after it was accepted. -/
def execDeferredAmendment (c : Nat) (s : State) : Host.Outcome State Fault Refusal :=
  .next (if s.amendmentDue c then s.applyPending c else s).settle

/-- ADMISSION_CLOSE (R43, step 4): writing elapsed stands above L. -/
def execAdmissionClose (c : Nat) (s : State) : Host.Outcome State Fault Refusal :=
  .next (if s.closeDue c then s.closeOnce c else s).settle

/-- BASE_END (R44): writing elapsed has reached the working W. -/
def execBaseEnd (c : Nat) (s : State) : Host.Outcome State Fault Refusal := .next (s.secondBase c).settle

/-- TIME_UP (R71): written seconds have reached allowed seconds. -/
def execTimeUp (k : Nat) (s : State) : Host.Outcome State Fault Refusal :=
  .next (if s.timeUpDue k then s.depart k .timeUp else s).settle

/-- BUDGET_EXHAUSTION (R66): the break budget has reached 0 on break. -/
def execBudgetExhaustion (k : Nat) (s : State) : Host.Outcome State Fault Refusal :=
  .next (if s.budgetDue k then s.exhaust k else s).settle

/-- SEATING_EXPIRY (R86): the seating time remaining has reached 0. -/
def execSeatingExpiry (i : Nat) (s : State) : Host.Outcome State Fault Refusal :=
  .next (match (s.seat i).occ with
    | .held k 0 => s.expire i k
    | _ => s).settle

/-- CLEARING_END (R91): the clearing time remaining has reached 0. -/
def execClearingEnd (i : Nat) (s : State) : Host.Outcome State Fault Refusal :=
  .next (match (s.seat i).occ with
    | .clearing 0 => s.endClearing i
    | _ => s).settle

/-- HOLDIN_CHANGE (R26): the third consecutive differing sample stands. -/
def execHoldinChange (s : State) : Host.Outcome State Fault Refusal :=
  .next (if s.time.pinDue then s.changePin else s).settle

end Sys2Proof.Machine
end

