-- ==== Sys2Proof/Machine/Dispatch.lean ====
section
/-! DEFINITION. One arm for each command: the meaning it is given. -/

namespace Sys2Proof.Machine

/-- The effect of a command on everything but the queue. -/
def exec (i : Instr) (s : State) : Host.Outcome State Fault Refusal :=
  match i with
  | .powerOn => Sys2Proof.Machine.execPowerOn s
  | .tick1ms holdinLow holdAt o => Sys2Proof.Machine.execTick1ms holdinLow holdAt o s
  | .dividerTick o => Sys2Proof.Machine.execDividerTick o s
  | .refsecEdge phase o => Sys2Proof.Machine.execRefsecEdge phase o s
  | .missingEdgeJudgement o => Sys2Proof.Machine.execMissingEdgeJudgement o s
  | .timedAdmission c => Sys2Proof.Machine.execTimedAdmission c s
  | .timedStart c => Sys2Proof.Machine.execTimedStart c s
  | .writingStart c => Sys2Proof.Machine.execWritingStart c s
  | .deferredAmendment c => Sys2Proof.Machine.execDeferredAmendment c s
  | .admissionClose c => Sys2Proof.Machine.execAdmissionClose c s
  | .baseEnd c => Sys2Proof.Machine.execBaseEnd c s
  | .timeUp k => Sys2Proof.Machine.execTimeUp k s
  | .budgetExhaustion k => Sys2Proof.Machine.execBudgetExhaustion k s
  | .seatingExpiry n => Sys2Proof.Machine.execSeatingExpiry n s
  | .clearingEnd n => Sys2Proof.Machine.execClearingEnd n s
  | .holdinChange => Sys2Proof.Machine.execHoldinChange s
  | .intervalEnd l => Sys2Proof.Machine.execIntervalEnd l s
  | .lineReplyReceived l bytes => Sys2Proof.Machine.execLineReplyReceived l bytes s
  | .replyWindowClose l => Sys2Proof.Machine.execReplyWindowClose l s
  | .broadcastEnd l => Sys2Proof.Machine.execBroadcastEnd l s
  | .sheetFrameStart => Sys2Proof.Machine.execSheetFrameStart s
  | .sheetFrameEnd bytes => Sys2Proof.Machine.execSheetFrameEnd bytes s
  | .sheetGapLimit bytes => Sys2Proof.Machine.execSheetGapLimit bytes s
  | .overrunFrameEnd bytes => Sys2Proof.Machine.execOverrunFrameEnd bytes s
  | .sheetChannelResolved reach => Sys2Proof.Machine.execSheetChannelResolved reach s
  | .sheetCompletion => Sys2Proof.Machine.execSheetCompletion s
  | .keyCommitEnd c => Sys2Proof.Machine.execKeyCommitEnd c s
  | .verdictSent => Sys2Proof.Machine.execVerdictSent s
  | .officeFrameEnd bytes => Sys2Proof.Machine.execOfficeFrameEnd bytes s
  | .officeGapLimit => Sys2Proof.Machine.execOfficeGapLimit s
  | .officeFrameSent => Sys2Proof.Machine.execOfficeFrameSent s
  | .undefinedRequest tag kind payload => Sys2Proof.Machine.execUndefinedRequest tag kind payload s
  | .readTable tag table first count => Sys2Proof.Machine.execReadTable tag table first count s
  | .readKeys tag first count => Sys2Proof.Machine.execReadKeys tag first count s
  | .writeTable tag table first count payload => Sys2Proof.Machine.execWriteTable tag table first count payload s
  | .writeHall tag first entries => Sys2Proof.Machine.execWriteHall tag first entries s
  | .writeSeats tag first entries => Sys2Proof.Machine.execWriteSeats tag first entries s
  | .writeStations tag first entries => Sys2Proof.Machine.execWriteStations tag first entries s
  | .writeRoster tag first entries => Sys2Proof.Machine.execWriteRoster tag first entries s
  | .writeChannels tag first entries => Sys2Proof.Machine.execWriteChannels tag first entries s
  | .writeClasses tag first entries => Sys2Proof.Machine.execWriteClasses tag first entries s
  | .writeForms tag first entries => Sys2Proof.Machine.execWriteForms tag first entries s
  | .writeProfiles tag first entries => Sys2Proof.Machine.execWriteProfiles tag first entries s
  | .writeKeys tag first entries => Sys2Proof.Machine.execWriteKeys tag first entries s
  | .writeMessages tag first entries => Sys2Proof.Machine.execWriteMessages tag first entries s
  | .writeSignals tag first entries => Sys2Proof.Machine.execWriteSignals tag first entries s
  | .readStatus tag => Sys2Proof.Machine.execReadStatus tag s
  | .readFlags tag => Sys2Proof.Machine.execReadFlags tag s
  | .readStats tag group clear => Sys2Proof.Machine.execReadStats tag group clear s
  | .readResults tag start most => Sys2Proof.Machine.execReadResults tag start most s
  | .releaseResults tag upto => Sys2Proof.Machine.execReleaseResults tag upto s
  | .readHistogram tag c => Sys2Proof.Machine.execReadHistogram tag c s
  | .deskMessage tag target message => Sys2Proof.Machine.execDeskMessage tag target message s
  | .channelLoad tag c => Sys2Proof.Machine.execChannelLoad tag c s
  | .channelOpen tag c => Sys2Proof.Machine.execChannelOpen tag c s
  | .channelStart tag c => Sys2Proof.Machine.execChannelStart tag c s
  | .channelHold tag c => Sys2Proof.Machine.execChannelHold tag c s
  | .channelResume tag c => Sys2Proof.Machine.execChannelResume tag c s
  | .amendNow tag c length => Sys2Proof.Machine.execAmendNow tag c length s
  | .amendAtMinute tag c length => Sys2Proof.Machine.execAmendAtMinute tag c length s
  | .channelClose tag c => Sys2Proof.Machine.execChannelClose tag c s
  | .channelTeardown tag c => Sys2Proof.Machine.execChannelTeardown tag c s
  | .keyCommit tag c => Sys2Proof.Machine.execKeyCommit tag c s
  | .hallHold tag => Sys2Proof.Machine.execHallHold tag s
  | .hallResume tag => Sys2Proof.Machine.execHallResume tag s
  | .hallTimeSet tag value => Sys2Proof.Machine.execHallTimeSet tag value s
  | .reseat tag k n => Sys2Proof.Machine.execReseat tag k n s
  | .candidateFinish tag k => Sys2Proof.Machine.execCandidateFinish tag k s
  | .deskClear tag l a => Sys2Proof.Machine.execDeskClear tag l a s
  | .lineQuiet tag l => Sys2Proof.Machine.execLineQuiet tag l s
  | .lineWake tag l => Sys2Proof.Machine.execLineWake tag l s
  | .lineTest tag l => Sys2Proof.Machine.execLineTest tag l s
  | .lineReset tag l => Sys2Proof.Machine.execLineReset tag l s
  | .statsClear tag => Sys2Proof.Machine.execStatsClear tag s
  | .resetSittings tag => Sys2Proof.Machine.execResetSittings tag s
  | .resetAll tag => Sys2Proof.Machine.execResetAll tag s
  | .sheetPortQuietReached => Sys2Proof.Machine.execSheetPortQuietReached s
  | .officeLinkQuietReached => Sys2Proof.Machine.execOfficeLinkQuietReached s
  | .abandonedFrameEnd => Sys2Proof.Machine.execAbandonedFrameEnd s

end Sys2Proof.Machine
end

