-- ==== Sys2Proof/Machine/Encode.lean ====
section
/-! DEFINITION. The frame that carries a request: the bytes an office sends for a command that is a request (R196,
R199, 12.4). Read-only fields of a written entry are sent as zeros. -/

namespace Sys2Proof.Machine

/-- `v` in `n` bytes of packed digits; bytes whose digits stand above 9 for the number past them all. -/
def packedAny (n v : Nat) : List Byte := if v < 100 ^ n then packed n v else List.replicate n 0xFF#8

/-- A COMMAND payload: the command's number, then its arguments. -/
def commandBytes (n : Nat) (args : List Byte) : Byte × List Byte := (0x03#8, b1 n ++ args)

/-- The payload of a table request: table, first index, count, and the entries of a write. -/
def tableHead (t first n : Nat) : List Byte := b1 t ++ be 2 first ++ b1 n

/-- A WRITE_TABLE payload. -/
def writeBytes {α : Type} (t first : Nat) (f : α → List Byte) (ws : List α) : Byte × List Byte :=
  (0x02#8, tableHead t first ws.length ++ ws.flatMap f)

end Sys2Proof.Machine

namespace Sys2Proof

open Sys2Proof.Machine

/-- A HALL entry as sent (R183). -/
def HallWrite.bytes (w : HallWrite) : List Byte :=
  w.seatPoll.flatMap (be 2) ++ be 2 w.stationPoll ++ be 2 w.seatingLimit ++ be 2 w.clearingTime ++
    be 2 w.verdictDeadline ++ b1 w.highMark ++ w.masks.flatMap b1 ++ List.replicate 7 0#8

/-- A SEATS entry as sent (R1). -/
def SeatWrite.bytes (w : SeatWrite) : List Byte :=
  b1 w.configured ++ b1 w.row ++ b1 w.column ++ b1 w.accessible ++ b1 w.service

/-- A STATIONS entry as sent (R118). -/
def StationWrite.bytes (w : StationWrite) : List Byte := b1 w.configured ++ b1 w.role

/-- A ROSTER entry as sent (R13). -/
def RosterWrite.bytes : RosterWrite → List Byte
  | .use id c n fixed => b1 1 ++ packedAny 4 id ++ b1 c ++ b1 n ++ bOpt (be 2) fixed
  | .free => b1 0

/-- A CHANNELS entry as sent (R32), its runtime fields as zeros. -/
def ChannelWrite.bytes (w : ChannelWrite) : List Byte :=
  packedAny 2 w.paper ++ b1 w.form ++ b1 w.profile ++
    bList (fun r : Rect => b1 r.r0 ++ b1 r.r1 ++ b1 r.c0 ++ b1 r.c1) w.zones ++
    b1 w.fill ++ b1 w.spacing ++ b1 w.relax ++ bOpt (be 3) w.admission ++ bOpt (be 3) w.start ++
    be 2 w.reading ++ be 2 w.writing ++ be 2 w.late ++ be 2 w.barStart ++ be 2 w.barEnd ++ bList (be 2) w.warnings ++
    List.replicate 19 0#8

/-- A CLASSES entry as sent (R9). -/
def ClassWrite.bytes (w : ClassWrite) : List Byte := b1 w.percent ++ be 2 w.budget ++ b1 w.accessible

/-- A FORMS entry as sent (R150). -/
def FormWrite.bytes (w : FormWrite) : List Byte := b1 w.defined ++ b1 w.questions ++ b1 w.options ++ b1 w.grid

/-- A PROFILES entry as sent (R151). -/
def ProfileWrite.bytes (w : ProfileWrite) : List Byte :=
  b1 w.defined ++ b1 w.blank ++ b1 w.mark ++ b1 w.margin ++ b1 w.handling ++ b1 w.refer ++ b1 w.span

/-- A KEYS entry as sent (R152). -/
def KeyWrite.bytes (w : KeyWrite) : List Byte := bList b1 w.accepted ++ b1 w.weight ++ b1 w.penalty ++ b1 w.mode

/-- A SIGNALS entry as sent (R29). -/
def SignalWrite.bytes (w : SignalWrite) : List Byte :=
  b1 w.source ++ (if w.source = 1 then b1 w.channel else []) ++ b1 w.condition ++ b1 w.mode ++ b1 w.polarity

/-- A target of a desk message as sent (R185). -/
def DeskTarget.bytes : DeskTarget → List Byte
  | .seat i => b1 0 ++ be 2 i
  | .channel c => b1 1 ++ b1 c
  | .line l => b1 2 ++ b1 l
  | .hall => b1 3

/-- The tag, kind and payload of the frame that carries a command; none for an event of the part's own. -/
def Instr.request : Instr → Option (Byte × Byte × List Byte)
  | .undefinedRequest tag kind payload => some (tag, kind, payload)
  | .readTable tag t first n => some (tag, 0x01#8, tableHead t first n)
  | .readKeys tag first n => some (tag, 0x01#8, tableHead 9 first n)
  | .writeTable tag t first n payload => some (tag, 0x02#8, tableHead t first n ++ payload)
  | .writeHall tag first ws => some (tag, writeBytes 1 first HallWrite.bytes ws)
  | .writeSeats tag first ws => some (tag, writeBytes 2 first SeatWrite.bytes ws)
  | .writeStations tag first ws => some (tag, writeBytes 3 first StationWrite.bytes ws)
  | .writeRoster tag first ws => some (tag, writeBytes 4 first RosterWrite.bytes ws)
  | .writeChannels tag first ws => some (tag, writeBytes 5 first ChannelWrite.bytes ws)
  | .writeClasses tag first ws => some (tag, writeBytes 6 first ClassWrite.bytes ws)
  | .writeForms tag first ws => some (tag, writeBytes 7 first FormWrite.bytes ws)
  | .writeProfiles tag first ws => some (tag, writeBytes 8 first ProfileWrite.bytes ws)
  | .writeKeys tag first ws => some (tag, writeBytes 9 first KeyWrite.bytes ws)
  | .writeMessages tag first ws => some (tag, writeBytes 10 first (bList fun b => [b]) ws)
  | .writeSignals tag first ws => some (tag, writeBytes 11 first SignalWrite.bytes ws)
  | .readStatus tag => some (tag, 0x04#8, [])
  | .readFlags tag => some (tag, 0x05#8, [])
  | .readStats tag g clear => some (tag, 0x06#8, b1 g ++ bBool clear)
  | .readResults tag start most => some (tag, 0x07#8, be 4 start ++ b1 most)
  | .releaseResults tag upto => some (tag, 0x08#8, be 4 upto)
  | .readHistogram tag c => some (tag, 0x09#8, b1 c)
  | .deskMessage tag target m => some (tag, 0x0A#8, target.bytes ++ b1 m)
  | .channelLoad tag c => some (tag, commandBytes 1 (b1 c))
  | .channelOpen tag c => some (tag, commandBytes 2 (b1 c))
  | .channelStart tag c => some (tag, commandBytes 3 (b1 c))
  | .channelHold tag c => some (tag, commandBytes 4 (b1 c))
  | .channelResume tag c => some (tag, commandBytes 5 (b1 c))
  | .amendNow tag c v => some (tag, commandBytes 6 (b1 c ++ be 2 v))
  | .amendAtMinute tag c v => some (tag, commandBytes 7 (b1 c ++ be 2 v))
  | .channelClose tag c => some (tag, commandBytes 8 (b1 c))
  | .channelTeardown tag c => some (tag, commandBytes 9 (b1 c))
  | .keyCommit tag c => some (tag, commandBytes 10 (b1 c))
  | .hallHold tag => some (tag, commandBytes 11 [])
  | .hallResume tag => some (tag, commandBytes 12 [])
  | .hallTimeSet tag v => some (tag, commandBytes 13 (be 3 v))
  | .reseat tag k i => some (tag, commandBytes 14 (be 2 k ++ be 2 i))
  | .candidateFinish tag k => some (tag, commandBytes 15 (be 2 k))
  | .deskClear tag l a => some (tag, commandBytes 16 (b1 l ++ b1 a))
  | .lineQuiet tag l => some (tag, commandBytes 17 (b1 l))
  | .lineWake tag l => some (tag, commandBytes 18 (b1 l))
  | .lineTest tag l => some (tag, commandBytes 19 (b1 l))
  | .lineReset tag l => some (tag, commandBytes 20 (b1 l))
  | .statsClear tag => some (tag, commandBytes 21 [])
  | .resetSittings tag => some (tag, commandBytes 22 [])
  | .resetAll tag => some (tag, commandBytes 23 [])
  | .powerOn | .tick1ms _ _ _ | .dividerTick _ | .refsecEdge _ _ | .missingEdgeJudgement _ | .timedAdmission _
  | .timedStart _ | .writingStart _ | .deferredAmendment _ | .admissionClose _ | .baseEnd _ | .timeUp _
  | .budgetExhaustion _ | .seatingExpiry _ | .clearingEnd _ | .holdinChange | .intervalEnd _
  | .lineReplyReceived _ _ | .replyWindowClose _ | .broadcastEnd _ | .sheetFrameStart | .sheetFrameEnd _
  | .sheetGapLimit _ | .overrunFrameEnd _ | .sheetChannelResolved _ | .sheetCompletion | .keyCommitEnd _ | .verdictSent
  | .officeFrameEnd _ | .officeGapLimit | .officeFrameSent | .sheetPortQuietReached | .officeLinkQuietReached
  | .abandonedFrameEnd => none

end Sys2Proof
end

