-- ==== Sys2Proof/WellFormed.lean ====
section
/-! DEFINITION. Which commands are well formed: those whose operands their sender can express. An index of an event of
the part's own names something that exists; a field of a request fits the bytes that carry it (R196, R199), in range
or not, since the range is the request's own rule. -/

namespace Sys2Proof

/-- `v` fits `n` bytes. -/
def fits (n v : Nat) : Bool := decide (v < 256 ^ n)

/-- A number in `n` bytes of packed digits, or the one number past them that stands for a digit above 9. -/
def fitsPacked (n v : Nat) : Bool := decide (v ≤ 100 ^ n)

/-- A HALL entry carries six intervals and sixteen masks, each in its bytes (R183). -/
def HallWrite.wf (w : HallWrite) : Bool :=
  decide (w.seatPoll.length = 6) && w.seatPoll.all (fits 2) && fits 2 w.stationPoll && fits 2 w.seatingLimit &&
    fits 2 w.clearingTime && fits 2 w.verdictDeadline && fits 1 w.highMark && decide (w.masks.length = 16) &&
    w.masks.all (fits 1)

/-- A SEATS entry (R1). -/
def SeatWrite.wf (w : SeatWrite) : Bool :=
  fits 1 w.configured && fits 1 w.row && fits 1 w.column && fits 1 w.accessible && fits 1 w.service

/-- A STATIONS entry (R118). -/
def StationWrite.wf (w : StationWrite) : Bool := fits 1 w.configured && fits 1 w.role

/-- A ROSTER entry (R13). -/
def RosterWrite.wf : RosterWrite → Bool
  | .use id c n fixed => fitsPacked 4 id && fits 1 c && fits 1 n && fixed.all (fits 2)
  | .free => true

/-- A CHANNELS entry (R32). -/
def ChannelWrite.wf (w : ChannelWrite) : Bool :=
  fitsPacked 2 w.paper && fits 1 w.form && fits 1 w.profile && fits 1 w.zones.length &&
    (w.zones.all fun r => fits 1 r.r0 && fits 1 r.r1 && fits 1 r.c0 && fits 1 r.c1) &&
    fits 1 w.fill && fits 1 w.spacing && fits 1 w.relax && w.admission.all (fits 3) && w.start.all (fits 3) &&
    fits 2 w.reading && fits 2 w.writing && fits 2 w.late && fits 2 w.barStart && fits 2 w.barEnd &&
    fits 1 w.warnings.length && w.warnings.all (fits 2)

/-- A CLASSES entry (R9). -/
def ClassWrite.wf (w : ClassWrite) : Bool := fits 1 w.percent && fits 2 w.budget && fits 1 w.accessible

/-- A FORMS entry (R150). -/
def FormWrite.wf (w : FormWrite) : Bool := fits 1 w.defined && fits 1 w.questions && fits 1 w.options && fits 1 w.grid

/-- A PROFILES entry (R151). -/
def ProfileWrite.wf (w : ProfileWrite) : Bool :=
  fits 1 w.defined && fits 1 w.blank && fits 1 w.mark && fits 1 w.margin && fits 1 w.handling && fits 1 w.refer &&
    fits 1 w.span

/-- A KEYS entry (R152). -/
def KeyWrite.wf (w : KeyWrite) : Bool :=
  fits 1 w.accepted.length && w.accepted.all (fits 1) && fits 1 w.weight && fits 1 w.penalty && fits 1 w.mode

/-- A SIGNALS entry; the channel is 0 unless the source is CHANNEL (R29). -/
def SignalWrite.wf (w : SignalWrite) : Bool :=
  fits 1 w.source && fits 1 w.channel && (decide (w.source = 1) || decide (w.channel = 0)) && fits 1 w.condition &&
    fits 1 w.mode && fits 1 w.polarity

/-- A target of a desk message (R185). -/
def DeskTarget.wf : DeskTarget → Bool
  | .seat i => fits 2 i
  | .channel c => fits 1 c
  | .line l => fits 1 l
  | .hall => true

/-- The entries of a write, at most as many as its count byte says, each well formed (R199). -/
def entriesWf {α : Type} (first : Nat) (f : α → Bool) (ws : List α) : Bool :=
  fits 2 first && fits 1 ws.length && ws.all f

/-- A command is well formed. -/
def Instr.wf : Instr → Bool
  | .powerOn => true
  | .tick1ms _ n _ => decide (n ≤ 3)
  | .dividerTick _ => true
  | .refsecEdge phase _ => decide (phase < Config.clocksPerTick)
  | .missingEdgeJudgement _ => true
  | .timedAdmission c => decide (c < 16)
  | .timedStart c => decide (c < 16)
  | .writingStart c => decide (c < 16)
  | .deferredAmendment c => decide (c < 16)
  | .admissionClose c => decide (c < 16)
  | .baseEnd c => decide (c < 16)
  | .timeUp k => decide (k < 512)
  | .budgetExhaustion k => decide (k < 512)
  | .seatingExpiry i => decide (i < 384)
  | .clearingEnd i => decide (i < 384)
  | .holdinChange => true
  | .intervalEnd _ => true
  | .lineReplyReceived _ _ => true
  | .replyWindowClose _ => true
  | .broadcastEnd _ => true
  | .sheetFrameStart => true
  | .sheetFrameEnd _ => true
  | .sheetGapLimit _ => true
  | .overrunFrameEnd _ => true
  | .sheetChannelResolved reach => decide (7 ≤ reach) && decide (reach ≤ 12)
  | .sheetCompletion => true
  | .keyCommitEnd c => decide (c < 16)
  | .verdictSent => true
  | .officeFrameEnd bytes => decide (bytes.length ≤ 1028)
  | .officeGapLimit => true
  | .officeFrameSent => true
  | .undefinedRequest _ kind payload =>
    decide (kind.toNat = 0 ∨ 10 < kind.toNat) && decide (payload.length ≤ 1022)
  | .readTable _ table first count => fits 1 table && fits 2 first && fits 1 count
  | .readKeys _ first count => fits 2 first && fits 1 count
  | .writeTable _ table first count payload =>
    fits 1 table && fits 2 first && fits 1 count && decide (payload.length ≤ 1018)
  | .writeHall _ first ws => entriesWf first HallWrite.wf ws
  | .writeSeats _ first ws => entriesWf first SeatWrite.wf ws
  | .writeStations _ first ws => entriesWf first StationWrite.wf ws
  | .writeRoster _ first ws => entriesWf first RosterWrite.wf ws
  | .writeChannels _ first ws => entriesWf first ChannelWrite.wf ws
  | .writeClasses _ first ws => entriesWf first ClassWrite.wf ws
  | .writeForms _ first ws => entriesWf first FormWrite.wf ws
  | .writeProfiles _ first ws => entriesWf first ProfileWrite.wf ws
  | .writeKeys _ first ws => entriesWf first KeyWrite.wf ws
  | .writeMessages _ first ws => entriesWf first (fun t => fits 1 t.length) ws
  | .writeSignals _ first ws => entriesWf first SignalWrite.wf ws
  | .readStatus _ => true
  | .readFlags _ => true
  | .readStats _ group _ => fits 1 group
  | .readResults _ start most => fits 4 start && fits 1 most
  | .releaseResults _ upto => fits 4 upto
  | .readHistogram _ c => fits 1 c
  | .deskMessage _ target message => target.wf && fits 1 message
  | .channelLoad _ c => fits 1 c
  | .channelOpen _ c => fits 1 c
  | .channelStart _ c => fits 1 c
  | .channelHold _ c => fits 1 c
  | .channelResume _ c => fits 1 c
  | .amendNow _ c v => fits 1 c && fits 2 v
  | .amendAtMinute _ c v => fits 1 c && fits 2 v
  | .channelClose _ c => fits 1 c
  | .channelTeardown _ c => fits 1 c
  | .keyCommit _ c => fits 1 c
  | .hallHold _ => true
  | .hallResume _ => true
  | .hallTimeSet _ v => fits 3 v
  | .reseat _ k i => fits 2 k && fits 2 i
  | .candidateFinish _ k => fits 2 k
  | .deskClear _ l a => fits 1 l && fits 1 a
  | .lineQuiet _ l => fits 1 l
  | .lineWake _ l => fits 1 l
  | .lineTest _ l => fits 1 l
  | .lineReset _ l => fits 1 l
  | .statsClear _ => true
  | .resetSittings _ => true
  | .resetAll _ => true
  | .sheetPortQuietReached => true
  | .officeLinkQuietReached => true
  | .abandonedFrameEnd => true

end Sys2Proof
end

