-- ==== Sys2Proof/Safety.lean ====
section
/-! DEFINITION. What counts as a safe run, in the terms the statements use: canonical tables, the laws of the lines, the
capacities, and the parts of the state that a frame names. -/

namespace Sys2Proof.Machine

/-! ## Canonical tables -/

/-- A table in canonical form: indexes strictly rising, and no entry equal to what an unlisted index reads as. -/
def canon {α : Type} [DecidableEq α] (d : α) (m : PMap α) : Bool := mapRises 0 m && m.all fun p => decide (p.2 ≠ d)

/-- The tables inside a channel, its two key banks and its histogram, are in canonical form. -/
def Channel.canonical (c : Channel) : Bool :=
  canon KeyEntry.zero c.bankA && canon KeyEntry.zero c.bankB && canon 0 c.histogram

/-- The table of drop addresses inside a line is in canonical form. -/
def Line.canonical (n : Line) : Bool := canon AddrState.blank n.addrs

/-- The tables inside every channel and every line are in canonical form. -/
def innerCanonical (channels : PMap Channel) (lines : PMap Line) : Bool :=
  (channels.all fun p => p.2.canonical) && lines.all fun p => p.2.canonical

/-- Every table of the part, those inside a channel and a line among them, is in canonical form, so that equal tables are
equal data. -/
def State.canonical (s : State) : Bool :=
  canon Seat.blank s.seats && canon AllowanceClass.blank s.classes && mapRises 0 s.roster && mapRises 0 s.warnings &&
    canon Channel.blank s.channels && mapRises 0 s.booklets && canon Form.blank s.forms &&
    canon Profile.initial s.profiles && canon [] s.messages && canon Station.blank s.stations &&
    canon Signal.blank s.signals && canon Line.fresh s.lines && canon Slot.blank s.intake.slots &&
    innerCanonical s.channels s.lines

/-! ## The laws of the lines (R98, R106, R110, R112) -/

/-- What a line keeps for an address: the missed-reply count 0 to 2, the owed poll count −8 to +9, both 0 unless the
address is PRESENT (R98, R106). -/
def AddrState.lawful (r : AddrState) : Bool :=
  decide (r.missed ≤ 2) && decide (-8 ≤ r.owed) && decide (r.owed ≤ 9) &&
    (decide (r.presence = .present) || (decide (r.missed = 0) && decide (r.owed = 0)))

/-- The desk that a CLOCK frame in flight names stands at an address of its line. -/
def Exchange.lawful (x : Exchange) : Bool :=
  match x.kind with
  | .clock _ _ => decide (1 ≤ x.addr) && decide (x.addr ≤ 64)
  | _ => true

/-- A line keeps its laws: each desk is marked at most once, its note FIFO holds at most 16 notes, its discovery count
is 0 to 15 (R98, R106, R110, R112). -/
def Line.lawful (n : Line) : Bool :=
  decide n.marks.Nodup && (n.marks.all fun a => decide (1 ≤ a) && decide (a ≤ 64)) &&
    decide (n.fifo.length ≤ Config.fifoSize) && decide (n.discovery ≤ 15) &&
    (n.addrs.all fun p => p.2.lawful) && n.exchange.all Exchange.lawful

/-- Every line keeps its laws. -/
def State.linesLawful (s : State) : Bool := s.lines.all fun p => p.2.lawful

/-! ## Capacities (R145, R159, R169, R178, R190) -/

/-- The response queue, the notice queue and the start-of-sheet overrun verdicts waiting keep their capacities. -/
def State.queuesFit (s : State) : Bool :=
  decide (s.office.responses.length ≤ Config.responseQueueSize) &&
    decide (s.office.notices.length ≤ Config.noticeQueueSize) && decide (s.intake.overrunsWaiting ≤ 4)

/-- The work on a sheet is done, and its completion will place a record. -/
def Marking.willPlace (m : Marking) : Bool :=
  match m.failed with
  | some x => decide (x ≠ .logFull)
  | none => decide (m.made = 14)

/-- The log holds at most 256 records, and fewer while a sheet's completion will place one more (R169, R170). -/
def State.logFits (s : State) : Bool :=
  decide (s.log.records.length ≤ Config.logSize) &&
    (!(s.intake.marking.any Marking.willPlace) || decide (s.log.records.length < Config.logSize))

/-! ## The laws of the roster (R5, R11, R14, R15, R171) -/

/-- Every HELD or OCCUPIED seat names a roster entry that names the seat, ALLOCATED under a HELD seat and SEATED, WRITING or
ON_BREAK under an OCCUPIED one; an entry in another state names no seat (R5, R11). -/
def State.seatsAgree (s : State) : Bool :=
  (s.seats.all fun p => match p.2.occ.slot with
    | some k => (s.entry k).any fun e => decide (e.seat = some p.1)
    | none => true) &&
  s.roster.all fun p => match p.2.seat with
    | some i => decide ((s.seat i).occ.slot = some p.1) &&
      (match (s.seat i).occ with
        | .held _ _ => decide (p.2.state = .allocated)
        | _ => p.2.state.isSeated)
    | none => !(decide (p.2.state = .allocated) || p.2.state.isSeated)

/-- The states that an entry of the channel can be in, by the channel's phase (3.2, R11, R43, R45, R50 to R52). -/
def Channel.allows (c : Channel) (x : EntryState) : Bool :=
  match c.state with
  | .free => false
  | .loaded => decide (x = .expected)
  | .opened | .reading => decide (x ∈ [.expected, .allocated, .seated])
  | .writing =>
    if c.closed then decide (x ∈ [.writing, .onBreak, .finished, .timeUp, .collected, .absent])
    else decide (x ∉ [.seated, .missing])
  | .overtime => decide (x ∈ [.writing, .onBreak, .finished, .timeUp, .collected, .absent])
  | .collecting => decide (x ∈ [.finished, .timeUp, .collected, .absent])
  | .reconciled | .releasing => decide (x ∈ [.collected, .absent, .missing])

/-- Every entry stands in a state that its channel's phase allows, and admission is closed in no channel before WRITING. -/
def State.phasesAgree (s : State) : Bool :=
  (s.roster.all fun p => (s.chan p.2.channel).allows p.2.state) &&
  s.channels.all fun p => !p.2.closed || decide (p.2.state ∉ [.free, .loaded, .opened, .reading])

/-- No candidate id stands twice in one channel, nor in two active ones (R14, R15). -/
def State.idsUnique (s : State) : Bool :=
  s.roster.all fun p => s.roster.all fun q => decide (p.1 = q.1) || decide (p.2.id ≠ q.2.id) ||
    (decide (p.2.channel ≠ q.2.channel) &&
      !((s.chan p.2.channel).state.isActive && (s.chan q.2.channel).state.isActive))

/-- Slot `k` is in use by a COLLECTED entry of channel `c`. -/
def State.collectedIn (s : State) (k c : Nat) : Bool :=
  (s.entry k).any fun e => decide (e.channel = c) && decide (e.state = .collected)

/-- Every SCORED or REFERRED record refers to an entry in use whose channel is not FREE, and the sheet in the marking unit
that has passed check 11 to one that its record may refer to (R171, R159). -/
def State.resultsStand (s : State) : Bool :=
  (s.log.records.all fun r => match r.status, r.slot, r.channel with
    | .scored, some k, some c | .referred, some k, some c => s.collectedIn k c
    | .scored, _, _ | .referred, _, _ => false
    | _, _, _ => true) &&
  match s.intake.marking with
  | none => true
  | some m => match m.failed with
    | some x => decide (x ≠ .scored) && decide (x ≠ .referred)
    | none => decide (m.made < 11) || (match m.entry, m.channel with
      | some k, some c => s.collectedIn k c && decide ((s.intake.slot m.slot).resolved = some c)
      | _, _ => false)

/-- The slots stand in the states that the receiver, the arrival list and the marking unit call for, and no slot waits
twice (R137, R142). -/
def State.slotsAgree (s : State) : Bool :=
  decide s.intake.arrivals.Nodup && (s.intake.arrivals.all fun n => decide ((s.intake.slot n).state = .waiting)) &&
  (match s.intake.rx with
    | .receiving n => decide ((s.intake.slot n).state = .receiving)
    | _ => true) &&
  match s.intake.marking with
  | some m => decide ((s.intake.slot m.slot).state = .scoring)
  | none => true

/-- The laws that tie seats, roster entries, channels, candidate ids, sheet slots and results to one another. -/
def State.rosterLawful (s : State) : Bool :=
  s.seatsAgree && s.phasesAgree && s.idsUnique && s.slotsAgree && s.resultsStand

/-! ## Second ticks -/

/-- A wiring test has been taken and waits for the exchange in flight to end (R102, R114). -/
def Line.testWaits (n : Line) : Bool := n.testDue && decide (n.state = .testing)

/-- The time base as TICK_1MS leaves it before a second tick or a change of the hold level that it brings. -/
def TimeBase.ticked (b : TimeBase) (low : Bool) : TimeBase := b.toTick.divide.debounce low

/-- The clocks that pass before an edge at prescaler count `phase`. -/
def State.clocksTo (s : State) (phase : Nat) : Nat := min phase (Config.clocksPerTick - 1) - s.time.prescaler

/-- Command `i` brings a second tick, and no change of the hold level nor missing-edge judgement with it: a DIVIDER_TICK
that is owed, a TICK_1MS at which the divider reaches its threshold, and a good edge in GOOD with the divider at 500 or
more (R19, R22). -/
def State.secondBy (s : State) : Instr → Prop
  | .dividerTick _ => s.time.dividerDue = true
  | .tick1ms low _ _ => (s.time.ticked low).dividerDue = true ∧ (s.time.ticked low).pinDue = false ∧
      (s.time.ticked low).missingTimer < Config.missingEdgeClocks
  | .refsecEdge phase _ => s.time.missingTimer + s.clocksTo phase < Config.missingEdgeClocks ∧ s.time.refState = .good ∧
      500 ≤ s.time.divider ∧ ∃ p, s.time.openPeriod = some p ∧ periodGood (p + s.clocksTo phase) = true
  | _ => False

/-- Hall time one second on (R24). -/
def nextHallTime (t : Nat) : Nat := if t < 86399 then t + 1 else 0

/-- The next second tick is a held second of channel `c` (R42). -/
def State.holdsSecond (s : State) (c : Nat) : Bool := (s.chan c).state.hasClock && (s.time.held || (s.chan c).hold)

/-- The next second tick is a reading second of channel `c` (R42). -/
def State.readsSecond (s : State) (c : Nat) : Bool :=
  decide ((s.chan c).state = .reading) && !(s.time.held || (s.chan c).hold)

/-- The next second tick is a writing second of channel `c` (R42). -/
def State.writesSecond (s : State) (c : Nat) : Bool :=
  (decide ((s.chan c).state = .writing) || decide ((s.chan c).state = .overtime)) && !(s.time.held || (s.chan c).hold)

/-- A pending amendment of channel `c` is applied at its next writing second, a whole minute and not too late (R43 step 2,
R48, R49). -/
def State.amendsSecond (s : State) (c : Nat) : Bool :=
  (s.chan c).amendment.isSome && decide (((s.chan c).writeElapsed + 1) % 60 = 0) &&
    decide ((s.chan c).writeElapsed + 61 ≤ 14400)

/-- The working W of channel `c` after its next writing second (R43 step 2, R49). -/
def State.nextLength (s : State) (c : Nat) : Nat :=
  match (s.chan c).amendment with
  | some a => if s.amendsSecond c then max a.length ((s.chan c).writeElapsed + 61) else (s.chan c).length
  | none => (s.chan c).length

/-- Base end of channel `c` falls at its next writing second (R43 step 5, R44). -/
def State.endsSecond (s : State) (c : Nat) : Bool :=
  s.writesSecond c && decide ((s.chan c).state = .writing) && decide (s.nextLength c ≤ (s.chan c).writeElapsed + 1)

/-- Admission of channel `c` closes at its next writing second (R43 step 4, R44). -/
def State.closesSecond (s : State) (c : Nat) : Bool :=
  s.writesSecond c && !(s.chan c).closed &&
    (decide ((s.chan c).config.late < (s.chan c).writeElapsed + 1) || s.endsSecond c)

/-- The timed admission of channel `c` falls due at the next second tick (R38). -/
def State.admitsSecond (s : State) (c : Nat) : Bool :=
  decide ((s.chan c).state = .loaded) && !(s.chan c).spent &&
    (s.chan c).config.admission.any fun x => decide (x ≤ nextHallTime s.time.hallTime)

/-- The timed start of channel `c` falls due at the next second tick (R39). -/
def State.startsSecond (s : State) (c : Nat) : Bool :=
  decide ((s.chan c).state = .opened) && (s.chan c).config.start.any fun x => decide (x ≤ nextHallTime s.time.hallTime)

/-- What a second tick leaves of the counters of channel `c`: a held second adds to hold seconds alone, a reading second to
reading elapsed, with the writing start when it reaches R, and a writing second to writing elapsed (R41 to R43). -/
def ChannelCounted (s t : State) (c : Nat) : Prop :=
  (s.holdsSecond c = true → (t.chan c).holdSeconds = satUp 86399 (s.chan c).holdSeconds ∧
    (t.chan c).state = (s.chan c).state ∧ (t.chan c).readElapsed = (s.chan c).readElapsed ∧
    (t.chan c).writeElapsed = (s.chan c).writeElapsed ∧ (t.chan c).length = (s.chan c).length) ∧
  (s.readsSecond c = true → (t.chan c).holdSeconds = (s.chan c).holdSeconds ∧
    (t.chan c).readElapsed = (s.chan c).readElapsed + 1 ∧
    if (s.chan c).readElapsed + 1 < (s.chan c).config.reading then
      (t.chan c).state = .reading ∧ (t.chan c).writeElapsed = (s.chan c).writeElapsed
    else (t.chan c).state = .writing ∧ (t.chan c).writeElapsed = 0) ∧
  (s.writesSecond c = true → (t.chan c).holdSeconds = (s.chan c).holdSeconds ∧
    (t.chan c).writeElapsed = (s.chan c).writeElapsed + 1 ∧ (t.chan c).length = s.nextLength c)

/-- What a writing second of its channel leaves of slot `k`, whose entry `e` is WRITING or ON_BREAK: the break budget runs
down and is told when it reaches 0, or written seconds rise, with the time-up when they reach the allowed seconds as the
amendment of that second leaves them (R59, R61, R66, R70, R71, R130). -/
def EntryCounted (s t : State) (k : Nat) (e : Entry) : Prop :=
  let a := if s.amendsSecond e.channel then allowedSeconds (s.nextLength e.channel) e.percent else e.allowed
  t.entry k = some (
    if e.state = .onBreak ∧ 0 < e.remaining then
      { e with allowed := a, remaining := e.remaining - 1, budgetOut := e.budgetOut || decide (e.remaining = 1) }
    else if a ≤ e.written + 1 then
      { e with
        allowed := a
        written := e.written + 1
        state := if e.booklets ≠ [] ∧ e.booklets.all s.isReturned then .collected else .timeUp
        finish := some (nextHallTime s.time.hallTime)
        seat := none }
    else { e with allowed := a, written := e.written + 1 })

/-- What a second tick leaves of seat `i`: a hold runs down unless the hall is held and ends at 0, or with the closing of
its channel's admission, and a clearing runs down always (R43, R85 to R87, R91). -/
def SeatCounted (s t : State) (i : Nat) : Prop :=
  match (s.seat i).occ with
  | .held k n => ∀ e, s.entry k = some e →
    if s.time.held then t.seat i = s.seat i
    else if s.closesSecond e.channel then (t.seat i).occ = .free ∧ (t.seat i).closing = .none
    else if n ≤ 1 then (t.seat i).occ = .free ∧ (t.seat i).closing = .none ∧ Category.seatingExpired ∈ t.office.flags ∧
      ∃ e', t.entry k = some e' ∧ e'.state = .expected ∧ e'.seat = none
    else t.seat i = { s.seat i with occ := .held k (n - 1) }
  | .clearing n =>
    if n ≤ 1 then (t.seat i).occ = .free ∧ (t.seat i).closing = .none
    else t.seat i = { s.seat i with occ := .clearing (n - 1) }
  | _ => True

/-- What a second tick leaves of signal line `n`: a pending write applied, then the output set from the condition, read
before or after the sitting unit has taken the tick (R24, R31). -/
def SignalDriven (s t : State) (n : Nat) : Prop :=
  let e := (s.signal n).pending.getD (s.signal n).entry
  (t.signal n).entry = e ∧ (t.signal n).pending = none ∧
    ∃ u, (u = s ∨ u = t) ∧ (t.signal n).active = (u.signalCondition e && (!e.flash || !(s.signal n).active))

/-! ## Lines -/

/-- Line `l` has a POLL to address `a` in flight, and `bytes` are a good reply to it that carries the event `v`. -/
def State.hears (s : State) (l a : Nat) (bytes : List Byte) (v : DeskEvent) : Prop :=
  (s.line l).exchange = some ⟨a, .poll⟩ ∧ ∃ body, readReply bytes = some (a, 0x81, body) ∧ readEvent body = some v

/-- A note to address `a` of line `l` has a place, and will be sent: the line is not QUIET, its FIFO has room, the address
is configured and not FAULTY (R112, R113). -/
def State.reaches (s : State) (l a : Nat) : Prop :=
  (s.line l).takesNote = true ∧ s.configured l a = true ∧ s.presence l a ≠ .faulty

/-- A note stands at the tail of the FIFO of line `l`, or has gone out on the free line at once (R112, R113). -/
def State.noted (t : State) (l a : Nat) (c : NoteContent) : Prop :=
  (t.line l).fifo.getLast? = some ⟨a, c⟩ ∨ (t.line l).exchange = some ⟨a, .note c⟩

/-- The frame that the arbiter of ACTIVE line `l` has chosen, from the line as it stood in `s`, step by step (R108 to R110,
R113); the mark of a CLOCK frame sent keeps its place until the ACK. -/
def Arbitrated (s t : State) (l : Nat) : Prop :=
  let n := s.line l
  let m := t.line l
  let here := fun a => a ∈ s.configuredAddrs l ∧ s.presence l a = .present
  let owed := fun a => (n.addr a).owed
  let goes := fun x : Note => x.addr = 0 ∨ (s.configured l x.addr = true ∧ s.presence l x.addr ≠ .faulty)
  let polled := fun a => m.exchange = some ⟨a, .poll⟩ ∧ (m.addr a).owed = owed a - 1
  (∀ a, here a → owed a = 9 → (∀ b, here b → owed b = 9 → a ≤ b) → polled a) ∧
  ((∀ b, here b → owed b ≠ 9) →
    (∀ pre a post, l < 6 → n.marks = pre ++ a :: post → (∀ b ∈ pre, s.presence l b ≠ .present) →
      s.presence l a = .present →
      m.exchange = some ⟨a, .clock (s.clockContent (seatIndex l a)) false⟩ ∧ m.marks = n.marks ∧
        ∀ k, (s.seat (seatIndex l a)).occ = .occupied k → mapGet t.warnings k = none) ∧
    ((l < 6 → ∀ b ∈ n.marks, s.presence l b ≠ .present) →
      (∀ pre x post, n.fifo = pre ++ x :: post → (∀ y ∈ pre, ¬goes y) → goes x →
        m.exchange = some ⟨x.addr, if x.addr = 0 then .broadcast x.content else .note x.content⟩ ∧ m.fifo = post) ∧
      ((∀ x ∈ n.fifo, ¬goes x) → m.fifo = [] ∧
        (∀ a, here a → 0 < owed a → (∀ b, here b → owed b < owed a ∨ (owed b = owed a ∧ a ≤ b)) → polled a) ∧
        ((∀ b, here b → owed b ≤ 0) →
          (∀ a ∈ s.configuredAddrs l, (n.addr a).due = true →
            (∀ b ∈ s.configuredAddrs l, (n.addr b).due = true → a ≤ b) →
            m.exchange = some ⟨a, .discover false⟩ ∧ (m.addr a).due = false) ∧
          ((∀ b ∈ s.configuredAddrs l, (n.addr b).due = false) →
            (∀ a, here a → -8 < owed a →
              (∀ b, here b → owed b ≤ -8 ∨ owed a < owed b ∨ (owed a = owed b ∧ a ≤ b)) → polled a) ∧
            ((∀ b, here b → owed b ≤ -8) → m.exchange = none))))))

/-! ## The seat search and the score -/

/-- Record `t` stands beside record `r` under the spacing mode: the same row and columns one apart, and under CROSS also
the same column and rows one apart (R83). -/
def Beside (m : Spacing) (r t : Seat) : Prop :=
  (m ≠ .none ∧ t.row = r.row ∧ (t.column = r.column + 1 ∨ r.column = t.column + 1)) ∨
    (m = .cross ∧ t.column = r.column ∧ (t.row = r.row + 1 ∨ r.row = t.row + 1))

/-- A question's contribution to the raw score, from its key entry and its class (R163). -/
def contribution (asWrong : Bool) (e : KeyEntry) (g : GroupClass) : Int :=
  match e.mode, g with
  | .voidDrop, _ => 0
  | .voidAward, _ => e.weight
  | .normal, .single o => if o ∈ e.accepted then e.weight else -e.penalty
  | .normal, .multiple => -e.penalty
  | .normal, .blank => 0
  | .normal, .unclear => if asWrong then -e.penalty else 0

/-- The sheet of slot record `u`, of form `f`, passes the first six checks, with the candidate id and paper number of its
two grids (R157, R159, R160). -/
def State.readsSheet (s : State) (u : Slot) (f : Form) (id paper : Nat) : Prop :=
  u.good = true ∧ u.form ≤ 3 ∧ f.defined = true ∧ u.overrun = false ∧ u.declared = 120 + f.questions * f.options ∧
    u.white < u.black ∧ (s.profile f.grid).span ≤ u.black - u.white ∧
    readGrid (s.profile f.grid) 8 u.darks = some id ∧ readGrid (s.profile f.grid) 4 (u.darks.drop 80) = some paper

/-- Channel `c` is the one channel that is not FREE with the paper number (R159, check 7). -/
def State.papers (s : State) (paper c : Nat) : Prop :=
  c < 16 ∧ ∀ d, d < 16 → ((s.chan d).state ≠ .free ∧ (s.chan d).config.paper = paper ↔ d = c)

/-- The sheet of slot record `u`, of form `f`, passes checks 1 and 2 (R159). -/
def Slot.formed (u : Slot) (f : Form) : Prop := u.good = true ∧ u.form ≤ 3 ∧ f.defined = true

/-- The sheet passes checks 1 to 3 (R159). -/
def Slot.sized (u : Slot) (f : Form) : Prop :=
  u.formed f ∧ u.overrun = false ∧ u.declared = 120 + f.questions * f.options

/-- The calibration test of the sheet passes (R157). -/
def State.calibrates (s : State) (u : Slot) (f : Form) : Prop :=
  u.white < u.black ∧ (s.profile f.grid).span ≤ u.black - u.white

/-- The sheet passes checks 1 to 7, with candidate id, paper number and channel (R159). -/
def State.resolves (s : State) (u : Slot) (f : Form) (id paper c : Nat) : Prop := s.readsSheet u f id paper ∧ s.papers paper c

/-- The sheet passes checks 1 to 9, and stands on roster slot `k` with entry `e` (R159). -/
def State.finds (s : State) (u : Slot) (f : Form) (id paper c k : Nat) (e : Entry) : Prop :=
  s.resolves u f id paper c ∧ (s.chan c).config.form = u.form ∧ s.channelLookup id c = some (k, e)

/-- The sheet of slot record `u`, of form `f`, with every check to make, is rejected at the first of them that fails: the status
of that check, and the candidate id, channel and roster slot that its record carries (R159, R160, R162, R166). -/
inductive State.Rejects (s : State) (u : Slot) (f : Form) : Status → Option Nat → Option Nat → Option Nat → Prop where
  | badFrame : u.good = false → s.Rejects u f .badFrame none none none
  | formUnknown : u.good = true → ¬(u.form ≤ 3 ∧ f.defined = true) → s.Rejects u f .formUnknown none none none
  | overrun : u.formed f → u.overrun = true → s.Rejects u f .overrun none none none
  | wrongSize : u.formed f → u.overrun = false → u.declared ≠ 120 + f.questions * f.options →
      s.Rejects u f .formMismatch none none none
  | calFault : u.sized f → ¬s.calibrates u f → s.Rejects u f .calFault none none none
  | idUnreadable : u.sized f → s.calibrates u f → readGrid (s.profile f.grid) 8 u.darks = none →
      s.Rejects u f .idUnreadable none none none
  | paperUnreadable (id : Nat) : u.sized f → s.calibrates u f → readGrid (s.profile f.grid) 8 u.darks = some id →
      readGrid (s.profile f.grid) 4 (u.darks.drop 80) = none → s.Rejects u f .paperUnreadable (some id) none none
  | noChannel (id paper : Nat) : s.readsSheet u f id paper →
      (∀ c, c < 16 → (s.chan c).state = .free ∨ (s.chan c).config.paper ≠ paper) →
      s.Rejects u f .noChannel (some id) none none
  | wrongForm (id paper c : Nat) : s.resolves u f id paper c → (s.chan c).config.form ≠ u.form →
      s.Rejects u f .formMismatch (some id) (some c) none
  | notOnRoster (id paper c : Nat) : s.resolves u f id paper c → (s.chan c).config.form = u.form →
      s.channelLookup id c = none → s.Rejects u f .notOnRoster (some id) (some c) none
  | channelClosed (id paper c k : Nat) (e : Entry) : s.finds u f id paper c k e → (s.chan c).state = .releasing →
      s.Rejects u f .channelClosed (some id) (some c) (some k)
  | notCollected (id paper c k : Nat) (e : Entry) : s.finds u f id paper c k e → (s.chan c).state ≠ .releasing →
      e.state ≠ .collected → s.Rejects u f .notCollected (some id) (some c) (some k)
  | duplicateSheet (id paper c k : Nat) (e : Entry) : s.finds u f id paper c k e → (s.chan c).state ≠ .releasing →
      e.state = .collected → e.result ≠ .none → s.Rejects u f .duplicateSheet (some id) (some c) (some k)
  | logFull (id paper c k : Nat) (e : Entry) : s.finds u f id paper c k e → (s.chan c).state ≠ .releasing →
      e.state = .collected → e.result = .none → (∀ j, (s.chan c).stage ≠ .running j) → 256 ≤ s.log.records.length →
      s.Rejects u f .logFull (some id) (some c) (some k)

/-! ## Frames -/

/-- The parts of the state that a frame names. Left out is what a free line does at once of itself: the exchange it
sends with the mark, the note, the owed poll and the warning that go with it, and the end of a sweep or test with
nothing left to try. -/
inductive Part where
  | time
  | signals
  | hall
  | seats
  | classes
  | roster
  | channels
  | booklets
  | forms
  | profiles
  | messages
  | stations
  | presence
  | intake
  | log
  | flags
  | notices
  | responses
  | framesIn
  | badFrames
  | noticesSent
  | protectedReads
  | receiver
deriving DecidableEq, Repr

/-- The part `p` of `t` is that of `s`. A LINE_TEST_DONE, which a test with nothing left to try raises at once, is no
part of flags and notices; SHEET_RDY and what SP_TX sends are no part of the intake. -/
def Part.same (s t : State) : Part → Prop
  | .time => t.time = s.time
  | .signals => t.signals = s.signals
  | .hall => t.hall = s.hall
  | .seats => t.seats = s.seats
  | .classes => t.classes = s.classes
  | .roster => t.roster = s.roster
  | .channels => t.channels = s.channels
  | .booklets => t.booklets = s.booklets ∧ t.bookletStats = s.bookletStats
  | .forms => t.forms = s.forms
  | .profiles => t.profiles = s.profiles
  | .messages => t.messages = s.messages
  | .stations => t.stations = s.stations
  | .presence => ∀ l a, t.presence l a = s.presence l a ∧ ((t.line l).addr a).missed = ((s.line l).addr a).missed
  | .intake => t.intake.rx = s.intake.rx ∧ t.intake.slots = s.intake.slots ∧ t.intake.arrivals = s.intake.arrivals ∧
      t.intake.verdicts = s.intake.verdicts ∧ t.intake.marking = s.intake.marking ∧ t.intake.stats = s.intake.stats
  | .log => t.log = s.log
  | .flags => ∀ x, x ≠ .lineTestDone → x ≠ .noticeLost → (x ∈ t.office.flags ↔ x ∈ s.office.flags)
  | .notices => t.office.notices.filter (fun n => decide (n.subject.category ≠ .lineTestDone)) =
      s.office.notices.filter (fun n => decide (n.subject.category ≠ .lineTestDone))
  | .responses => t.office.responses = s.office.responses
  | .framesIn => t.office.stats.framesIn = s.office.stats.framesIn
  | .badFrames => t.office.stats.badFrames = s.office.stats.badFrames
  | .noticesSent => t.office.stats.noticesSent = s.office.stats.noticesSent
  | .protectedReads => t.office.stats.protectedReads = s.office.stats.protectedReads
  | .receiver => t.office.awaitQuiet = s.office.awaitQuiet ∧ t.office.resetPending = s.office.resetPending

/-- Every part but those listed, and the queue of waiting commands, is unchanged from `s` to `t`. -/
def Unchanged (but : List Part) (s t : State) : Prop :=
  t.pending = s.pending ∧ ∀ p, p ∉ but → Part.same s t p

/-- The office link takes a request: OL_RX has been quiet since the last reset, no RESET_ALL waits to act, and the
response queue has room (R177, R178, R195). -/
def State.takesRequest (s : State) : Prop :=
  s.office.awaitQuiet = false ∧ s.office.resetPending = false ∧
    s.office.responses.length < Config.responseQueueSize

/-- From `s` to `t` one request has been answered: its frame is counted and its response stands at the tail. -/
def Answered (s t : State) (tag kind : Byte) (code : Code) (payload : List Byte) : Prop :=
  t.office.responses = s.office.responses ++ [⟨tag, kind, code, payload⟩] ∧
    t.office.stats.framesIn = statUp s.office.stats.framesIn

/-- The request `c` is refused with `code`: so answered, and nothing else changed (R178). -/
def Refuses (s : State) (c : Instr) (tag kind : Byte) (code : Code) : Prop :=
  ∃ t, exec c s = .next t ∧ Answered s t tag kind code [] ∧ Unchanged [.responses, .framesIn] s t

/-! ## What a rule leaves, where two commands share it -/

/-- What the writing start of channel `c` leaves: WRITING with writing elapsed 0, and every SEATED candidate WRITING with
written seconds 0 on its seat (R41, R62). -/
def WritingStarted (s t : State) (c : Nat) : Prop :=
  (t.chan c).state = .writing ∧ (t.chan c).writeElapsed = 0 ∧
    ∀ k e, s.entry k = some e → e.channel = c → e.state = .seated →
      ∃ e', t.entry k = some e' ∧ e'.state = .writing ∧ e'.written = 0 ∧ e'.seat = e.seat

/-- What a start of channel `c` leaves: READING with reading elapsed 0 when R is above 0, else WRITING with writing
elapsed 0 and every SEATED candidate WRITING with written seconds 0 (R39, R41, R62). -/
def Started (s t : State) (c : Nat) : Prop :=
  if 0 < (s.chan c).config.reading then (t.chan c).state = .reading ∧ (t.chan c).readElapsed = 0 ∧ t.roster = s.roster
  else WritingStarted s t c

/-- What a departure from channel `c` leaves of the channels: in WRITING nothing changes; an OVERTIME channel with no writer
left becomes COLLECTING, or RECONCILED when every entry of it is then COLLECTED or ABSENT, its hold flag clear (R45, R46,
R51). -/
def DepartureTaken (s t : State) (c : Nat) : Prop :=
  let stands := t.chan c = s.chan c ∧ Part.same s t .flags ∧ Part.same s t .notices
  (∀ d, d ≠ c → t.chan d = s.chan d) ∧
    ((s.chan c).state = .writing → stands) ∧
    ((s.chan c).state = .overtime →
      if t.hasWriter c then stands
      else t.chan c = { s.chan c with state := if t.reconciles c then .reconciled else .collecting, hold := false } ∧
        Category.channelPhase ∈ t.office.flags)

/-- What a departure of slot `k` with entry `e` leaves: the finish time, no seat, the closing state (COLLECTED at once
when every booklet has already been returned), the seat CLEARING with its closing word, or FREE when the clearing
time is 0, every other seat as it was, and the channel as R45 says (R70, R91, R130). -/
def Departed (s t : State) (k : Nat) (e : Entry) (x : EntryState) (w : ClosingWord) : Prop :=
  t.entry k = some { e with
      state := if e.booklets ≠ [] ∧ e.booklets.all s.isReturned then .collected else x
      finish := some s.time.hallTime
      seat := none } ∧
    (∀ j, j ≠ k → t.entry j = s.entry j) ∧
    (∀ i, e.seat = some i → t.seat i = { s.seat i with
      occ := if s.hall.clearingTime = 0 then .free else .clearing s.hall.clearingTime
      closing := if s.hall.clearingTime = 0 then .none else w }) ∧
    (∀ i, e.seat ≠ some i → t.seat i = s.seat i) ∧ DepartureTaken s t e.channel

/-- A good REPLY from address `a` of line `l` leaves every presence as it stands, and every missed-reply count, but that of
`a` when it is PRESENT, and those of the line when its wiring test starts with the end of the exchange, which become 0 (R100,
R114). -/
def PresencesStand (s t : State) (l a : Nat) : Prop :=
  ∀ m b, t.presence m b = s.presence m b ∧
    ((t.line m).addr b).missed =
      if m = l ∧ ((s.line l).testWaits = true ∨ (b = a ∧ s.presence l a = .present)) then 0
      else ((s.line m).addr b).missed

/-- The desk or station at address `a` of line `l` is told `note`, when a note reaches it, by what a good REPLY of it has
brought about (R79, R97, R112, R113). -/
def Told (s t : State) (l a : Nat) (note : NoteContent) : Prop :=
  PresencesStand s t l a ∧ (s.reaches l a → t.noted l a note)

/-- An event in the REPLY `bytes` from address `a` of line `l` is turned away: nothing but the missed-reply count of the
desk or station changes, and it is told `note` (R64, R65, R67, R76, R89, R101, R126, R128). -/
def Turned (s : State) (l : Fin 7) (a : Nat) (bytes : List Byte) (note : NoteContent) : Prop :=
  ∃ t, exec (.lineReplyReceived l bytes) s = .next t ∧ Unchanged [.presence] s t ∧ Told s t l a note

/-- A FINISH or BREAK press at a seat that is not OCCUPIED: answered by the closing word of a CLEARING seat, and discarded
with no word, and on a FREE or HELD seat (R64). -/
def PressedElsewhere (s : State) (l : Fin 7) (a : Nat) (bytes : List Byte) : Prop :=
  let r := s.seat (seatIndex l a)
  let clearing := ∃ n, r.occ = .clearing n
  (clearing → r.closing = .timeUp → Turned s l a bytes .timeUp) ∧
    (clearing → r.closing = .finished → Turned s l a bytes .finished) ∧
    (r.occ = .free ∨ (∃ k n, r.occ = .held k n) ∨ (clearing ∧ r.closing = .none) →
      ∃ t, exec (.lineReplyReceived l bytes) s = .next t ∧ Unchanged [.presence] s t ∧ PresencesStand s t l a)

/-- A tap at the desk of seat `d` by the candidate of seat `j` is answered WRONG_SEAT with the place of `j`, counted on the
line, and changes nothing else (R89). -/
def TappedElsewhere (s : State) (l : Fin 7) (a : Nat) (bytes : List Byte) (j : Nat) : Prop :=
  ∃ t, exec (.lineReplyReceived l bytes) s = .next t ∧ Unchanged [.presence] s t ∧
    Told s t l a (.wrongSeat (s.seat j).row (s.seat j).column) ∧
    (t.line l).stats.wrongSeat = statUp (s.line l).stats.wrongSeat

/-! ## Exchanges (R99, R100, R121) -/

/-- The three outcomes of an exchange that calls for a reply (R99). -/
inductive Judged where
  | good
  | badCheck
  | silent
deriving DecidableEq, Repr

/-- `bytes` are a good reply to exchange `x` of line `l`: the check value correct, from the address named, of the kind
called for, with an event defined for the line after a POLL and IDLE after a DISCOVER (R99, R198). -/
def Exchange.answeredBy (x : Exchange) (l : Nat) (bytes : List Byte) : Prop :=
  ∃ kind body, readReply bytes = some (x.addr, kind, body) ∧
    match x.kind with
    | .poll => kind = 0x81 ∧ ∃ v, readEvent body = some v ∧ v.definedFor l = true
    | .discover _ => kind = 0x81 ∧ readEvent body = some .idle
    | .clock _ _ | .note _ => kind = 0x82 ∧ body = []
    | .test _ => kind = 0x85 ∧ body.length = 2
    | .broadcast _ => False

/-- Command `i` ends exchange `x` of line `l` with outcome `o` (R99). -/
def Exchange.endsBy (x : Exchange) (l : Fin 7) (i : Instr) : Judged → Prop
  | .good => ∃ bytes, i = .lineReplyReceived l bytes ∧ x.answeredBy l bytes
  | .badCheck => ∃ bytes, i = .lineReplyReceived l bytes ∧ ¬x.answeredBy l bytes
  | .silent => i = .replyWindowClose l

/-- Line `l` has counted one outcome `o`, in its own counter alone (R121). -/
def OutcomeCounted (s t : State) (l : Nat) (o : Judged) : Prop :=
  let n := (s.line l).stats
  let m := (t.line l).stats
  m.replies = (if o = .good then statUp n.replies else n.replies) ∧
    m.badCheck = (if o = .badCheck then statUp n.badCheck else n.badCheck) ∧
    m.missed = if o = .silent then statUp n.missed else n.missed

/-- What outcome `o` of exchange `x` leaves of the presence and missed-reply count of its address: a PRESENT address counts
from 0 after a good reply, one more after any other, and becomes LOST at the third, with DESK_LOST unless the exchange is of a
wiring test, which raises none (R115; the model's reading: DEDUCED, log entry 17); one that is not PRESENT
stands (R100). A wiring test that waits for the end of the exchange then sets the counts of the line to 0 (R114). -/
def MissTaken (s t : State) (l : Nat) (x : Exchange) (o : Judged) : Prop :=
  let a := x.addr
  let missed := ((s.line l).addr a).missed
  let started := fun n : Nat => if (s.line l).testWaits then 0 else n
  let stands := fun n : Nat => t.presence l a = s.presence l a ∧ ((t.line l).addr a).missed = started n ∧
    Unchanged [.presence] s t
  (∀ m b, m ≠ l ∨ b ≠ a → t.presence m b = s.presence m b) ∧
    if s.presence l a ≠ .present then stands missed
    else if o = .good then stands 0
    else if missed < 2 then stands (missed + 1)
    else (t.line l).addr a = ⟨.lost, 0, 0, false⟩ ∧
      match x.kind with
      | .test _ => Unchanged [.presence, .seats, .roster] s t
      | _ => Category.deskLost ∈ t.office.flags ∧ Unchanged [.presence, .seats, .roster, .flags, .notices] s t

/-! ## Stations and booklets (R76, R77, R101, R124 to R129) -/

/-- The role of the stations that may send event `v` (R101). -/
def DeskEvent.sender : DeskEvent → Option Role
  | .checkin _ _ => some .entrance
  | .issue _ _ => some .issue
  | .hand _ => some .collect
  | _ => none

/-- A LOADED channel's roster holds candidate `id` (R76, check 3). -/
def State.awaitsAdmission (s : State) (id : Nat) : Prop :=
  ∃ k e, s.entry k = some e ∧ e.id = id ∧ e.channel < 16 ∧ (s.chan e.channel).state = .loaded

/-- Serial `b` passes for slot `k` with entry `e`: it stands on no other candidate, and it is on the list of `e`, or the
list and the table have room (R77, R126). -/
def State.passesBooklet (s : State) (k : Nat) (e : Entry) (b : Nat) : Prop :=
  (∀ r, mapGet s.booklets b = some r → r.owner = k) ∧
    (b ∈ e.booklets ∨ (e.booklets.length < 8 ∧ s.booklets.length < 2048))

/-- The answers to a serial `b` that does not pass, in the order of the tests (R77, R126). -/
def BookletTurned (s : State) (k : Nat) (e : Entry) (b : Nat) (turned : NoteContent → Prop) : Prop :=
  (∀ r, mapGet s.booklets b = some r → r.owner ≠ k → turned (.bookletInUse b)) ∧
    ((∀ r, mapGet s.booklets b = some r → r.owner = k) → b ∉ e.booklets →
      (8 ≤ e.booklets.length → turned (.listFull b)) ∧
        (e.booklets.length < 8 → 2048 ≤ s.booklets.length → turned (.bookletTableFull b)))

/-- The list of entry `e` once serial `b` has been accepted: `b` at its tail, unless it is 000000 or on the list (R124, R125,
R127). -/
def Entry.given (e : Entry) (b : Nat) : List Nat := if b = 0 ∨ b ∈ e.booklets then e.booklets else e.booklets ++ [b]

/-- What an accepted serial `b` leaves of the booklet table: a new entry of slot `k`, not returned and counted, unless
nothing was to be issued (R124, R125, R127). -/
def BookletIssued (s t : State) (k : Nat) (e : Entry) (b : Nat) : Prop :=
  if b = 0 ∨ b ∈ e.booklets then t.booklets = s.booklets ∧ t.bookletStats = s.bookletStats
  else mapGet t.booklets b = some ⟨k, false⟩ ∧ (∀ x, x ≠ b → mapGet t.booklets x = mapGet s.booklets x) ∧
    t.bookletStats = { s.bookletStats with issued := statUp s.bookletStats.issued }

/-- What an accepted return of serial `b`, of slot `k` with entry `e`, leaves: the serial marked and counted, the owner
COLLECTED when it has stopped writing and its whole list is in, a COLLECTING channel RECONCILED when that was its last, and
the station told the number still out and whether the owner became COLLECTED (R129, R130, R132, R133). -/
def Returned (s t : State) (a k : Nat) (e : Entry) (b : Nat) : Prop :=
  let back := fun x => decide (x = b) || s.isReturned x
  let stopped := decide (e.state = .finished) || decide (e.state = .timeUp) ||
    (decide (e.state = .missing) && decide ((s.chan e.channel).state = .reconciled))
  let collected := stopped && e.booklets.all back
  let after := if collected then EntryState.collected else e.state
  mapGet t.booklets b = some ⟨k, true⟩ ∧ (∀ x, x ≠ b → mapGet t.booklets x = mapGet s.booklets x) ∧
    t.bookletStats = { s.bookletStats with returned := statUp s.bookletStats.returned } ∧
    t.entry k = some { e with state := after } ∧ (∀ j, j ≠ k → t.entry j = s.entry j) ∧
    Told s t 6 a (.returned b (e.booklets.filter fun x => !back x).length (decide (after = .collected))) ∧
    if collected = true ∧ (s.chan e.channel).state = .collecting ∧ t.reconciles e.channel = true then
      t.chan e.channel = { s.chan e.channel with state := .reconciled } ∧
        (∀ c, c ≠ e.channel → t.chan c = s.chan c) ∧ Category.channelPhase ∈ t.office.flags ∧
        Unchanged [.booklets, .roster, .channels, .presence, .flags, .notices] s t
    else Unchanged [.booklets, .roster, .presence] s t

/-! ## Other parts -/

/-- What an amendment to the working W `w` leaves of the roster: allowed seconds recomputed for every ALLOCATED, SEATED,
WRITING or ON_BREAK entry of channel `c`, and nothing else (R59). -/
def Recomputed (s t : State) (c w : Nat) : Prop :=
  ∀ k, t.entry k = (s.entry k).map fun e =>
    if e.channel = c ∧ e.state ∈ [.allocated, .seated, .writing, .onBreak] then { e with allowed := allowedSeconds w e.percent }
    else e

/-- What a writing second leaves of the warning pending of slot `k` with entry `e`, still writing, and of the mark of its
desk, that of seat `i` (R74, R75). -/
def WarningsCounted (s t : State) (k : Nat) (e : Entry) (i : Nat) : Prop :=
  let left := e.allowed - (e.written + 1)
  let warns := (s.chan e.channel).config.warnings
  mapGet t.warnings k = (if left ∈ warns then some left else mapGet s.warnings k) ∧
    ((s.line (seatLine i)).state ≠ .quiet → left ∈ warns ∨ left % 300 = 0 →
      seatAddr i ∈ (t.line (seatLine i)).marks)

/-- What the end of a commit leaves of channel `c`: the other bank active, the generation one higher modulo 256, and both
banks as the newly active one stood (R156). -/
def Committed (s t : State) (c : Nat) : Prop :=
  (t.chan c).stage = .idle ∧ (t.chan c).generation = ((s.chan c).generation + 1) % 256 ∧
    (t.chan c).active = (match (s.chan c).active with | .a => .b | .b => .a) ∧
    (t.chan c).bank (t.chan c).active = (s.chan c).bank (t.chan c).active ∧ (t.chan c).bankA = (t.chan c).bankB

/-- The payload of a notice before its hall time: the category by its place in the table of 11.5, the kind where the
category has several, and the subject fields in that table's order (R190, R199). Four points are the model's own: the
presence of a lost desk and the writing elapsed of an amendment (DEDUCED, log entry 16), the code of ADMISSION_CLOSED (a
free value, log entry 20) and the count beside it in place of the hall time (DESIGN CHOICE, log entry 40), and the codes of
the kinds and of a hold's cause (DESIGN CHOICE, log entry 15). -/
def noticeBody : Subject → List Byte
  | .help i t k => [0#8] ++ be 2 i ++ be 3 t ++ bOpt (be 2) k
  | .seatingExpired i k => [1#8] ++ be 2 i ++ be 2 k
  | .deskLost l a p i k => [2#8] ++ b1 l ++ b1 a ++ b1 p.code ++ bOpt (be 2) i ++ bOpt (be 2) k
  | .deskBack l a i => [3#8] ++ b1 l ++ b1 a ++ bOpt (be 2) i
  | .budgetOut i k => [4#8] ++ be 2 i ++ be 2 k
  | .channelPhase c x t => [5#8] ++ b1 c ++ b1 x.code ++ be 3 t
  | .admissionClosed c n => [5#8] ++ b1 c ++ [Config.admissionClosedCode] ++ be 2 n
  | .openFailed c k => [6#8] ++ b1 c ++ be 2 k
  | .amendApplied c v e => [7#8, 0#8] ++ b1 c ++ be 2 v ++ be 2 e
  | .amendDropped c v => [7#8, 1#8] ++ b1 c ++ be 2 v
  | .refLost => [8#8]
  | .refBack => [9#8]
  | .hallHoldChange h x => [10#8, if h then 1#8 else 0#8, match x with | .pin => 0#8 | .office => 1#8]
  | .lineTestDone l p f a => [11#8] ++ b1 l ++ b1 p ++ b1 f ++ b1 a
  | .overrun mid n => [12#8, if mid then 1#8 else 0#8] ++ be 2 n
  | .logHigh n o => [13#8] ++ be 2 n ++ be 4 o
  | .logFull n o => [14#8] ++ be 2 n ++ be 4 o
  | .teardownDone c t => [15#8] ++ b1 c ++ be 3 t

/-- OL_TX sends the head of the response queue, its kind with 0x80 added (beyond one byte a free value, log entry 32), or with
none the head of the notice queue (R179, 12.4). -/
def OfficeSends (t : State) : Prop :=
  t.officeWire = match t.office.responses with
    | r :: _ => some (officeFrame (if r.kind.toNat < 0x80 then r.kind + 0x80#8 else Config.highResponseKind r.kind) r.tag
        (b1 r.code.code ++ r.payload))
    | [] => t.office.notices.head?.map fun n => officeFrame 0x40#8 0#8 (noticeBody n.subject ++ be 3 n.time)

/-! ## What a CLOCK frame tells, and the bytes of status, records and counters -/

/-- The fields that a CLOCK frame carries for the candidate `e` of slot `k` in channel record `c`: phase, remaining time and
running count by R72's table, no count while the hall or the channel is held, the budget with BREAK alone, the warning
pending, and the last four digits of the id. -/
def ClockTells (s : State) (k : Nat) (e : Entry) (x : ClockContent) : Prop :=
  let c := s.chan e.channel
  let held := s.time.holdPin || s.time.officeHold || c.hold
  let told := fun (p : Phase) (remaining : Nat) (counts : Counting) =>
    x.phase = some p ∧ x.remaining = some remaining ∧ x.counting = some (if held then .none else counts)
  x.display = .clock ∧ x.hold = some held ∧ x.warning = mapGet s.warnings k ∧ x.digits = some (e.id % 10000) ∧
    (e.state = .seated → c.state = .opened →
      told .waiting (if 0 < c.config.reading then c.config.reading else e.allowed) .none ∧ x.budget = none) ∧
    (e.state = .seated → c.state = .reading →
      told .reading (c.config.reading - c.readElapsed) .remaining ∧ x.budget = none) ∧
    (e.state = .writing → told .writing (e.allowed - e.written) .remaining ∧ x.budget = none) ∧
    (e.state = .onBreak →
      told .onBreak (e.allowed - e.written) (if e.remaining = 0 then .remaining else .budget) ∧
        x.budget = some e.remaining)

/-- The content of the CLOCK frame for seat `i` follows the occupancy of the seat (R72). -/
def ClockFollowsSeat (s : State) (i : Nat) : Prop :=
  let x := s.clockContent i
  let alone := fun d => x = ⟨d, none, none, none, none, none, none, none⟩
  match (s.seat i).occ with
  | .free => alone .blank
  | .held k _ => ∀ e, s.entry k = some e → x = ⟨.reserved, none, none, none, none, none, none, some (e.id % 10000)⟩
  | .clearing _ => match (s.seat i).closing with
    | .timeUp => alone .timeUp
    | .finished => alone .finished
    | .none => alone .blank
  | .occupied k => ∀ e, s.entry k = some e → ClockTells s k e x

/-- The payload of READ_STATUS, item by item in the order of R191; the codes READY 0 and NOT_READY 1, and the hold condition
with its cause in one byte, are DESIGN CHOICES (log entry 15). -/
def statusPayload (s : State) : List Byte :=
  [if s.office.ready then 0#8 else 1#8] ++
    [match s.time.holdPin, s.time.officeHold with
      | false, false => 0#8
      | true, false => 1#8
      | false, true => 2#8
      | true, true => 3#8] ++
    [match s.time.refState with | .acquiring => 0#8 | .good => 1#8 | .lost => 2#8] ++
    be 3 s.time.hallTime ++
    ([0, 1, 2, 3, 4, 5, 6].flatMap fun l => b1 (s.line l).state.code) ++
    ((List.range 16).flatMap fun c => b1 (s.chan c).state.code) ++
    be 2 s.log.records.length ++
    b1 (([0, 1, 2, 3].filter fun n => decide ((s.intake.slot n).state ≠ .empty)).length) ++
    (let committing := (List.range 16).filter fun c => decide ((s.chan c).stage ≠ .idle)
     b1 committing.length ++ committing.flatMap b1)

/-- The 52 bytes of a result record by the offsets of 12.5: offset 0 to 21, then the score fields, zero where the record has
none. -/
def recordPayload (r : ResultRecord) : List Byte :=
  let bit := fun (w : Nat) (b : Bool) => if b then w else 0
  be 4 r.number ++ be 2 r.sheet ++ be 3 r.time ++ b1 r.verdict.code ++ b1 r.status.code ++
    (match r.score with
      | some x => b1 (bit 1 r.late + bit 2 x.clamped + bit 4 x.noMax + bit 8 x.truncated)
      | none => b1 (bit 1 r.late)) ++
    b1 (bit 1 r.channel.isSome + bit 2 r.id.isSome + bit 4 r.slot.isSome + bit 8 r.seat.isSome + bit 16 r.score.isSome) ++
    b1 (r.channel.getD 0) ++ packed 4 (r.id.getD 0) ++ be 2 (r.slot.getD 0) ++ be 2 (r.seat.getD 0) ++
    match r.score with
    | some x => b1 x.generation ++ be 2 x.final ++ be 2 x.maximum ++ be 2 x.perMille ++ b1 x.correct ++ b1 x.wrong ++
        b1 x.multiple ++ b1 x.blank ++ b1 x.unclear ++ b1 x.void ++ b1 x.unclearList.length ++
        (x.unclearList.take 16).flatMap b1 ++ List.replicate (16 - x.unclearList.length) 0#8
    | none => List.replicate 30 0#8

/-- The counters that READ_STATS answers with for group `g`, each in 4 bytes in the order of its table: a line (R121), the
sheet port (R147), the booklet register (R135), the office link with the request's own frame counted (R193). -/
def countersAnswered (s : State) (g : Nat) : List Byte :=
  let counters := match g with
    | 7 => let n := s.intake.stats
      [n.sheets, n.startOverruns, n.midOverruns, n.badCrc, n.calFaults, n.lateVerdicts, n.logFull]
    | 8 => [s.bookletStats.issued, s.bookletStats.returned, s.bookletStats.duplicate]
    | 9 => let n := s.office.stats
      [statUp n.framesIn, n.badFrames, n.noticesSent, n.noticesDropped, n.protectedReads]
    | l => let n := (s.line l).stats
      [n.polls, n.replies, n.missed, n.badCheck, n.latePolls, n.clockFrames, n.notesSent, n.notesDropped, n.wrongSeat]
  counters.flatMap (be 4)

/-- A desk message with the one note to address `a` of line `l`: queued or dropped, and answered with the two counts
(R112, R185). -/
def MessageGoes (s : State) (tag : Byte) (target : DeskTarget) (m l a : Nat) : Prop :=
  ∃ t, exec (.deskMessage tag target m) s = .next t ∧
    Answered s t tag 0x0A#8 .ok (if (s.line l).takesNote then be 2 1 ++ be 2 0 else be 2 0 ++ be 2 1) ∧
    ((s.line l).exchange ≠ none → (t.line l).fifo = (s.line l).fifo ++
      if (s.line l).takesNote then [⟨a, .message (s.message m)⟩] else []) ∧
    Unchanged [.responses, .framesIn] s t

/-- Seat `i` is OCCUPIED by an entry of channel `c` (R185). -/
def State.occupiedBy (s : State) (i c : Nat) : Bool :=
  match (s.seat i).occ with
  | .occupied k => (s.entry k).any fun e => decide (e.channel = c)
  | _ => false

end Sys2Proof.Machine
end

