-- ==== Sys2Proof/Certificates/Slice0/Obligations.lean ====
section
/-! DEFINITION. The statements for the provers. Hypotheses speak of the state and the operands alone; each conclusion
says that the command answers a next state and what that state holds. -/

open Sys2Proof Sys2Proof.Machine

/-! ## The queue and the reset -/

/-- A step takes the command at the front of the queue and runs it with the queue's rest; on an empty queue the block
idles. The queue is the model's own (log entry 1). -/
def Obligations.StepRunsTheFrontCommand : Prop :=
  (∀ (c : Instr) (rest : List Instr) (s : State), s.pending = c :: rest → step s = exec c { s with pending := rest }) ∧
    ∀ s : State, s.pending = [] → step s = .next s

/-- POWER_ON puts every block at its power-on values: hall time 0, ACQUIRING, no hold, the default hall settings, every
seat unconfigured and FREE, every slot free, every channel FREE with the default configuration, the log empty with next
number 1 and armed, every flag clear, the notice and response queues empty, the office and sheet counters 0, every
presence ABSENT, the booklet table empty, and NOT_READY with SHEET_RDY deasserted. Three points are the model's own: the
waiting commands stand, for the queue is the model's (log entry 1); the HOLDIN sample phase at reset is 0 (DESIGN CHOICE,
log entry 8); and the sweeps of the lines, with no address configured, have ended at once (log entry 22). -/
def Obligations.PowerOnPutsEveryBlockAtItsPowerOnValues : Prop :=
  ∀ s : State, exec .powerOn s = .next { State.reset with pending := s.pending } ∧
    State.reset.time = ⟨0, 0, none, 0, none, .acquiring, 0, 0, 0, 0, false, 0, false⟩ ∧
    State.reset.hall = ⟨[250, 250, 250, 250, 250, 250], 100, 300, 120, 400, 192, []⟩ ∧
    (∀ i, State.reset.seat i = ⟨false, 0, 0, false, true, .free, .none, none⟩) ∧ (∀ k, State.reset.entry k = none) ∧
    (∀ c, (State.reset.chan c).state = .free ∧ (State.reset.chan c).config = ChanConfig.blank) ∧
    (∀ l a, State.reset.presence l a = .absent) ∧ State.reset.booklets = [] ∧
    State.reset.log = ⟨[], 1, true⟩ ∧ State.reset.office.flags = [] ∧ State.reset.office.notices = [] ∧
    State.reset.office.responses = [] ∧ State.reset.office.stats = ⟨0, 0, 0, 0, 0⟩ ∧ State.reset.office.ready = false ∧
    State.reset.intake.ready = false ∧ State.reset.intake.stats = ⟨0, 0, 0, 0, 0, 0, 0⟩

/-! ## The time base -/

/-- A 1 ms tick that brings no second tick, no change of the hold level and no missing edge: the prescaler restarts, the
divider counts, the hold input is sampled on the tenth tick, every WAITING or SCORING slot ages, a running commit counts,
and every line's interval timer counts: below its length it rises by one, and at its length it restarts with the length
the hall settings then give. (The timer of a free WAKING or TESTING line is left out: such a line may restart it at once.) -/
def Obligations.Tick1msCounts : Prop :=
  ∀ (low : Bool) (at' : Nat) (o : TickOrder) (s : State),
    let b := s.time.toTick.divide.debounce low
    b.dividerDue = false → b.pinDue = false → b.missingTimer < Config.missingEdgeClocks →
    ∃ t, exec (.tick1ms low at' o) s = .next t ∧ t.time = b ∧ b.prescaler = 0 ∧ b.divider = s.time.divider + 1 ∧
      b.hallTime = s.time.hallTime ∧
      (∀ n, n < 4 → (t.intake.slot n).age =
        if (s.intake.slot n).state = .waiting ∨ (s.intake.slot n).state = .scoring
        then satUp 65535 (s.intake.slot n).age else (s.intake.slot n).age) ∧
      (∀ c n, c < 16 → (s.chan c).stage = .running n → n + 1 < 20 → (t.chan c).stage = .running (n + 1)) ∧
      (∀ c, (t.chan c).state = (s.chan c).state ∧ (t.chan c).writeElapsed = (s.chan c).writeElapsed) ∧
      (∀ l, l < 7 → (s.line l).exchange ≠ none ∨ (s.line l).state = .active ∨ (s.line l).state = .quiet →
        if (s.line l).timer + 1 < (s.line l).interval then
          (t.line l).timer = (s.line l).timer + 1 ∧ (t.line l).interval = (s.line l).interval
        else (t.line l).timer = 0 ∧ (t.line l).interval = s.pollInterval l) ∧
      Unchanged [.time, .channels, .intake] s t

/-- DIVIDER_TICK, when the divider owes it, makes a second tick: hall time advances by one second and wraps after
86 399, the divider restarts, every pending signal write is applied; when none is owed nothing happens (log entry 2). To a
channel whose clock can run the second is held, and adds to the hold seconds alone, when the hall or the channel is held;
else, for one WRITING or in OVERTIME, it is a writing second and adds one to writing elapsed. However the second tick comes
(DIVIDER_TICK, TICK_1MS, REFSEC_EDGE), each channel counts its held, reading or writing second, with the writing start at
R, and each signal line sets its output from its condition, alternating in FLASH mode. The condition of a channel is what
R30 lists: FINAL from the smallest warning offset before base end. -/
def Obligations.DividerTickAdvancesHallTimeAndIsClassified : Prop :=
  (∀ (o : TickOrder) (s : State),
    ∃ t, exec (.dividerTick o) s = .next t ∧
      if s.time.dividerDue then
        t.time = { s.time with
          hallTime := if s.time.hallTime < 86399 then s.time.hallTime + 1 else 0
          divider := 0 } ∧
        (∀ n, n < 8 → (t.signal n).pending = none ∧
          (t.signal n).entry = (s.signal n).pending.getD (s.signal n).entry) ∧
        Unchanged [.time, .signals, .seats, .roster, .channels, .flags, .notices] s t
      else Unchanged [] s t) ∧
  (∀ (o : TickOrder) (s : State) (c : Nat), s.canonical = true → c < 16 → s.time.dividerDue = true →
    ((s.chan c).state.hasClock = true → (s.time.held || (s.chan c).hold) = true →
      ∃ t, exec (.dividerTick o) s = .next t ∧
        t.chan c = { s.chan c with holdSeconds := satUp 86399 (s.chan c).holdSeconds }) ∧
    ((s.chan c).state = .writing ∨ (s.chan c).state = .overtime → (s.time.held || (s.chan c).hold) = false →
      ∃ t, exec (.dividerTick o) s = .next t ∧ (t.chan c).writeElapsed = (s.chan c).writeElapsed + 1 ∧
        (t.chan c).holdSeconds = (s.chan c).holdSeconds)) ∧
  (∀ (i : Instr) (s : State), s.secondBy i →
    ∃ t, exec i s = .next t ∧ t.time.hallTime = nextHallTime s.time.hallTime ∧ t.time.divider = 0 ∧
      (s.canonical = true → s.seatsAgree = true →
        (∀ c, c < 16 → ChannelCounted s t c) ∧ ∀ n, n < 8 → SignalDriven s t n)) ∧
  ∀ (s : State) (c : Nat), let ch := s.chan c
    (s.channelCondition c .reading = true ↔ ch.state = .reading) ∧
      (s.channelCondition c .writing = true ↔ ch.state = .writing ∨ ch.state = .overtime) ∧
      (s.channelCondition c .final = true ↔ ch.state = .writing ∧ ∃ n ∈ ch.config.warnings,
        (∀ m ∈ ch.config.warnings, n ≤ m) ∧ ch.length ≤ ch.writeElapsed + n) ∧
      (s.channelCondition c .overtime = true ↔ ch.state = .overtime) ∧
      (s.channelCondition c .held = true ↔ ch.state.hasClock = true ∧ (ch.hold = true ∨ s.time.held = true))

/-- Edges on REFSEC, with no missing-edge judgement due by the clock of the edge. The first after a reset or a missing edge
opens a period and judges nothing. One that closes a good period while ACQUIRING or GOOD makes the reference GOOD with no
bad judgement standing; with the divider at 500 or more it makes a second tick, and below 500 it only restarts the divider.
While LOST a good judgement is counted, and the fifth in a row makes the reference GOOD with REF_BACK. A bad one while
ACQUIRING or GOOD is counted, and the third in a row makes it LOST with REF_LOST, and with a tick at once when it was GOOD
with the divider at 1000 or more; while LOST it restarts the count of good ones. An edge at a prescaler count already past
is taken as now, and a judgement due at the edge's own clock is made first: both DESIGN CHOICES of log entry 7. What becomes
of the count of the other kind where R21 to R23 do not say is log entry 35 (DESIGN CHOICE). -/
def Obligations.EdgesOpenPeriodsAndTickFromTheDividersHalf : Prop :=
  ∀ (phase : Nat) (o : TickOrder) (s : State),
    s.time.missingTimer + s.clocksTo phase < Config.missingEdgeClocks →
    (s.time.openPeriod = none →
      ∃ t, exec (.refsecEdge phase o) s = .next t ∧
        t.time = { s.time with
          prescaler := s.time.prescaler + s.clocksTo phase
          openPeriod := some 0
          missingTimer := 0 } ∧ Unchanged [.time] s t) ∧
    ∀ p, s.time.openPeriod = some p →
      let closed : TimeBase := { s.time with
        prescaler := s.time.prescaler + s.clocksTo phase
        openPeriod := some 0
        missingTimer := 0
        lastPeriod := some (p + s.clocksTo phase) }
      (periodGood (p + s.clocksTo phase) = true → s.time.refState ≠ .lost →
        ∃ t, exec (.refsecEdge phase o) s = .next t ∧ t.time.refState = .good ∧ t.time.bad = 0 ∧ t.time.divider = 0 ∧
          t.time.lastPeriod = some (p + s.clocksTo phase) ∧ t.time.openPeriod = some 0 ∧ t.time.missingTimer = 0 ∧
          t.time.hallTime =
            (if 500 ≤ s.time.divider then (if s.time.hallTime < 86399 then s.time.hallTime + 1 else 0)
            else s.time.hallTime) ∧
          (s.time.divider < 500 → Unchanged [.time] s t)) ∧
      (periodGood (p + s.clocksTo phase) = true → s.time.refState = .lost →
        ∃ t, exec (.refsecEdge phase o) s = .next t ∧
          if s.time.good + 1 < 5 then t.time = { closed with good := s.time.good + 1 } ∧ Unchanged [.time] s t
          else t.time.refState = .good ∧ t.time.bad = 0 ∧ t.time.divider = 0 ∧ Category.refBack ∈ t.office.flags ∧
            t.time.hallTime = (if 500 ≤ s.time.divider then nextHallTime s.time.hallTime else s.time.hallTime) ∧
            (s.time.divider < 500 → Unchanged [.time, .flags, .notices] s t)) ∧
      (periodGood (p + s.clocksTo phase) = false → s.time.refState = .lost →
        ∃ t, exec (.refsecEdge phase o) s = .next t ∧ t.time = { closed with good := 0 } ∧ Unchanged [.time] s t) ∧
      (periodGood (p + s.clocksTo phase) = false → s.time.refState ≠ .lost →
        ∃ t, exec (.refsecEdge phase o) s = .next t ∧
          if s.time.bad + 1 < 3 then
            t.time = { closed with bad := s.time.bad + 1, good := 0 } ∧ Unchanged [.time] s t
          else t.time.refState = .lost ∧ t.time.good = 0 ∧ Category.refLost ∈ t.office.flags ∧
            if s.time.refState = .good ∧ 1000 ≤ s.time.divider then
              t.time.hallTime = nextHallTime s.time.hallTime ∧ t.time.divider = 0
            else t.time.hallTime = s.time.hallTime ∧ Unchanged [.time, .flags, .notices] s t)

/-- A missing edge is a bad judgement: the period is discarded and the timer restarts; the third bad judgement in a row
makes the reference LOST and sets the REF_LOST flag; while LOST it restarts the count of good ones. A divider at 1000 or
more when GOOD is left is held aside in the first clause; where the third judgement falls inside the millisecond before a
TICK_1MS it makes its one tick at its own clock, and the divider counts that millisecond alone. That the good count restarts
before LOST, and that the bad count stands in LOST, is log entry 35 (DESIGN CHOICE). -/
def Obligations.MissingEdgeIsABadJudgement : Prop :=
  (∀ (o : TickOrder) (s : State) (n : Nat), s.time.missingIn = some n → s.time.missingTimer ≤ Config.missingEdgeClocks →
    (s.time.refState ≠ .lost → s.time.divider < 1000 →
      ∃ t, exec (.missingEdgeJudgement o) s = .next t ∧ t.time.openPeriod = none ∧ t.time.missingTimer = 0 ∧
        t.time.bad = s.time.bad + 1 ∧ t.time.good = 0 ∧ t.time.hallTime = s.time.hallTime ∧
        t.time.refState = (if 3 ≤ s.time.bad + 1 then .lost else s.time.refState) ∧
        (3 ≤ s.time.bad + 1 → Category.refLost ∈ t.office.flags) ∧ Unchanged [.time, .flags, .notices] s t) ∧
    (s.time.refState = .lost →
      ∃ t, exec (.missingEdgeJudgement o) s = .next t ∧
        t.time = { s.time with
          prescaler := s.time.prescaler + n
          openPeriod := none
          missingTimer := 0
          good := 0 } ∧ Unchanged [.time] s t)) ∧
  ∀ (low : Bool) (at' : Nat) (o : TickOrder) (s : State) (n : Nat), s.time.missingIn = some n →
    s.time.missingTimer ≤ Config.missingEdgeClocks → s.time.refState = .good → s.time.bad = 2 → 1000 ≤ s.time.divider →
    ∃ t, exec (.tick1ms low at' o) s = .next t ∧ t.time.refState = .lost ∧ Category.refLost ∈ t.office.flags ∧
      t.time.hallTime = nextHallTime s.time.hallTime ∧ t.time.divider = 1

/-- The two inputs of the hall-held condition. HOLDIN_CHANGE: the third differing sample changes the debounced level and
clears its count; TICK_1MS takes that change where its sample is the third. HALL_HOLD sets the office hold flag and
HALL_RESUME clears it, each answered OK in any state of the flag. When the hall-held condition changes the
HALL_HOLD_CHANGE flag is set; else no flag and no notice. -/
def Obligations.HallHeldFollowsThePinAndTheOffice : Prop :=
  ∀ s : State,
    (s.time.pinDue = true →
      ∃ t, exec .holdinChange s = .next t ∧ t.time = { s.time with holdPin := !s.time.holdPin, holdCount := 0 } ∧
        (s.time.officeHold = false →
          Category.hallHoldChange ∈ t.office.flags ∧ Unchanged [.time, .flags, .notices] s t) ∧
        (s.time.officeHold = true → Unchanged [.time] s t)) ∧
    (∀ (low : Bool) (at' : Nat) (o : TickOrder), s.time.samplePhase = 9 → 2 ≤ s.time.holdCount → low ≠ s.time.holdPin →
      ∃ t, exec (.tick1ms low at' o) s = .next t ∧ t.time.holdPin = low ∧ t.time.holdCount = 0 ∧
        t.time.samplePhase = 0 ∧ (s.time.officeHold = false → Category.hallHoldChange ∈ t.office.flags)) ∧
    ∀ (tag : Byte) (h : Bool), s.takesRequest →
      ∃ t, exec (if h then .hallHold tag else .hallResume tag) s = .next t ∧ Answered s t tag 0x03#8 .ok [] ∧
        t.time = { s.time with officeHold := h } ∧
        Unchanged [.time, .flags, .notices, .responses, .framesIn] s t ∧
        ((s.time.holdPin || h) ≠ s.time.held → Category.hallHoldChange ∈ t.office.flags) ∧
        ((s.time.holdPin || h) = s.time.held → Unchanged [.time, .responses, .framesIn] s t)

/-- HALL_TIME_SET replaces hall time and no more, so that the next second tick adds one to the value written; it refuses
a value of 86 400 or more with RANGE. -/
def Obligations.HallTimeSetReplacesHallTime : Prop :=
  ∀ (tag : Byte) (v : Nat) (s : State), s.takesRequest →
    ∃ t, exec (.hallTimeSet tag v) s = .next t ∧
      if v < 86400 then
        Answered s t tag 0x03#8 .ok [] ∧ t.time = { s.time with hallTime := v } ∧
          t.time.second.hallTime = (if v < 86399 then v + 1 else 0) ∧ Unchanged [.time, .responses, .framesIn] s t
      else Answered s t tag 0x03#8 .range [] ∧ Unchanged [.responses, .framesIn] s t

/-! ## Sitting channels -/

/-- CHANNEL_LOAD of a FREE channel whose form and profile are defined and whose paper number no other loaded channel
has: the channel becomes LOADED with the runtime fields at load and its configuration kept. -/
def Obligations.ChannelLoadMakesLoaded : Prop :=
  ∀ (tag : Byte) (c : Nat) (s : State), s.takesRequest → c ≤ 15 → (s.chan c).state = .free →
    (s.form (s.chan c).config.form).defined = true → (s.profile (s.chan c).config.profile).defined = true →
    (∀ d, d < 16 → d ≠ c → (s.chan d).state ≠ .free → (s.chan d).config.paper ≠ (s.chan c).config.paper) →
    ∃ t, exec (.channelLoad tag c) s = .next t ∧ Answered s t tag 0x03#8 .ok [] ∧
      t.chan c = ⟨(s.chan c).config, .loaded, (s.chan c).config.writing, 0, 0, false, false, false, 0, none, .a, 0, .idle, [], [],
        []⟩ ∧
      (∀ d, d ≠ c → t.chan d = s.chan d) ∧ Category.channelPhase ∈ t.office.flags ∧
      Unchanged [.channels, .flags, .notices, .responses, .framesIn] s t

/-- An admission attempt on a LOADED channel, by CHANNEL_OPEN, at its admission time with a second tick in hand, or at a
second tick that reaches that time: with no conflicting slot the channel becomes OPEN; with one it stays LOADED, the
command answers CONFLICT with the slot, and the timed attempt marks admission spent and raises OPEN_FAILED. Of two channels
due at one tick that share a candidate id the lower opens and the higher fails. A second tick takes the channels in ascending
number, so that a channel above this one that leaves the active set at that tick still counts against this one's attempt:
R38 orders timed attempts alone, and the rest is the model's choice (DESIGN CHOICE, log entry 29). With no second tick in hand
TIMED_ADMISSION changes nothing (R40; the row's form is log entry 2). -/
def Obligations.AdmissionAttemptOpensOrFails : Prop :=
  ∀ (tag : Byte) (c : Nat) (s : State), c ≤ 15 → (s.chan c).state = .loaded →
    (s.takesRequest →
      ∃ t, exec (.channelOpen tag c) s = .next t ∧ (∀ d, d ≠ c → t.chan d = s.chan d) ∧
        match s.conflictSlot c with
        | none => Answered s t tag 0x03#8 .ok [] ∧ t.chan c = { s.chan c with state := .opened } ∧
            Unchanged [.channels, .flags, .notices, .responses, .framesIn] s t
        | some k => Answered s t tag 0x03#8 .conflict (be 2 k) ∧ Unchanged [.responses, .framesIn] s t) ∧
    (s.admissionDue c = true →
      ∃ t, exec (.timedAdmission c) s = .next t ∧ (∀ d, d ≠ c → t.chan d = s.chan d) ∧
        Unchanged [.channels, .flags, .notices] s t ∧
        match s.conflictSlot c with
        | none => t.chan c = { s.chan c with state := .opened } ∧ Category.channelPhase ∈ t.office.flags
        | some _ => t.chan c = { s.chan c with spent := true } ∧ Category.openFailed ∈ t.office.flags) ∧
    (s.ticking = none → ∃ t, exec (.timedAdmission c) s = .next t ∧ Unchanged [] s t) ∧
    ∀ i, s.secondBy i → s.canonical = true → s.admitsSecond c = true →
      ((∀ d, d < c → (s.chan d).state ∉ [.loaded, .writing, .overtime]) →
        ∃ t, exec i s = .next t ∧
          match s.conflictSlot c with
          | none => (t.chan c).state = .opened ∧ Category.channelPhase ∈ t.office.flags
          | some _ => (t.chan c).state = .loaded ∧ (t.chan c).spent = true ∧ Category.openFailed ∈ t.office.flags) ∧
      ∀ d k k' e e', c < d → d ≤ 15 → s.admitsSecond d = true →
        (∀ x, x ≠ c → x ≠ d → (s.chan x).state.isActive = false ∧ (s.chan x).state ≠ .loaded) →
        s.entry k = some e → e.channel = c → s.entry k' = some e' → e'.channel = d → e'.id = e.id →
        ∃ t, exec i s = .next t ∧ (t.chan c).state = .opened ∧ (t.chan d).state = .loaded ∧ (t.chan d).spent = true ∧
          Category.openFailed ∈ t.office.flags

/-- A start of an OPEN channel, by CHANNEL_START, at its start time with a second tick in hand, or at a second tick that
reaches that time; and the writing start, when the reading elapsed of a READING channel has reached R or reaches it by a
reading second: at the writing start the channel becomes WRITING with writing elapsed 0, and every SEATED candidate of it
WRITING with written seconds 0. With no second tick in hand TIMED_START changes nothing (R40; the row's form is log entry
2). -/
def Obligations.StartsMoveAChannelToReadingOrWriting : Prop :=
  ∀ (tag : Byte) (c : Nat) (s : State), s.canonical = true →
    ((s.chan c).state = .opened → c ≤ 15 → s.takesRequest →
      ∃ t, exec (.channelStart tag c) s = .next t ∧ Answered s t tag 0x03#8 .ok [] ∧ Started s t c ∧
        Unchanged [.channels, .roster, .flags, .notices, .responses, .framesIn] s t) ∧
    (s.startDue c = true → ∃ t, exec (.timedStart c) s = .next t ∧ Started s t c ∧
      Unchanged [.channels, .roster, .flags, .notices] s t) ∧
    (s.ticking = none → ∃ t, exec (.timedStart c) s = .next t ∧ Unchanged [] s t) ∧
    ((s.chan c).state = .reading → (s.chan c).config.reading ≤ (s.chan c).readElapsed →
      ∃ t, exec (.writingStart c) s = .next t ∧ WritingStarted s t c ∧
        (∀ k e, s.entry k = some e → e.channel ≠ c → t.entry k = some e) ∧
        Category.channelPhase ∈ t.office.flags ∧ Unchanged [.channels, .roster, .flags, .notices] s t) ∧
    ∀ i, s.secondBy i → s.seatsAgree = true → c ≤ 15 →
      (s.startsSecond c = true →
        ∃ t, exec i s = .next t ∧ Category.channelPhase ∈ t.office.flags ∧
          if 0 < (s.chan c).config.reading then
            (t.chan c).state = .reading ∧ (t.chan c).readElapsed = 0 ∧
              ∀ k e, s.entry k = some e → e.channel = c → e.state = .seated → t.entry k = some e
          else WritingStarted s t c) ∧
      (s.readsSecond c = true → (s.chan c).config.reading ≤ (s.chan c).readElapsed + 1 →
        ∃ t, exec i s = .next t ∧ WritingStarted s t c ∧ Category.channelPhase ∈ t.office.flags)

/-- Amendments of the writing length of a channel at writing elapsed e. Both commands are refused WRONG_PHASE on a channel
neither READING nor WRITING. AMEND_NOW on a READING or WRITING channel: TOO_LATE with nothing changed when e + 60 is above
14 400; else W becomes the requested value brought into 600 to 14 400, or e + 60 when that is larger, a pending amendment is
cancelled, and the answer is OK, or CLAMPED when the applied length differs, with the applied length. AMEND_AT_MINUTE stores
the value brought into 600 to 14 400 as the pending amendment. A pending amendment that falls due at a whole minute is
dropped when it is too late, else applied by the same rule, whether DEFERRED_AMENDMENT or the writing second that reaches
the minute takes it. An amendment applied recomputes the allowed seconds of every ALLOCATED, SEATED, WRITING or ON_BREAK
entry of the channel, and of no other. -/
def Obligations.AmendmentsSetTheWritingLength : Prop :=
  ∀ (tag : Byte) (c v : Nat) (s : State),
    (s.takesRequest → c ≤ 15 → (s.chan c).state ≠ .reading → (s.chan c).state ≠ .writing →
      Refuses s (.amendNow tag c v) tag 0x03#8 .wrongPhase ∧
        Refuses s (.amendAtMinute tag c v) tag 0x03#8 .wrongPhase) ∧
    (s.takesRequest → c ≤ 15 → (s.chan c).state = .reading ∨ (s.chan c).state = .writing →
      (∃ t, exec (.amendNow tag c v) s = .next t ∧
        let w := max (max 600 (min 14400 v)) ((s.chan c).writeElapsed + 60)
        if 14400 < (s.chan c).writeElapsed + 60 then
          Answered s t tag 0x03#8 .tooLate [] ∧ Unchanged [.responses, .framesIn] s t
        else
          Answered s t tag 0x03#8 (if w = v then .ok else .clamped) (be 2 w) ∧
            t.chan c = { s.chan c with length := w, amendment := none } ∧ Category.amend ∈ t.office.flags ∧
            (s.canonical = true → Recomputed s t c w) ∧
            Unchanged [.channels, .roster, .flags, .notices, .responses, .framesIn] s t) ∧
      ∃ t, exec (.amendAtMinute tag c v) s = .next t ∧
        let w := max 600 (min 14400 v)
        Answered s t tag 0x03#8 (if w = v then .ok else .clamped) [] ∧
          (t.chan c).amendment.map Amendment.length = some w ∧ (t.chan c).length = (s.chan c).length ∧
          (t.chan c).state = (s.chan c).state ∧ Unchanged [.channels, .responses, .framesIn] s t) ∧
    ∀ a, (s.chan c).amendment = some a →
      (s.amendmentDue c = true →
        ∃ t, exec (.deferredAmendment c) s = .next t ∧
          t.chan c = { s.chan c with
            amendment := none
            length := if 14400 < (s.chan c).writeElapsed + 60 then (s.chan c).length
              else max a.length ((s.chan c).writeElapsed + 60) } ∧
          (if 14400 < (s.chan c).writeElapsed + 60 then t.roster = s.roster
            else s.canonical = true → Recomputed s t c (max a.length ((s.chan c).writeElapsed + 60))) ∧
          Category.amend ∈ t.office.flags ∧ Unchanged [.channels, .roster, .flags, .notices] s t) ∧
      ∀ i, s.secondBy i → s.canonical = true → s.seatsAgree = true → c ≤ 15 → s.writesSecond c = true →
        ((s.chan c).writeElapsed + 1) % 60 = 0 →
        ∃ t, exec i s = .next t ∧ (t.chan c).amendment = none ∧ Category.amend ∈ t.office.flags ∧
          (t.chan c).length = if 14400 < (s.chan c).writeElapsed + 61 then (s.chan c).length
            else max a.length ((s.chan c).writeElapsed + 61)

/-- Admission closes: ADMISSION_CLOSE of a WRITING channel whose writing elapsed stands above L, and the writing second
that brings it above L or reaches base end. Every EXPECTED or ALLOCATED entry of the channel becomes ABSENT with no seat. -/
def Obligations.AdmissionCloseMakesTheMissingAbsent : Prop :=
  ∀ (c : Nat) (s : State), s.canonical = true →
    (s.closeDue c = true → (s.chan c).closed = false →
      ∃ t, exec (.admissionClose c) s = .next t ∧ t.chan c = { s.chan c with closed := true } ∧
        (∀ k e, s.entry k = some e → e.channel = c → e.state = .expected ∨ e.state = .allocated →
          t.entry k = some { e with state := .absent, seat := none }) ∧
        (∀ k e, s.entry k = some e → ¬(e.channel = c ∧ (e.state = .expected ∨ e.state = .allocated)) →
          t.entry k = some e) ∧
        Category.channelPhase ∈ t.office.flags ∧ Unchanged [.channels, .roster, .seats, .flags, .notices] s t) ∧
    ∀ i, s.secondBy i → s.seatsAgree = true → c ≤ 15 → s.closesSecond c = true →
      ∃ t, exec i s = .next t ∧ (t.chan c).closed = true ∧ Category.channelPhase ∈ t.office.flags ∧
        ∀ k e, s.entry k = some e → e.channel = c → e.state = .expected ∨ e.state = .allocated →
          ∃ e', t.entry k = some e' ∧ e'.state = .absent ∧ e'.seat = none

/-- Base end: BASE_END of a WRITING channel whose writing elapsed has reached W, and the writing second that reaches it.
Admission is closed, a pending amendment is dropped, and the channel becomes OVERTIME when an entry of it is WRITING or
ON_BREAK, else COLLECTING, or RECONCILED when every entry of it is then COLLECTED or ABSENT. The channel hold flag is cleared
on the way into COLLECTING, and stands in OVERTIME. -/
def Obligations.BaseEndLeavesWriting : Prop :=
  ∀ (c : Nat) (s : State), s.canonical = true →
    ((s.chan c).state = .writing → (s.chan c).length ≤ (s.chan c).writeElapsed →
      ∃ t, exec (.baseEnd c) s = .next t ∧ (t.chan c).closed = true ∧ (t.chan c).amendment = none ∧
        (t.chan c).state = (if s.hasWriter c then .overtime else if t.reconciles c then .reconciled else .collecting) ∧
        (t.chan c).hold = (s.hasWriter c && (s.chan c).hold) ∧ (∀ d, d ≠ c → t.chan d = s.chan d) ∧
        Category.channelPhase ∈ t.office.flags ∧ Unchanged [.channels, .roster, .seats, .flags, .notices] s t) ∧
    ∀ i, s.secondBy i → s.seatsAgree = true → c ≤ 15 → s.endsSecond c = true →
      ∃ t, exec i s = .next t ∧ (t.chan c).closed = true ∧ (t.chan c).amendment = none ∧
        (t.chan c).state = (if t.hasWriter c then .overtime else if t.reconciles c then .reconciled else .collecting) ∧
        (t.chan c).hold = false ∧ Category.channelPhase ∈ t.office.flags

/-- CHANNEL_HOLD and CHANNEL_RESUME set and clear the channel hold flag of an OPEN, READING, WRITING or OVERTIME channel;
in any other state they are refused WRONG_PHASE. -/
def Obligations.ChannelHoldAndResumeSetTheFlag : Prop :=
  ∀ (tag : Byte) (h : Bool) (c : Nat) (s : State), s.takesRequest → c ≤ 15 →
    ∃ t, exec (if h then .channelHold tag c else .channelResume tag c) s = .next t ∧
      if (s.chan c).state.isActive then
        Answered s t tag 0x03#8 .ok [] ∧ t.chan c = { s.chan c with hold := h } ∧
          (∀ d, d ≠ c → t.chan d = s.chan d) ∧ Unchanged [.channels, .responses, .framesIn] s t
      else Answered s t tag 0x03#8 .wrongPhase [] ∧ Unchanged [.responses, .framesIn] s t

/-- CHANNEL_CLOSE of a COLLECTING channel: every FINISHED or TIME_UP entry of it becomes MISSING, the channel becomes
RECONCILED, and the answer carries the number of entries made MISSING. -/
def Obligations.ChannelCloseMakesMissing : Prop :=
  ∀ (tag : Byte) (c : Nat) (s : State), s.canonical = true → s.takesRequest → c ≤ 15 →
    (s.chan c).state = .collecting →
    ∃ t, exec (.channelClose tag c) s = .next t ∧
      Answered s t tag 0x03#8 .ok
        (be 2 (s.slotsIn c fun x => decide (x = .finished) || decide (x = .timeUp)).length) ∧
      (t.chan c).state = .reconciled ∧
      (∀ k e, s.entry k = some e → e.channel = c → e.state = .finished ∨ e.state = .timeUp →
        t.entry k = some { e with state := .missing }) ∧
      (∀ k e, s.entry k = some e → ¬(e.channel = c ∧ (e.state = .finished ∨ e.state = .timeUp)) →
        t.entry k = some e) ∧
      Unchanged [.channels, .roster, .flags, .notices, .responses, .framesIn] s t

/-- CHANNEL_TEARDOWN: a LOADED channel becomes FREE at once with its configuration and histogram kept and its slots
freed; a RECONCILED one becomes RELEASING, or FREE when its teardown gate is open. -/
def Obligations.ChannelTeardownFreesOrReleases : Prop :=
  ∀ (tag : Byte) (c : Nat) (s : State), s.canonical = true → s.takesRequest → c ≤ 15 →
    (s.chan c).state = .loaded ∨ (s.chan c).state = .reconciled →
    ∃ t, exec (.channelTeardown tag c) s = .next t ∧ Answered s t tag 0x03#8 .ok [] ∧
      (t.chan c).config = (s.chan c).config ∧ (t.chan c).histogram = (s.chan c).histogram ∧
      (if (s.chan c).state = .loaded ∨ s.gateOpen c then
        (t.chan c).state = .free ∧ (t.chan c).bankA = [] ∧ (t.chan c).bankB = [] ∧ (t.chan c).stage = .idle ∧
          Category.teardownDone ∈ t.office.flags ∧
          ∀ k e, s.entry k = some e → t.entry k = if e.channel = c then none else some e
      else (t.chan c).state = .releasing ∧ t.roster = s.roster) ∧
      Unchanged [.channels, .roster, .booklets, .seats, .flags, .notices, .responses, .framesIn] s t

/-! ## Candidate clocks -/

/-- Allowed seconds: W, plus W × p ÷ 100 rounded up, brought up to a multiple of 60. With p 0 they are W. -/
def Obligations.AllowedSecondsRoundUpToWholeMinutes : Prop :=
  ∀ w p : Nat, allowedSeconds w 0 = w ∧
    ∃ m, allowedSeconds w p = w + 60 * m ∧ w * p ≤ 6000 * m ∧ ∀ n, w * p ≤ 6000 * n → m ≤ n

/-- A candidate leaves its seat by TIME_UP, when its written seconds have reached its allowed seconds; by
CANDIDATE_FINISH, when it is WRITING or ON_BREAK; and by the FINISH key of the desk it occupies, when it is, with the
channel's writing elapsed at its start bar or more and its remaining time above its end bar. A FINISH press that a bar
refuses, a SEATED candidate's among them, leaves all as it is and answers START or FINISH; on a CLEARING seat it is
answered by the closing word, and on a FREE or HELD seat discarded. A departure changes no other seat and no other channel. In
WRITING it changes nothing in its channel; in OVERTIME, by any of these or by a time-up at a writing second, the last of a
channel makes it COLLECTING, or RECONCILED when every entry of it is then COLLECTED or ABSENT, its hold flag clear. -/
def Obligations.DepartureClearsTheSeat : Prop :=
  (∀ (tag : Byte) (k : Nat) (e : Entry) (s : State), s.entry k = some e → e.state = .writing ∨ e.state = .onBreak →
    (e.allowed ≤ e.written →
      ∃ t, exec (.timeUp k) s = .next t ∧ Departed s t k e .timeUp .timeUp ∧
        Unchanged [.channels, .roster, .seats, .flags, .notices] s t) ∧
    (s.takesRequest → k ≤ 511 →
      ∃ t, exec (.candidateFinish tag k) s = .next t ∧ Answered s t tag 0x03#8 .ok [] ∧
        Departed s t k e .finished .finished ∧
        Unchanged [.channels, .roster, .seats, .flags, .notices, .responses, .framesIn] s t)) ∧
  (∀ (i : Instr) (c : Nat) (s : State), s.secondBy i → s.canonical = true → s.rosterLawful = true → c ≤ 15 →
    s.writesSecond c = true → (s.chan c).state = .overtime → s.hasWriter c = true →
    ∃ t, exec i s = .next t ∧ (t.chan c).hold = false ∧
      (t.chan c).state = (if t.hasWriter c then .overtime else if t.reconciles c then .reconciled else .collecting) ∧
      (t.hasWriter c = false → Category.channelPhase ∈ t.office.flags)) ∧
  ∀ (l : Fin 7) (a : Nat) (bytes : List Byte) (s : State), l.val < 6 → 1 ≤ a → a ≤ 64 → s.hears l a bytes .finish →
    let r := s.seat (seatIndex l a)
    (∀ k e, r.occ = .occupied k → s.entry k = some e →
      let c := s.chan e.channel
      (e.state = .writing ∨ e.state = .onBreak → c.config.barStart ≤ c.writeElapsed →
        c.config.barEnd < e.allowed - e.written →
        ∃ t, exec (.lineReplyReceived l bytes) s = .next t ∧ Departed s t k e .finished .finished ∧
          PresencesStand s t l a ∧ Unchanged [.channels, .roster, .seats, .presence, .flags, .notices] s t) ∧
      (e.state = .seated ∨ c.writeElapsed < c.config.barStart → Turned s l a bytes (.finishRefused .start)) ∧
      (e.state ≠ .seated → c.config.barStart ≤ c.writeElapsed → e.allowed - e.written ≤ c.config.barEnd →
        Turned s l a bytes (.finishRefused .finish))) ∧
    PressedElsewhere s l a bytes

/-- Counts run down with the second, and act at 0. BUDGET_EXHAUSTION: the candidate stays ON_BREAK, BUDGET_OUT is set on
its entry, and the flag is raised. SEATING_EXPIRY: the seat becomes FREE, the candidate EXPECTED with no seat and every
other field of its entry kept, and SEATING_EXPIRED is raised. CLEARING_END: the seat becomes FREE with closing word NONE. A
second tick that is a writing second of its channel takes one from the break budget of a candidate ON_BREAK, or adds one to
its written seconds, to the time-up; it runs down every HELD seat unless the hall is held, and every CLEARING one; and where
the remaining time equals a warning offset the warning is pending and the desk marked, as it is at a whole multiple of
300 s. -/
def Obligations.CountsAtZeroActOnTheirSeatOrEntry : Prop :=
  (∀ (i k : Nat) (e : Entry) (s : State),
    (s.entry k = some e → e.state = .onBreak → e.remaining = 0 → e.budgetOut = false →
      ∃ t, exec (.budgetExhaustion k) s = .next t ∧ t.entry k = some { e with budgetOut := true } ∧
        (∀ j, j ≠ k → t.entry j = s.entry j) ∧ Category.budgetOut ∈ t.office.flags ∧
        Unchanged [.roster, .flags, .notices] s t) ∧
    ((s.seat i).occ = .held k 0 → s.entry k = some e →
      ∃ t, exec (.seatingExpiry i) s = .next t ∧ t.seat i = { s.seat i with occ := .free, closing := .none } ∧
        (∀ j, j ≠ i → t.seat j = s.seat j) ∧ t.entry k = some { e with state := .expected, seat := none } ∧
        (∀ j, j ≠ k → t.entry j = s.entry j) ∧ Category.seatingExpired ∈ t.office.flags ∧
        Unchanged [.seats, .roster, .flags, .notices] s t) ∧
    ((s.seat i).occ = .clearing 0 →
      ∃ t, exec (.clearingEnd i) s = .next t ∧ t.seat i = { s.seat i with occ := .free, closing := .none } ∧
        (∀ j, j ≠ i → t.seat j = s.seat j) ∧ Unchanged [.seats] s t)) ∧
  ∀ (i : Instr) (s : State), s.secondBy i → s.canonical = true → s.seatsAgree = true → s.linesLawful = true →
    (∀ k e, s.entry k = some e → e.channel ≤ 15) →
    ∃ t, exec i s = .next t ∧ (∀ j, SeatCounted s t j) ∧
      ∀ k e, s.entry k = some e → e.state = .writing ∨ e.state = .onBreak → s.writesSecond e.channel = true →
        EntryCounted s t k e ∧
          (e.state = .onBreak → e.remaining = 1 → Category.budgetOut ∈ t.office.flags) ∧
          ∀ j, e.seat = some j → (s.line (seatLine j)).exchange ≠ none → s.amendsSecond e.channel = false →
            e.state = .writing ∨ e.remaining = 0 → e.written + 1 < e.allowed → WarningsCounted s t k e j

/-! ## Seats -/

/-- RESEAT in the order of its checks: RANGE, NOT_FOUND, WRONG_PHASE for a candidate not ALLOCATED, SEATED, WRITING or
ON_BREAK, IN_USE for a target that is not eligible. Accepted, the target is HELD for an ALLOCATED candidate with the
whole seating limit to run, else OCCUPIED; the old seat becomes FREE when it was HELD, and CLEARING (FREE at clearing
time 0) when it was OCCUPIED; the entry names the target, takes SPACING_RELAXED when a neighbour of it is HELD or OCCUPIED
by another candidate of the channel, and its state, clock and budget stand. -/
def Obligations.ReseatMovesTheCandidate : Prop :=
  ∀ (tag : Byte) (k i : Nat) (s : State), s.takesRequest →
    (511 < k ∨ 383 < i → Refuses s (.reseat tag k i) tag 0x03#8 .range) ∧
    (k ≤ 511 → i ≤ 383 → s.entry k = none → Refuses s (.reseat tag k i) tag 0x03#8 .notFound) ∧
    ∀ e, k ≤ 511 → i ≤ 383 → s.entry k = some e →
      if ¬(e.state = .allocated ∨ e.state.isSeated = true) then Refuses s (.reseat tag k i) tag 0x03#8 .wrongPhase
      else if s.eligible i = false then Refuses s (.reseat tag k i) tag 0x03#8 .inUse
      else ∀ j, e.seat = some j → i ≠ j →
        ∃ t, exec (.reseat tag k i) s = .next t ∧ Answered s t tag 0x03#8 .ok [] ∧
          (t.seat i).occ = (if e.state = .allocated then .held k s.hall.seatingLimit else .occupied k) ∧
          ((∃ n, (s.seat j).occ = .held k n) → (t.seat j).occ = .free) ∧
          ((s.seat j).occ = .occupied k →
            (t.seat j).occ = if s.hall.clearingTime = 0 then .free else .clearing s.hall.clearingTime) ∧
          t.entry k = some { e with
            seat := some i
            lastSeat := some i
            relaxed := e.relaxed || s.crowded i e.channel (some k)
            deskLost := false } ∧
          (∀ m, m ≠ k → t.entry m = s.entry m) ∧ (∀ m, m ≠ i → m ≠ j → t.seat m = s.seat m) ∧
          Unchanged [.seats, .roster, .responses, .framesIn] s t

/-- Events of the desk of a seat, in a good REPLY to a POLL. A card tap at the desk of the seat that is HELD for the
candidate: the seat becomes OCCUPIED, and the candidate SEATED, or WRITING with LATE and the channel's writing elapsed when
the channel is WRITING, its desk marked and told WELCOME. Any other tap leaves all as it is: it is answered UNKNOWN,
GO_TO_ENTRANCE, WRONG_SEAT with the place of the candidate's seat and counted, ALREADY_LEFT or NOT_ADMITTED, by the entry
found, and at the candidate's own seat by a mark alone. A BREAK press: a WRITING candidate with budget left goes ON_BREAK,
its breaks counted to 255, and one ON_BREAK back to WRITING, the desk marked; a SEATED one, or one with no budget, is
answered REFUSED; on a CLEARING seat it is answered by the closing word, and on a FREE or HELD seat discarded. A HELP press
raises HELP with the seat, the hall time and the candidate's slot, and changes nothing else. -/
def Obligations.TapOnTheHeldSeatSeatsTheCandidate : Prop :=
  (∀ (l : Fin 7) (a id k : Nat) (e : Entry) (bytes body : List Byte) (s : State),
    l.val < 6 → 1 ≤ a → a ≤ 64 → (s.line l).exchange = some ⟨a, .poll⟩ → readReply bytes = some (a, 0x81, body) →
    readEvent body = some (.tap id) → s.activeLookup id = some (k, e) → s.entry k = some e → e.state = .allocated →
    e.seat = some (seatIndex l a) →
    ∃ t, exec (.lineReplyReceived l bytes) s = .next t ∧ (t.seat (seatIndex l a)).occ = .occupied k ∧
      t.entry k = some { e with
        seat := some (seatIndex l a)
        lastSeat := some (seatIndex l a)
        state := if (s.chan e.channel).state = .writing then .writing else .seated
        written := if (s.chan e.channel).state = .writing then (s.chan e.channel).writeElapsed else e.written
        late := decide ((s.chan e.channel).state = .writing) || e.late } ∧
      (∀ m, m ≠ k → t.entry m = s.entry m) ∧ (∀ m, m ≠ seatIndex l a → t.seat m = s.seat m) ∧
      ((s.line l).state ≠ .quiet → a ∈ (t.line l).marks) ∧ Told s t l a (.welcome (e.id % 10000)) ∧
      Unchanged [.seats, .roster, .presence] s t) ∧
  ∀ (l : Fin 7) (a : Nat) (bytes : List Byte) (s : State), l.val < 6 → 1 ≤ a → a ≤ 64 →
    let r := s.seat (seatIndex l a)
    (∀ id, s.hears l a bytes (.tap id) →
      (s.activeLookup id = none → Turned s l a bytes .unknown) ∧
      ∀ k e, s.activeLookup id = some (k, e) → s.entry k = some e →
        (e.state = .expected → Turned s l a bytes .goToEntrance) ∧
        (e.state = .allocated ∨ e.state.isSeated = true →
          ∀ j, e.seat = some j → j ≠ seatIndex l a → TappedElsewhere s l a bytes j) ∧
        (e.state.isSeated = true → e.seat = some (seatIndex l a) →
          ∃ t, exec (.lineReplyReceived l bytes) s = .next t ∧ ((s.line l).state ≠ .quiet → a ∈ (t.line l).marks) ∧
            (t.line l).fifo <:+ (s.line l).fifo ∧ PresencesStand s t l a ∧ Unchanged [.presence] s t) ∧
        (e.state = .finished ∨ e.state = .timeUp ∨ e.state = .collected → Turned s l a bytes .alreadyLeft) ∧
        (e.state = .absent → Turned s l a bytes .notAdmitted) ∧
        (e.state = .missing → Turned s l a bytes .unknown)) ∧
    (s.hears l a bytes .takeBreak →
      (∀ k e, r.occ = .occupied k → s.entry k = some e →
        (e.state = .writing ∧ 0 < e.remaining ∨ e.state = .onBreak →
          ∃ t, exec (.lineReplyReceived l bytes) s = .next t ∧
            t.entry k = some (if e.state = .writing then { e with state := .onBreak, breaks := satUp 255 e.breaks }
              else { e with state := .writing }) ∧
            (∀ j, j ≠ k → t.entry j = s.entry j) ∧ ((s.line l).state ≠ .quiet → a ∈ (t.line l).marks) ∧
            PresencesStand s t l a ∧ Unchanged [.roster, .presence] s t) ∧
        (e.state = .seated ∨ (e.state = .writing ∧ e.remaining = 0) → Turned s l a bytes .breakRefused)) ∧
      PressedElsewhere s l a bytes) ∧
    (s.hears l a bytes .help →
      ∃ t, exec (.lineReplyReceived l bytes) s = .next t ∧ Category.help ∈ t.office.flags ∧
        (Category.help ∉ s.hall.masks → s.office.notices.length < 32 →
          ⟨.help (seatIndex l a) s.time.hallTime r.occ.slot, s.time.hallTime⟩ ∈ t.office.notices) ∧
        (Category.help ∈ s.hall.masks → Unchanged [.presence, .flags] s t) ∧
        (∀ x, x ∉ [.help, .lineTestDone, .noticeLost] → (x ∈ t.office.flags ↔ x ∈ s.office.flags)) ∧
        (let others := fun n : Notice => decide (n.subject.category ≠ .lineTestDone)
         t.office.notices.filter others = s.office.notices.filter others ++
          if Category.help ∈ s.hall.masks ∨ 32 ≤ s.office.notices.length then []
          else [⟨.help (seatIndex l a) s.time.hallTime r.occ.slot, s.time.hallTime⟩]) ∧
        PresencesStand s t l a ∧ Unchanged [.presence, .flags, .notices] s t)

/-- A check-in of a candidate at an ENTRANCE station, in the order of its checks. It is turned away, with nothing changed
but the answer: NOT_READY; HELD; NOT_ADMITTING for an id that a LOADED channel's roster holds, else UNKNOWN_CANDIDATE;
ALREADY_IN with the place of the entry's seat; LATE; BOOKLET_IN_USE, LIST_FULL or BOOKLET_TABLE_FULL; NO_SEAT. (LATE is the
answer also to a candidate whom the close of admission has made ABSENT: there R43 stands before R76's order of checks 4 and
5, DESIGN CHOICE, log entry 38.) When every check passes, the candidate becomes ALLOCATED to the seat the search finds, with
the snapshots of its class and its clock figures, the seat HELD with the whole seating limit to run, the serial issued
unless it is 000000 or on the list, the station told SEAT_GIVEN and the desk RESERVED. The search: a fixed seat that is
eligible is taken, whatever stands beside it; else the eligible ACCESSIBLE seats by index, for a candidate of an accessible
class, or the eligible other seats of the channel's zones in the order of the fill, of which the first with no neighbour
HELD or OCCUPIED by the channel is taken, or with none such the first of all when relaxing is permitted. -/
def Obligations.CheckInAllocatesTheSeatFound : Prop :=
  (∀ (a id b : Nat) (bytes : List Byte) (s : State), 1 ≤ a → s.hears 6 a bytes (.checkin id b) →
    (s.station a).role = .entrance →
    let turned := Turned s 6 a bytes
    (s.office.ready = false → turned .notReady) ∧
    (s.office.ready = true → s.time.held = true → turned .held) ∧
    (s.office.ready = true → s.time.held = false →
      (s.canonical = true → s.activeLookup id = none →
        (s.awaitsAdmission id → turned .notAdmitting) ∧ (¬s.awaitsAdmission id → turned .unknownCandidate)) ∧
      ∀ k e, s.activeLookup id = some (k, e) → s.entry k = some e →
        let already := NoteContent.alreadyIn (e.seat.map fun i => ((s.seat i).row, (s.seat i).column))
        let shut := e.state = .absent ∧ (s.chan e.channel).admitting = false
        (e.state ≠ .expected → ¬shut → turned already) ∧ (shut → turned .late) ∧
        (e.state = .expected → (s.chan e.channel).admitting = false → turned .late) ∧
        (e.state = .expected → (s.chan e.channel).admitting = true →
          (b ≠ 0 → BookletTurned s k e b turned) ∧
          (b = 0 ∨ s.passesBooklet k e b → s.search e = none → turned .noSeat) ∧
          ∀ f, b = 0 ∨ s.passesBooklet k e b → s.search e = some f →
            ∃ t, exec (.lineReplyReceived 6 bytes) s = .next t ∧
              t.seat f.seat = { s.seat f.seat with occ := .held k s.hall.seatingLimit, closing := .none } ∧
              (∀ m, m ≠ f.seat → t.seat m = s.seat m) ∧
              t.entry k = some { e with
                state := .allocated
                seat := some f.seat
                lastSeat := some f.seat
                percent := (s.cls e.cls).percent
                budget := (s.cls e.cls).budget
                accessible := (s.cls e.cls).accessible
                allowed := allowedSeconds (s.chan e.channel).length (s.cls e.cls).percent
                written := 0
                remaining := (s.cls e.cls).budget
                booklets := e.given b
                relaxed := e.relaxed || f.relaxed
                moved := e.moved || f.moved } ∧
              (∀ m, m ≠ k → t.entry m = s.entry m) ∧ BookletIssued s t k e b ∧ PresencesStand s t 6 a ∧
              (f.seat < 384 → Told s t 6 a (.seatGiven (s.seat f.seat).row (s.seat f.seat).column) ∧
                (s.reaches (seatLine f.seat) (seatAddr f.seat) →
                  t.noted (seatLine f.seat) (seatAddr f.seat) (.reserved (e.id % 10000)))) ∧
              Unchanged [.seats, .roster, .booklets, .presence] s t))) ∧
  (∀ (s : State) (e : Entry),
    (∀ i, e.fixed = some i → s.eligible i = true → s.search e = some ⟨i, s.crowded i e.channel none, false⟩) ∧
    ((∀ i, e.fixed = some i → s.eligible i = false) →
      let order := if (s.cls e.cls).accessible then s.accessibleSeats else s.zoneSeats e.channel
      (∀ pre i post, order = pre ++ i :: post → (∀ j ∈ pre, s.crowded j e.channel none = true) →
        s.crowded i e.channel none = false → s.search e = some ⟨i, false, e.fixed.isSome⟩) ∧
      ((∀ j ∈ order, s.crowded j e.channel none = true) →
        s.search e = if (s.chan e.channel).config.relax then order.head?.map fun i => ⟨i, true, e.fixed.isSome⟩
          else none))) ∧
  (∀ s : State, s.canonical = true →
    (∀ i c self, s.crowded i c self = true ↔ ∃ j k e, j ≠ i ∧ (s.seat j).configured = true ∧
      Beside (s.chan c).config.spacing (s.seat i) (s.seat j) ∧ (s.seat j).occ.slot = some k ∧ some k ≠ self ∧
      s.entry k = some e ∧ e.channel = c) ∧
    s.accessibleSeats.Pairwise (· < ·) ∧
    (∀ i, i ∈ s.accessibleSeats ↔ s.eligible i = true ∧ (s.seat i).accessible = true) ∧
    ∀ c, ((s.zoneSeats c).map fun i => ((s.seat i).row, (s.seat i).column)).Sublist
        ((s.chan c).config.zones.flatMap fun r => zonePositions r (s.chan c).config.fill) ∧
      (sharesPosition s.seats = false → ∀ i, i ∈ s.zoneSeats c ↔ s.eligible i = true ∧ (s.seat i).accessible = false ∧
        ∃ r ∈ (s.chan c).config.zones, r.r0 ≤ (s.seat i).row ∧ (s.seat i).row ≤ r.r1 ∧
          r.c0 ≤ (s.seat i).column ∧ (s.seat i).column ≤ r.c1)) ∧
  ∀ (r : Rect) (fill : Fill), let rows := r.r1 + 1 - r.r0
    let columns := r.c1 + 1 - r.c0
    (zonePositions r fill).length = rows * columns ∧ ∀ j n, j < rows → n < columns →
      (zonePositions r fill)[j * columns + n]? =
        some (r.r0 + j, if fill = .serpentine ∧ j % 2 = 1 then r.c1 - n else r.c0 + n)

/-- The booklet register, in a REPLY to a POLL of a station. An event that the station's role may not send is answered
WRONG_STATION. ISSUE, in the order of its checks: NO_TAG, UNKNOWN_CANDIDATE, NOT_WRITING, BOOKLET_IN_USE, LIST_FULL,
BOOKLET_TABLE_FULL; else a serial not on the candidate's list joins it and the table, not returned and counted, one on it
stands, and the station is answered ISSUED with the length of the list. RETURN: NO_TAG, UNKNOWN_BOOKLET, DUPLICATE_RETURN,
which is counted, STILL_WRITING, CHANNEL_CLOSED; else the serial is marked returned and counted, the owner becomes COLLECTED
when it has stopped writing and its whole list is returned, its channel RECONCILED when it was the last of a COLLECTING one,
and the station is answered RETURNED with the number still out. What is turned away changes nothing but the answer and the
count of duplicates. -/
def Obligations.IssueAndReturnKeepTheBookletTable : Prop :=
  ∀ (a b : Nat) (bytes : List Byte) (s : State), 1 ≤ a →
    let turned := Turned s 6 a bytes
    (∀ v r, s.hears 6 a bytes v → v.sender = some r → (s.station a).role ≠ r → turned .wrongStation) ∧
    (∀ id, s.hears 6 a bytes (.issue id b) → (s.station a).role = .issue →
      (b = 0 → turned .noTag) ∧
      (b ≠ 0 → s.activeLookup id = none → turned .unknownCandidate) ∧
      ∀ k e, b ≠ 0 → s.activeLookup id = some (k, e) → s.entry k = some e →
        (e.state.isSeated = false → turned .notWriting) ∧
        (e.state.isSeated = true → BookletTurned s k e b turned ∧
          (s.passesBooklet k e b →
            ∃ t, exec (.lineReplyReceived 6 bytes) s = .next t ∧ BookletIssued s t k e b ∧
              t.entry k = some { e with booklets := e.given b } ∧ (∀ j, j ≠ k → t.entry j = s.entry j) ∧
              Told s t 6 a (.issued b (e.given b).length) ∧ Unchanged [.booklets, .roster, .presence] s t))) ∧
    (s.hears 6 a bytes (.hand b) → (s.station a).role = .collect →
      (b = 0 → turned .noTag) ∧
      (b ≠ 0 → mapGet s.booklets b = none → turned (.unknownBooklet b)) ∧
      (∀ k, b ≠ 0 → mapGet s.booklets b = some ⟨k, true⟩ →
        ∃ t, exec (.lineReplyReceived 6 bytes) s = .next t ∧ t.booklets = s.booklets ∧
          t.bookletStats = { s.bookletStats with duplicate := statUp s.bookletStats.duplicate } ∧
          Told s t 6 a (.duplicateReturn b) ∧ Unchanged [.booklets, .presence] s t) ∧
      ∀ k e, b ≠ 0 → mapGet s.booklets b = some ⟨k, false⟩ → s.entry k = some e →
        (e.state.isSeated = true → turned (.stillWriting b)) ∧
        (e.state.isSeated = false → (s.chan e.channel).state = .releasing → turned (.channelClosed b)) ∧
        (e.state.isSeated = false → (s.chan e.channel).state ≠ .releasing → b ∈ e.booklets →
          ∃ t, exec (.lineReplyReceived 6 bytes) s = .next t ∧ Returned s t a k e b))

/-! ## Lines -/

/-- Outcomes of the exchanges of a line other than its wiring test (that one's count is in LineCommandsSetTheLinesState): a
good reply, a bad check, no reply, each counted in its own counter. A POLL, CLOCK or NOTE to a PRESENT address: a good reply
(IDLE to the POLL) sets its missed-reply count to 0; a bad check or no reply adds one to the count (none stands on a line whose
wiring test starts with it), and when the count would reach 3 the address becomes LOST with its counts 0 and DESK_LOST is
raised; to an address that is not PRESENT neither changes anything. A sweep's DISCOVER: PRESENT after a good reply, else
ABSENT, with DESK_LOST when the address was PRESENT and its missed-reply count would have reached 3, or its seat is HELD or
OCCUPIED. A discovery poll: PRESENT with DESK_BACK after a good reply, else nothing. A CLOCK frame: its ACK takes the desk's
mark off the list, to the tail when set again since, and without a good ACK the mark keeps its place. A NOTE is not sent
again. Two points of the sweep are the model's reading and not the spec's: that its outcome is taken by R100 first and then by
R104, so that DESK_LOST is raised for no address but one that was PRESENT, and then once (DEDUCED, log entry 17), and that the
outcome of a sweep's DISCOVER is taken whatever state the line then stands in (DESIGN CHOICE, log entry 18). That a mark set
again during the exchange joins the tail at the ACK, behind marks set meanwhile, is the model's choice (DESIGN CHOICE, log
entry 37). -/
def Obligations.PollOutcomesKeepTheMissedCount : Prop :=
  ∀ (l : Fin 7) (a : Nat) (s : State),
    let poll : Exchange := ⟨a, .poll⟩
    let sweep : Exchange := ⟨a, .discover true⟩
    let discovery : Exchange := ⟨a, .discover false⟩
    let others := fun t : State => ∀ m b, m ≠ l.val ∨ b ≠ a → t.presence m b = s.presence m b
    ((s.line l).exchange = some poll →
      (∀ bytes, s.hears l a bytes .idle →
        ∃ t, exec (.lineReplyReceived l bytes) s = .next t ∧ OutcomeCounted s t l .good ∧ MissTaken s t l poll .good) ∧
      ∀ i o, o ≠ .good → poll.endsBy l i o →
        ∃ t, exec i s = .next t ∧ OutcomeCounted s t l o ∧ MissTaken s t l poll o) ∧
    ((s.line l).exchange = some sweep → s.configured l a = true → ∀ i o, sweep.endsBy l i o →
      ∃ t, exec i s = .next t ∧ OutcomeCounted s t l o ∧ ((t.line l).addr a).missed = 0 ∧ others t ∧
        if o = .good then t.presence l a = .present ∧ Unchanged [.presence, .seats, .roster] s t
        else t.presence l a = .absent ∧
          if s.presence l a = .present ∧
              (2 ≤ ((s.line l).addr a).missed ∨ (l.val < 6 ∧ (s.seat (seatIndex l a)).occ.slot ≠ none)) then
            Category.deskLost ∈ t.office.flags ∧ Unchanged [.presence, .seats, .roster, .flags, .notices] s t
          else Unchanged [.presence] s t) ∧
    ((s.line l).exchange = some discovery → s.configured l a = true → s.presence l a ≠ .present →
      ∀ i o, discovery.endsBy l i o →
      ∃ t, exec i s = .next t ∧ OutcomeCounted s t l o ∧ others t ∧
        if o = .good then t.presence l a = .present ∧ Category.deskBack ∈ t.office.flags ∧
          Unchanged [.presence, .seats, .roster, .flags, .notices] s t
        else t.presence l a = s.presence l a ∧ Unchanged [.presence] s t) ∧
    (∀ content again, let x : Exchange := ⟨a, .clock content again⟩
      (s.line l).exchange = some x → ∀ i o, x.endsBy l i o →
      ∃ t, exec i s = .next t ∧ OutcomeCounted s t l o ∧ MissTaken s t l x o ∧
        ((s.line l).state = .active → (t.line l).marks =
          if o = .good then (s.line l).marks.filter (· ≠ a) ++ (if again then [a] else []) else (s.line l).marks)) ∧
    ∀ content, let x : Exchange := ⟨a, .note content⟩
      (s.line l).exchange = some x → ∀ i o, x.endsBy l i o →
      ∃ t, exec i s = .next t ∧ OutcomeCounted s t l o ∧ MissTaken s t l x o ∧ (t.line l).fifo <:+ (s.line l).fifo

/-- A broadcast that ends on a QUIET line with no flush due leaves the line silent; on an ACTIVE line the arbiter sends the
next frame: the poll of an address at owed count 9, else the oldest mark whose desk is PRESENT, else the oldest note that
can go, else the largest owed count above 0, else a due discovery, else the least owed count above −8. An interval end, by
INTERVAL_END or by the 1 ms tick that reaches it, restarts the timer with the length the hall settings then give; on an
ACTIVE line it adds one to the owed count of every PRESENT address, up to 9, a late poll counted for each that stood
there, the discovery count advances and wraps at 16 with every ABSENT or LOST address due, and no presence and no
missed-reply count changes. The content of a CLOCK frame follows the seat: BLANK, RESERVED, the closing word, or for a
candidate the phase, the remaining time, what counts, the budget, the hold, the warning and the four digits. -/
def Obligations.BroadcastAndIntervalEnds : Prop :=
  ∀ (l : Fin 7) (s : State),
    (∀ c, (s.line l).exchange = some ⟨0, .broadcast c⟩ → (s.line l).state = .quiet → (s.line l).blankDue = false →
      ∃ t, exec (.broadcastEnd l) s = .next t ∧ t.line l = { s.line l with exchange := none } ∧ Unchanged [] s t) ∧
    (∀ c, (s.line l).exchange = some ⟨0, .broadcast c⟩ → (s.line l).state = .active → s.canonical = true →
      s.seatsAgree = true → s.linesLawful = true →
      ∃ t, exec (.broadcastEnd l) s = .next t ∧ Unchanged [] s t ∧ Arbitrated s t l) ∧
    (∀ i, ClockFollowsSeat s i) ∧
    (s.intervalDue l = true →
      ∃ t, exec (.intervalEnd l) s = .next t ∧ (t.line l).timer = 0 ∧ (t.line l).interval = s.pollInterval l ∧
        ((s.line l).state = .active →
          (t.line l).discovery = if (s.line l).discovery < 15 then (s.line l).discovery + 1 else 0) ∧
        Unchanged [] s t) ∧
    ∀ i, (i = .intervalEnd l ∧ s.intervalDue l = true) ∨
        ((∃ low at' o, i = .tick1ms low at' o) ∧ (s.line l).interval ≤ (s.line l).timer + 1) →
      (s.line l).exchange ≠ none → (s.line l).state = .active →
      ∃ t, exec i s = .next t ∧ (t.line l).timer = 0 ∧ (t.line l).interval = s.pollInterval l ∧
        (t.line l).discovery = (if (s.line l).discovery < 15 then (s.line l).discovery + 1 else 0) ∧
        (∀ a, ((t.line l).addr a).owed = if a ∈ s.configuredAddrs l ∧ s.presence l a = .present
          then min 9 (((s.line l).addr a).owed + 1) else ((s.line l).addr a).owed) ∧
        (t.line l).stats.latePolls =
          statUp^[((s.presentAddrs l).filter fun a => decide (9 ≤ ((s.line l).addr a).owed)).length]
            (s.line l).stats.latePolls ∧
        ∀ a, ((t.line l).addr a).due = (((s.line l).addr a).due || (decide (15 ≤ (s.line l).discovery) &&
          decide (a ∈ s.configuredAddrs l) && decide (s.presence l a = .absent ∨ s.presence l a = .lost)))

/-- The line commands. LINE_QUIET of an ACTIVE line with no seat HELD or OCCUPIED: the line is QUIET, and once free it has
emptied its marks and notes and sends one broadcast BLANK. LINE_WAKE of a QUIET line and LINE_RESET of any line start a
sweep, and LINE_TEST of an ACTIVE or QUIET line with no seat HELD or OCCUPIED starts a wiring test, with an address to
try on the line: WAKING or TESTING from then on, every presence kept; LINE_RESET empties the marks and notes and clears
every missed-reply count at once, and LINE_TEST clears the counts when the test starts, at once on a free line and else at
the end of the exchange in flight, until which they stand. The wiring test: after each of its first three exchanges with an
address the next pattern goes out, the outcome counted and its missed-reply count kept as after any exchange, so that a
PRESENT address becomes LOST at the third in a row without an ECHO whose check is good, though without DESK_LOST (DEDUCED,
log entry 17: R115 has the test raise none); after the fourth the address is PRESENT with four correct echoes, ABSENT with no
reply, else FAULTY, its missed-reply count 0, and neither DESK_LOST nor DESK_BACK is raised; and with no address left the line
is ACTIVE with its timer and discovery count at 0, and LINE_TEST_DONE is raised. -/
def Obligations.LineCommandsSetTheLinesState : Prop :=
  (∀ (tag : Byte) (l : Nat) (s : State), s.takesRequest → l ≤ 6 →
    ((s.line l).state = .active → s.lineInUse l = false →
      ∃ t, exec (.lineQuiet tag l) s = .next t ∧ Answered s t tag 0x03#8 .ok [] ∧ (t.line l).state = .quiet ∧
        ((s.line l).exchange = none → (t.line l).exchange = some ⟨0, .broadcast .blank⟩ ∧ (t.line l).marks = [] ∧
          (t.line l).fifo = [] ∧ (t.line l).blankDue = false) ∧
        Unchanged [.responses, .framesIn] s t) ∧
    ((s.line l).state = .quiet → (∃ a ∈ s.configuredAddrs l, s.presence l a ≠ .faulty) →
      ∃ t, exec (.lineWake tag l) s = .next t ∧ Answered s t tag 0x03#8 .ok [] ∧ (t.line l).state = .waking ∧
        Unchanged [.responses, .framesIn] s t) ∧
    ((∃ a ∈ s.configuredAddrs l, s.presence l a ≠ .faulty) →
      ∃ t, exec (.lineReset tag l) s = .next t ∧ Answered s t tag 0x03#8 .ok [] ∧ (t.line l).state = .waking ∧
        (t.line l).marks = [] ∧ (t.line l).fifo = [] ∧ (∀ a, ((t.line l).addr a).missed = 0) ∧
        (∀ m a, t.presence m a = s.presence m a) ∧ Unchanged [.presence, .responses, .framesIn] s t) ∧
    ((s.line l).state = .active ∨ (s.line l).state = .quiet → s.lineInUse l = false →
      (∃ a, a ∈ s.configuredAddrs l) →
      ∃ t, exec (.lineTest tag l) s = .next t ∧ Answered s t tag 0x03#8 .ok [] ∧ (t.line l).state = .testing ∧
        ((s.line l).exchange = none → ∀ a, ((t.line l).addr a).missed = 0) ∧
        ((s.line l).exchange ≠ none → ∀ a, (t.line l).addr a = (s.line l).addr a) ∧
        (∀ m a, t.presence m a = s.presence m a) ∧ Unchanged [.presence, .responses, .framesIn] s t)) ∧
  ∀ (l : Fin 7) (a i : Nat) (s : State), (s.line l).exchange = some ⟨a, .test i⟩ → (s.line l).state = .testing →
    (s.line l).test.addr = a → (s.line l).test.pattern = i → (s.line l).cursor = a → a ∈ s.configuredAddrs l →
    (∀ (c : Instr) (o : Judged), Exchange.endsBy ⟨a, .test i⟩ l c o → i < 3 →
      ∃ t, exec c s = .next t ∧ (t.line l).exchange = some ⟨a, .test (i + 1)⟩ ∧ OutcomeCounted s t l o ∧
        MissTaken s t l ⟨a, .test i⟩ o) ∧
    (i = 3 → ∀ (c : Instr) (present silent : Bool),
      (c = .replyWindowClose l ∧ present = false ∧ silent = decide ((s.line l).test.replies = 0)) ∨
        (∃ bytes, c = .lineReplyReceived l bytes ∧ silent = false ∧
          present = (decide (readReply bytes = some (a, 0x85, be 2 (testEcho a (BitVec.ofNat 16 (testPattern a 3))).toNat)) &&
            decide ((s.line l).test.correct = 3))) →
      (s.line l).test.correct ≤ 3 →
      ∃ t, exec c s = .next t ∧
        t.presence l a = (if present then .present else if silent then .absent else .faulty) ∧
        ((t.line l).addr a).missed = 0 ∧ Unchanged [.presence, .seats, .roster] s t ∧
        (∀ m b, m ≠ l.val ∨ b ≠ a → t.presence m b = s.presence m b) ∧
        ((∀ b ∈ s.configuredAddrs l, b ≤ a) → (t.line l).state = .active ∧ (t.line l).timer = 0 ∧
          (t.line l).discovery = 0 ∧ Category.lineTestDone ∈ t.office.flags) ∧
        ∀ b ∈ s.configuredAddrs l, a < b → (∀ d ∈ s.configuredAddrs l, d ≤ a ∨ b ≤ d) →
          (t.line l).exchange = some ⟨b, .test 0⟩)

/-- DESK_CLEAR in the order of its checks: RANGE, NOT_FOUND, WRONG_PHASE; else the presence becomes ABSENT. -/
def Obligations.DeskClearMakesAFaultyAddressAbsent : Prop :=
  ∀ (tag : Byte) (l a : Nat) (s : State), s.takesRequest →
    ∃ t, exec (.deskClear tag l a) s = .next t ∧
      if 6 < l ∨ a < 1 ∨ (if l < 6 then 64 else 8) < a then
        Answered s t tag 0x03#8 .range [] ∧ Unchanged [.responses, .framesIn] s t
      else if s.configured l a = false then Answered s t tag 0x03#8 .notFound [] ∧ Unchanged [.responses, .framesIn] s t
      else if s.presence l a ≠ .faulty then
        Answered s t tag 0x03#8 .wrongPhase [] ∧ Unchanged [.responses, .framesIn] s t
      else
        Answered s t tag 0x03#8 .ok [] ∧ t.presence l a = .absent ∧
          (∀ m b, m ≠ l ∨ b ≠ a → t.presence m b = s.presence m b) ∧ Unchanged [.presence, .responses, .framesIn] s t

/-! ## The sheet port and the marking unit -/

/-- A start byte on SP_RX outside a frame: READY with an EMPTY slot, the lowest such slot becomes RECEIVING with its
record cleared: overrun no, the resolved channel absent and the list of values empty (R139), and its header, age and deadline 0
and frame good no to the end of the frame (DESIGN CHOICE, log entry 42). Else the frame is a start-of-sheet overrun to be
skipped. -/
def Obligations.SheetFrameStartTakesTheLowestEmptySlot : Prop :=
  ∀ s : State, s.intake.rx = .outside →
    ∃ t, exec .sheetFrameStart s = .next t ∧ Unchanged [.intake] s t ∧ t.intake.stats = s.intake.stats ∧
      match (if s.office.ready then s.intake.emptySlot else none) with
      | some n => t.intake.rx = .receiving n ∧ t.intake.slot n = { Slot.blank with state := .receiving } ∧
          (∀ m, m ≠ n → t.intake.slot m = s.intake.slot m) ∧ (s.intake.slot n).state = .empty
      | none => t.intake.rx = .overrun true ∧ t.intake.slots = s.intake.slots

/-- A frame into slot `n` that ends, whole (SHEET_FRAME_END) or short (SHEET_GAP_LIMIT): the slot holds the header as it
arrived, sheet number, form, white and black level and declared count, with the values that arrived, good or not by the CRC,
age 0 and the verdict deadline of the hall settings, and waits or is taken; the frame is counted, and counted bad unless it
is good. Overrun is yes exactly when more than 1720 values arrived, of which the first 1720 stand; the mid-sheet overrun is
then counted, and OVERRUN raised with the sheet number. A header field that did not arrive whole reads 0 (DEDUCED, log entry
25). -/
def Obligations.FrameEndHandsTheSheetOn : Prop :=
  ∀ (n : Nat) (bytes : List Byte) (s : State), s.intake.rx = .receiving n →
    ∀ whole : Bool, (whole = true → sheetWhole bytes = true) →
    ∃ t, exec (if whole then .sheetFrameEnd bytes else .sheetGapLimit bytes) s = .next t ∧
      t.intake.rx = .outside ∧ (t.intake.slot n).good = (whole && sheetGood bytes) ∧
      (t.intake.slot n).age = 0 ∧ (t.intake.slot n).deadline = s.hall.verdictDeadline ∧
      ((t.intake.slot n).state = .waiting ∨ (t.intake.slot n).state = .scoring) ∧
      (t.intake.slot n).sheet = headerField bytes 0 2 ∧ (t.intake.slot n).form = headerField bytes 2 1 ∧
      (t.intake.slot n).white = headerField bytes 3 1 ∧ (t.intake.slot n).black = headerField bytes 4 1 ∧
      (t.intake.slot n).declared = headerField bytes 5 2 ∧
      (t.intake.slot n).values = ((bytes.drop 7).take (headerField bytes 5 2)).take 1720 ∧
      t.intake.stats.sheets = statUp s.intake.stats.sheets ∧
      t.intake.stats.badCrc =
        (if whole && sheetGood bytes then s.intake.stats.badCrc else statUp s.intake.stats.badCrc) ∧
      let sheet := headerField bytes 0 2
      let spilled := decide (1720 < ((bytes.drop 7).take (headerField bytes 5 2)).length)
      (t.intake.slot n).overrun = spilled ∧
      if spilled then
        t.intake.stats.midOverruns = statUp s.intake.stats.midOverruns ∧ Category.overrun ∈ t.office.flags ∧
          (Category.overrun ∉ s.hall.masks → s.office.notices.length < 32 →
            ⟨.overrun true sheet, s.time.hallTime⟩ ∈ t.office.notices) ∧
          Unchanged [.intake, .flags, .notices] s t
      else t.intake.stats.midOverruns = s.intake.stats.midOverruns ∧ Unchanged [.intake] s t

/-- A start-of-sheet overrun that has been skipped ends: it is counted, OVERRUN is raised, and its REJECT verdict joins
the queue unless four such verdicts wait or RESET_SITTINGS has withdrawn it. -/
def Obligations.OverrunFrameEndOffersAReject : Prop :=
  ∀ (bytes : List Byte) (offer : Bool) (s : State), s.intake.rx = .overrun offer →
    ∃ t, exec (.overrunFrameEnd bytes) s = .next t ∧ t.intake.rx = .outside ∧
      t.intake.stats.startOverruns = statUp s.intake.stats.startOverruns ∧
      t.intake.verdicts = (if offer = true ∧ s.intake.overrunsWaiting < 4
        then s.intake.verdicts ++ [⟨overrunSheet bytes, .reject, .overrun, false, true⟩] else s.intake.verdicts) ∧
      t.intake.slots = s.intake.slots ∧ Category.overrun ∈ t.office.flags ∧ Unchanged [.intake, .flags, .notices] s t

/-- The receivers after a reset and after an abandoned frame: SHEET_PORT_QUIET_REACHED and ABANDONED_FRAME_END leave the
sheet receiver outside a frame with nothing counted, and OFFICE_LINK_QUIET_REACHED lets the office receiver begin. -/
def Obligations.ReceiversBeginOutsideAFrame : Prop :=
  ∀ s : State,
    (s.intake.rx = .awaitQuiet → ∃ t, exec .sheetPortQuietReached s = .next t ∧ t.intake.rx = .outside ∧
      t.intake.slots = s.intake.slots ∧ t.intake.stats = s.intake.stats ∧ Unchanged [.intake] s t) ∧
    (s.intake.rx = .abandoned → ∃ t, exec .abandonedFrameEnd s = .next t ∧ t.intake.rx = .outside ∧
      t.intake.slots = s.intake.slots ∧ t.intake.stats = s.intake.stats ∧ Unchanged [.intake] s t) ∧
    (∃ t, exec .officeLinkQuietReached s = .next t ∧ t.office.awaitQuiet = false ∧
      t.office.resetPending = s.office.resetPending ∧ t.office.stats.badFrames = s.office.stats.badFrames ∧
      Unchanged [.receiver] s t)

/-- SHEET_CHANNEL_RESOLVED always completes, and changes the marking work and its slot's resolved channel alone; with no
sheet SCORING it changes nothing. A SCORING sheet just taken that passes checks 1 to 6 comes to check 7: the one channel
that is not FREE with its paper number becomes the slot's resolved channel, and the work has made check 7, and further ones
up to the row's reach until one fails; with no such channel the sheet fails with NO_CHANNEL, or LOG_FULL when the log holds
256 records, and nothing is resolved. How far the row reaches, checks 7 to 12, is the model's choice (log entry 9). -/
def Obligations.SheetChannelIsResolvedAtCheck7 : Prop :=
  (∀ (reach : Nat) (s : State), ∃ t, exec (.sheetChannelResolved reach) s = .next t ∧ Unchanged [.intake] s t ∧
    t.intake.rx = s.intake.rx ∧ t.intake.arrivals = s.intake.arrivals ∧ t.intake.verdicts = s.intake.verdicts ∧
    t.intake.stats = s.intake.stats ∧ (s.intake.marking = none → Unchanged [] s t) ∧
    ∀ k, t.intake.slot k = if s.intake.marking.any fun m => decide (m.slot = k)
      then { s.intake.slot k with resolved := (t.intake.slot k).resolved } else s.intake.slot k) ∧
  ∀ (n id paper reach : Nat) (f : Form) (s : State), s.intake.marking = some (Marking.take n f) →
    s.readsSheet (s.intake.slot n) f id paper → 7 ≤ reach → reach ≤ 12 →
    (∀ c, s.papers paper c →
      ∃ t m, exec (.sheetChannelResolved reach) s = .next t ∧ t.intake.marking = some m ∧ m.slot = n ∧
        m.channel = some c ∧ m.id = some id ∧ m.paper = paper ∧ 7 ≤ m.made ∧ m.made ≤ reach ∧
        (m.made < reach → m.failed ≠ none) ∧ (reach = 7 → m.failed = none) ∧
        t.intake.slot n = { s.intake.slot n with resolved := some c } ∧
        (∀ k, k ≠ n → t.intake.slot k = s.intake.slot k) ∧ Unchanged [.intake] s t) ∧
    ((∀ c, c < 16 → (s.chan c).state = .free ∨ (s.chan c).config.paper ≠ paper) →
      ∃ t m, exec (.sheetChannelResolved reach) s = .next t ∧ t.intake.marking = some m ∧ m.slot = n ∧ m.made = 6 ∧
        m.failed = some (if s.log.records.length < 256 then .noChannel else .logFull) ∧ m.channel = none ∧
        t.intake.slot n = { s.intake.slot n with resolved := none } ∧
        (∀ k, k ≠ n → t.intake.slot k = s.intake.slot k) ∧ Unchanged [.intake] s t)

/-- A sheet completes. With its work done, unless the log is full: its record takes the next sequence number and the hall
time and stands at the tail of the log, its verdict joins the queue, late when the slot's age is above its deadline, and the
slot becomes EMPTY. With every check still to make, and passing: the record carries the channel, the candidate and the score
by the active key bank, its status REFERRED when U is above 0 and the unclear count at or above it, else SCORED, the
candidate's entry takes that result, the band of P counts one more in the channel's histogram, and LOG_HIGH is raised at the
high mark. With every check still to make, and one of checks 1 to 12 failing: a REJECT with the status of that check, its
record carrying the candidate id, the channel and the roster slot that the checks before it have found, and no score, and no
entry and no histogram changed; with the log full, REJECT LOG_FULL in its place, also when every check before the last
passes. A commit PENDING on the channel found begins: RUNNING at 0 (a RELEASING channel that the completion of a sheet with
no record frees keeps none). With the log full, a sheet whose first check fails or that has failed with LOG_FULL: no record,
a REJECT LOG_FULL verdict, counted, and the LOG_FULL notice when armed. When the checks left are made is log entry 10. -/
def Obligations.SheetCompletionPlacesTheRecord : Prop :=
  (∀ (m : Marking) (s : State), s.intake.marking = some m → m.willPlace = true → m.slot ∉ s.intake.arrivals →
    s.canonical = true →
    let u := s.intake.slot m.slot
    let x := s.outcome u m
    let late := decide (u.deadline < u.age)
    (m.failed = none → x.1 = .scored ∨ x.1 = .referred) ∧
    ∃ t, exec .sheetCompletion s = .next t ∧
      t.log.records = s.log.records ++ [{ s.recordOf u m x late with number := s.log.next, time := s.time.hallTime }] ∧
      t.log.next = min 4294967295 (s.log.next + 1) ∧
      t.intake.verdicts = s.intake.verdicts ++ [⟨u.sheet, x.1.verdict, x.1, late, false⟩] ∧
      t.intake.slot m.slot = Slot.blank ∧
      (∀ c, m.channel = some c → (s.chan c).stage = .pending → (t.chan c).stage = .running 0) ∧
      t.pending = s.pending ∧ t.time = s.time ∧ t.hall = s.hall ∧ t.forms = s.forms ∧
      t.profiles = s.profiles ∧ t.office.responses = s.office.responses) ∧
  (∀ (n id paper c k : Nat) (f : Form) (e : Entry) (s : State), s.intake.marking = some (Marking.take n f) →
    n ∉ s.intake.arrivals → s.canonical = true → s.readsSheet (s.intake.slot n) f id paper → s.papers paper c →
    (s.chan c).config.form = (s.intake.slot n).form → s.channelLookup id c = some (k, e) →
    (s.chan c).state ≠ .releasing → e.state = .collected → e.result = .none → (∀ j, (s.chan c).stage ≠ .running j) →
    s.log.records.length < 256 →
    let u := s.intake.slot n
    let p := s.profile (s.chan c).config.profile
    let late := decide (u.deadline < u.age)
    let x := (tallySheet p ((s.chan c).bank (s.chan c).active) f.questions f.options (u.darks.drop 120)).finish
      (s.chan c).generation
    let referred := decide (0 < p.refer ∧ p.refer ≤ x.unclear)
    let status := if referred then Status.referred else .scored
    let verdict := if referred then Verdict.review else .accept
    ∃ t, exec .sheetCompletion s = .next t ∧
      t.log.records = s.log.records ++ [⟨s.log.next, u.sheet, s.time.hallTime, verdict, status, late, some c, some id,
        some k, e.lastSeat, some x⟩] ∧
      t.log.next = min 4294967295 (s.log.next + 1) ∧
      t.intake.verdicts = s.intake.verdicts ++ [⟨u.sheet, verdict, status, late, false⟩] ∧
      t.intake.slot n = Slot.blank ∧ t.entry k = some { e with result := if referred then .referred else .scored } ∧
      (∀ b, tabGet 0 (t.chan c).histogram b = if b = min 19 (x.perMille / 50)
        then satUp 65535 (tabGet 0 (s.chan c).histogram b) else tabGet 0 (s.chan c).histogram b) ∧
      (t.chan c).stage = (if (s.chan c).stage = .pending then .running 0 else (s.chan c).stage) ∧
      (s.log.records.length + 1 = s.hall.highMark → Category.logHigh ∈ t.office.flags)) ∧
  (∀ (n : Nat) (f : Form) (x : Status) (id c k : Option Nat) (s : State), s.intake.marking = some (Marking.take n f) →
    n ∉ s.intake.arrivals → s.canonical = true → s.Rejects (s.intake.slot n) f x id c k →
    let u := s.intake.slot n
    let late := decide (u.deadline < u.age)
    let full := decide (256 ≤ s.log.records.length)
    let status := if full then Status.logFull else x
    let stats := s.intake.stats
    ∃ t, exec .sheetCompletion s = .next t ∧
      (if full then t.log = { s.log with armed := false } ∧ (s.log.armed = true → Category.logFull ∈ t.office.flags)
      else t.log.records = s.log.records ++ [⟨s.log.next, u.sheet, s.time.hallTime, .reject, x, late, c, id, k,
          (k.bind s.entry).bind Entry.lastSeat, none⟩] ∧
        t.log.next = min 4294967295 (s.log.next + 1)) ∧
      t.intake.verdicts = s.intake.verdicts ++ [⟨u.sheet, .reject, status, late, false⟩] ∧
      t.intake.slot n = Slot.blank ∧
      t.intake.stats = { stats with
        lateVerdicts := if late then statUp stats.lateVerdicts else stats.lateVerdicts
        logFull := if full then statUp stats.logFull else stats.logFull
        calFaults := if status = .calFault then statUp stats.calFaults else stats.calFaults } ∧
      (∀ j e, t.entry j = some e → s.entry j = some e) ∧ ∀ d, (t.chan d).histogram = (s.chan d).histogram) ∧
  ∀ (m : Marking) (s : State), s.intake.marking = some m → m.slot ∉ s.intake.arrivals → s.canonical = true →
    m.failed = some .logFull ∨ (m.failed = none ∧ m.made = 0 ∧ (s.intake.slot m.slot).good = false ∧
      256 ≤ s.log.records.length) →
    let u := s.intake.slot m.slot
    ∃ t, exec .sheetCompletion s = .next t ∧ t.log = { s.log with armed := false } ∧
      t.intake.verdicts = s.intake.verdicts ++ [⟨u.sheet, .reject, .logFull, decide (u.deadline < u.age), false⟩] ∧
      t.intake.stats.logFull = statUp s.intake.stats.logFull ∧ t.intake.slot m.slot = Slot.blank ∧
      (s.log.armed = true → Category.logFull ∈ t.office.flags) ∧
      ∀ c, m.channel = some c → (s.chan c).stage = .pending → (s.chan c).state ≠ .releasing →
        (t.chan c).stage = .running 0

/-- KEY_COMMIT of a channel that is not FREE and not committing is answered OK: RUNNING at 0, or PENDING while a SCORING
sheet is resolved to the channel (it begins when that sheet completes: SheetCompletionPlacesTheRecord). KEY_COMMIT_END at
count 20, and the 1 ms tick that brings the count there, change the active bank, raise the generation by 1 with 255 becoming
0, and copy the newly active bank into the other. -/
def Obligations.KeyCommitSwapsTheBanks : Prop :=
  ∀ (tag : Byte) (c : Nat) (s : State), c ≤ 15 →
    (s.takesRequest → (s.chan c).state ≠ .free → (s.chan c).stage = .idle →
      ∃ t, exec (.keyCommit tag c) s = .next t ∧ Answered s t tag 0x03#8 .ok [] ∧
        t.chan c = { s.chan c with stage := if s.scoringResolved c then .pending else .running 0 } ∧
        Unchanged [.channels, .responses, .framesIn] s t) ∧
    ((s.chan c).stage = .running 20 →
      ∃ t, exec (.keyCommitEnd c) s = .next t ∧ Committed s t c ∧ (t.chan c).state = (s.chan c).state ∧
        Unchanged [.channels, .intake] s t) ∧
    ∀ n low at' o, (s.chan c).stage = .running n → 19 ≤ n →
      ∃ t, exec (.tick1ms low at' o) s = .next t ∧ Committed s t c

/-- What is sent leaves the head of its queue, and what stands there next goes out. VERDICT_SENT: a verdict frame.
OFFICE_FRAME_SENT: a response, or a notice, which is counted; after the response to RESET_ALL, which is the last, every
block is at its power-on values, what was in flight cut off (DEDUCED, log entry 22) and the waiting commands kept (log
entry 1). The bytes on each port are those of chapter 12: on a line its exchange in flight, on SP_TX the head verdict, on
OL_TX the head response, or with none the head notice with its category, kind and subject fields. Of those bytes the model's
own are the fields of log entry 16 (DEDUCED), the codes of log entry 15 (DESIGN CHOICE), the count in place of the hall
time in the notice of an admission close (DESIGN CHOICE, log entry 40) and the free values of log entries 20 and 32. -/
def Obligations.FramesSentLeaveTheirQueues : Prop :=
  ∀ s : State,
    (s.intake.tx = .head →
      ∃ t, exec .verdictSent s = .next t ∧ t.intake.verdicts = s.intake.verdicts.tail ∧
        t.intake.tx = (if s.intake.verdicts.tail = [] then .idle else .head) ∧ t.intake.slots = s.intake.slots ∧
        t.intake.stats = s.intake.stats ∧
        t.sheetWire = (s.intake.verdicts.tail.head?.map fun v =>
          0xC5#8 :: withCrc (be 2 v.sheet ++ b1 v.verdict.code ++ b1 v.status.code ++ bBool v.late)) ∧
        Unchanged [.intake] s t) ∧
    (s.office.tx = .notice → ∃ t, exec .officeFrameSent s = .next t ∧
      t.office.stats.noticesSent = statUp s.office.stats.noticesSent ∧
      t.office.notices.filter (fun n => decide (n.subject.category ≠ .lineTestDone)) =
        s.office.notices.tail.filter (fun n => decide (n.subject.category ≠ .lineTestDone)) ∧
      t.office.responses = s.office.responses ∧ OfficeSends t ∧ Unchanged [.notices, .noticesSent] s t) ∧
    (s.office.tx = .response → ∃ t, exec .officeFrameSent s = .next t ∧
      if s.office.resetPending = true ∧ s.office.responses.tail = [] then
        t = { State.reset with pending := s.pending }
      else t.office.responses = s.office.responses.tail ∧ OfficeSends t ∧ Unchanged [.responses] s t) ∧
    ∀ l, s.lineWire l = (s.line l).exchange.map fun x =>
      0x96#8 :: withCrc (b1 x.addr ++ match x.kind with
        | .poll => b1 0x01 ++ b1 0
        | .discover _ => b1 0x02 ++ b1 0
        | .clock c _ => b1 0x03 ++ b1 c.body.length ++ c.body
        | .note n => b1 0x04 ++ b1 n.body.length ++ n.body
        | .broadcast n => b1 0x04 ++ b1 n.body.length ++ n.body
        | .test i => b1 0x05 ++ b1 2 ++ be 2 (testPattern x.addr i))

/-- Calibration and darkness. Check 4 passes when the black level is above the white and their span is at least that of
the grid profile, and fails CAL_FAULT otherwise. When it passes, the darkness of a raw value is 0 at or below white, 100
at or above black, and between them the share of the span, rounded down; it lies in 0 to 100 and never falls as the raw
value rises. -/
def Obligations.DarknessRisesFromWhiteToBlack : Prop :=
  (∀ (t : Slot) (m : Marking) (s : State), s.makeCheck t m 4 =
    if t.white < t.black ∧ (s.profile m.grid).span ≤ t.black - t.white then .inl m else .inr .calFault) ∧
  ∀ w k : Nat, w < k →
    (∀ v, darkness w k v ≤ 100) ∧ (∀ v, v ≤ w → darkness w k v = 0) ∧ (∀ v, k ≤ v → darkness w k v = 100) ∧
      (∀ v, w < v → v < k → darkness w k v = (v - w) * 100 / (k - w)) ∧
      ∀ v v', v ≤ v' → darkness w k v ≤ darkness w k v'

/-- The class of a group, from its largest darkness `d1`, the lowest index `o` that has it, and the largest darkness `d2`
of the others. The score of a sheet of `q` questions: its sum is that of the questions' contributions, its maximum that of
the weights not dropped, each question falls under one of the six counts, the unclear ones listed in order; the final
score is the sum, or 0 below it, and never above the maximum; per mille is final × 1000 ÷ maximum rounded down, or 0 with
no maximum, and never above 1000; the list keeps its first sixteen. -/
def Obligations.GroupClassFollowsTheTwoDarkest : Prop :=
  (∀ (p : Profile) (ds : List Nat) (o d1 d2 : Nat), ds[o]? = some d1 → (∀ i d : Nat, ds[i]? = some d → d ≤ d1) →
    (∀ i d : Nat, i < o → ds[i]? = some d → d < d1) → (∃ i : Nat, i ≠ o ∧ ds[i]? = some d2) →
    (∀ i d : Nat, i ≠ o → ds[i]? = some d → d ≤ d2) →
    classify p ds =
      if d1 < p.blank then .blank
      else if p.mark ≤ d1 ∧ (d2 < p.blank ∨ p.margin ≤ d1 - d2) then .single o
      else if p.mark ≤ d1 ∧ p.mark ≤ d2 ∧ d1 - d2 < p.margin then .multiple
      else .unclear) ∧
  ∀ (p : Profile) (bank : PMap KeyEntry) (q options generation : Nat) (ds : List Nat),
    let key := fun j => tabGet KeyEntry.zero bank j
    let cls := fun j => classify p (groupAt options j ds)
    let normal := fun j => decide ((key j).mode = .normal)
    let counted := fun f : Nat → Bool => ((List.range q).filter f).length
    let t := tallySheet p bank q options ds
    let x := t.finish generation
    t.sum = ((List.range q).map fun j => contribution p.asWrong (key j) (cls j)).sum ∧
      t.maximum = ((List.range q).map fun j => if (key j).mode = .voidDrop then 0 else (key j).weight).sum ∧
      t.correct = counted (fun j => normal j &&
        match cls j with | .single o => decide (o ∈ (key j).accepted) | _ => false) ∧
      t.multiple = counted (fun j => normal j && decide (cls j = .multiple)) ∧
      t.blank = counted (fun j => normal j && decide (cls j = .blank)) ∧
      t.unclear = counted (fun j => normal j && decide (cls j = .unclear)) ∧
      t.void = counted (fun j => !normal j) ∧
      t.correct + t.wrong + t.multiple + t.blank + t.unclear + t.void = q ∧
      t.unclearList =
        ((List.range q).filter fun j => normal j && decide (cls j = .unclear)).map (· + 1) ∧
      x.final = t.sum.toNat ∧ x.final ≤ x.maximum ∧ x.maximum = t.maximum ∧
      x.perMille = (if x.maximum = 0 then 0 else x.final * 1000 / x.maximum) ∧ x.perMille ≤ 1000 ∧
      x.unclearList = t.unclearList.take 16 ∧ x.truncated = decide (16 < t.unclearList.length) ∧
      x.clamped = decide (t.sum < 0) ∧ x.noMax = decide (t.maximum = 0) ∧ x.generation = generation

/-! ## The office link -/

/-- A frame on OL_RX with a bad length, or with a CRC that fails at its end, and a frame cut short by the gap limit, add 1
to bad frames and change nothing else. -/
def Obligations.BadOfficeFramesAreCountedAlone : Prop :=
  ∀ (bytes : List Byte) (s : State), s.office.awaitQuiet = false →
    (2 ≤ bytes.length →
      beVal (bytes.take 2) < 2 ∨ 1024 < beVal (bytes.take 2) ∨
        (beVal (bytes.take 2) + 4 ≤ bytes.length ∧
          (bytes.drop (beVal (bytes.take 2) + 2)).take 2 ≠
            be 2 (crc16 (bytes.take (beVal (bytes.take 2) + 2))).toNat) →
      ∃ t, exec (.officeFrameEnd bytes) s = .next t ∧ t.office.stats.badFrames = statUp s.office.stats.badFrames ∧
        t.office.stats.framesIn = s.office.stats.framesIn ∧ Unchanged [.badFrames] s t) ∧
    ∃ t, exec .officeGapLimit s = .next t ∧ t.office.stats.badFrames = statUp s.office.stats.badFrames ∧
      t.office.stats.framesIn = s.office.stats.framesIn ∧ Unchanged [.badFrames] s t

/-- A frame that carries a well-formed request does exactly what the request does: every field of every request is read
from the bytes that the layouts of chapter 12 give it. Where the layouts leave a byte open the model chooses it: how a
written entry's read-only fields are sent (log entry 12); the groups of statistics, the targets of a desk message and the
channel byte of a SIGNALS source (log entry 15); an accepted set as a list (log entry 28); and a typed row stands for its
whole frame (log entry 23). -/
def Obligations.RequestBytesDoWhatTheRequestDoes : Prop :=
  ∀ (i : Instr) (tag kind : Byte) (payload : List Byte) (s : State), i.wf = true → i.request = some (tag, kind, payload) →
    payload.length ≤ 1022 → s.office.awaitQuiet = false →
    ∃ t, exec (.officeFrameEnd (officeFrame kind tag payload).tail) s = .next t ∧ exec i s = .next t

/-- RESET_ALL is answered OK and nothing else happens until its response has left. A request of any kind after it is
discarded uncounted, and so is one that comes before OL_RX has been quiet; one that finds 8 responses queued is discarded
and counted in frames in and in bad frames. -/
def Obligations.ResetAllWaitsAndRequestsAreDiscarded : Prop :=
  (∀ (tag : Byte) (s : State), s.takesRequest →
    ∃ t, exec (.resetAll tag) s = .next t ∧ Answered s t tag 0x03#8 .ok [] ∧ t.office.resetPending = true ∧
      t.office.awaitQuiet = false ∧ Unchanged [.responses, .framesIn, .receiver] s t) ∧
  ∀ (i : Instr) (tag kind : Byte) (payload : List Byte) (s : State), i.request = some (tag, kind, payload) →
    (s.office.awaitQuiet = true ∨ s.office.resetPending = true → ∃ t, exec i s = .next t ∧ Unchanged [] s t) ∧
    (s.office.awaitQuiet = false → s.office.resetPending = false → 8 ≤ s.office.responses.length →
      ∃ t, exec i s = .next t ∧ t.office.stats.framesIn = statUp s.office.stats.framesIn ∧
        t.office.stats.badFrames = statUp s.office.stats.badFrames ∧
        t.office.stats.protectedReads = s.office.stats.protectedReads ∧ Unchanged [.framesIn, .badFrames] s t)

/-- A request that is refused changes nothing but the response queued and the frame counted. One of an undefined kind is
answered UNKNOWN_COMMAND, and a WRITE_TABLE naming no table, or PRESENCE, UNKNOWN_TABLE, whatever else it carries: that these
two stand before the RANGE of a payload of the wrong size is the model's choice (DESIGN CHOICE, log entry 33). -/
def Obligations.RefusedRequestsChangeNothing : Prop :=
  ∀ (tag kind : Byte) (payload : List Byte) (s : State), s.takesRequest →
    (∃ t code out, exec (.undefinedRequest tag kind payload) s = .next t ∧
      t.office.responses = s.office.responses ++ [⟨tag, kind, code, out⟩] ∧
      (code ≠ .ok → code ≠ .clamped →
        t.office.stats.framesIn = statUp s.office.stats.framesIn ∧ Unchanged [.responses, .framesIn] s t) ∧
      (kind.toNat = 0 ∨ 10 < kind.toNat → code = .unknownCommand ∧ out = [])) ∧
    ∀ table first n, table = 0 ∨ 12 ≤ table →
      ∃ t, exec (.writeTable tag table first n payload) s = .next t ∧ Answered s t tag 0x02#8 .unknownTable [] ∧
        Unchanged [.responses, .framesIn] s t

/-- READ_TABLE, in the order of its checks: UNKNOWN_TABLE for a code past the twelve tables; RANGE for no entries; TOO_LONG
for more than 16, or more bytes than one response carries, counting of a range that runs past the table's end the entries
inside it alone (the model's reading: DEDUCED, log entry 26); RANGE for an entry outside the table; else OK with the entries
named in index order, one PROTECTED read counted for KEYS, which reads as the zero entry. The bytes of each table's entry;
their codes, and what the layouts of chapter 12 leave open of them, are those of log entry 15 (DESIGN CHOICE). -/
def Obligations.ReadTableReturnsTheEntries : Prop :=
  (∀ (tag : Byte) (first n : Nat) (s : State), s.takesRequest →
    (∀ table lo hi, tableSpan table = some (lo, hi) →
      let long := decide (16 < n) || decide (1021 < (s.entriesBytes table first n hi).length)
      (n = 0 → Refuses s (.readTable tag table first n) tag 0x01#8 .range) ∧
      (n ≠ 0 → long = true → Refuses s (.readTable tag table first n) tag 0x01#8 .tooLong) ∧
      (n ≠ 0 → long = false → first < lo ∨ hi < first + n →
        Refuses s (.readTable tag table first n) tag 0x01#8 .range) ∧
      (table ≠ 9 → n ≠ 0 → long = false → lo ≤ first → first + n ≤ hi →
        ∃ t, exec (.readTable tag table first n) s = .next t ∧
          Answered s t tag 0x01#8 .ok ((List.range n).flatMap fun j => s.tableBytes table (first + j)) ∧
          Unchanged [.responses, .framesIn] s t)) ∧
    (∀ table, tableSpan table = none → Refuses s (.readTable tag table first n) tag 0x01#8 .unknownTable) ∧
    (n = 0 ∨ (n ≤ 16 ∧ 3200 < first + n) → Refuses s (.readKeys tag first n) tag 0x01#8 .range) ∧
    (16 < n → Refuses s (.readKeys tag first n) tag 0x01#8 .tooLong) ∧
    (n ≠ 0 → n ≤ 16 → first + n ≤ 3200 → ∃ t, exec (.readKeys tag first n) s = .next t ∧
      Answered s t tag 0x01#8 .ok (List.replicate (4 * n) 0#8) ∧
      t.office.stats.protectedReads = statUp s.office.stats.protectedReads ∧
      Unchanged [.responses, .framesIn, .protectedReads] s t)) ∧
  (∀ table, tableSpan table = [none, some (0, 1), some (0, 384), some (1, 9), some (0, 512), some (0, 16), some (0, 8),
    some (0, 4), some (0, 4), some (0, 3200), some (0, 64), some (0, 8), some (0, 392)].getD table none) ∧
  ∀ (s : State) (i : Nat),
    s.tableBytes 1 i = s.hall.seatPoll.flatMap (be 2) ++ be 2 s.hall.stationPoll ++ be 2 s.hall.seatingLimit ++
      be 2 s.hall.clearingTime ++ be 2 s.hall.verdictDeadline ++ b1 s.hall.highMark ++
      ((Category.all.take 16).flatMap fun c => bBool (decide (c ∈ s.hall.masks))) ++ be 3 s.time.hallTime ++
      be 4 (s.time.lastPeriod.getD 0) ∧
    (let r := s.seat i
     s.tableBytes 2 i = bBool r.configured ++ b1 r.row ++ b1 r.column ++ bBool r.accessible ++ bBool (!r.inService) ++
        match r.occ with
        | .free => [0#8]
        | .held k n => [1#8] ++ be 2 k ++ be 2 n
        | .occupied k => [2#8] ++ be 2 k
        | .clearing n => [3#8] ++ be 2 n) ∧
    s.tableBytes 3 i = bBool (s.station i).configured ++
      [match (s.station i).role with | .entrance => 0#8 | .collect => 1#8 | .issue => 2#8] ∧
    (s.entry i = none → s.tableBytes 4 i = [0#8]) ∧
    (∀ e, s.entry i = some e → s.tableBytes 4 i = [1#8] ++ packed 4 e.id ++ b1 e.channel ++ b1 e.cls ++
      bOpt (be 2) e.fixed ++ b1 e.state.code ++ bOpt (be 2) e.seat ++ bOpt (be 2) e.lastSeat ++ b1 e.percent ++
      be 2 e.budget ++ bBool e.accessible ++ be 2 e.allowed ++ be 2 e.written ++ be 2 e.remaining ++ b1 e.breaks ++
      (b1 e.booklets.length ++ e.booklets.flatMap fun b => packed 3 b ++ bBool (s.isReturned b)) ++
      bOpt (be 3) e.finish ++ b1 e.result.code ++ bBool e.late ++ bBool e.relaxed ++ bBool e.moved ++
      bBool e.budgetOut ++ bBool e.deskLost) ∧
    (let c := s.chan i
     s.tableBytes 5 i = c.config.bytes ++ b1 c.state.code ++ be 2 c.length ++ be 2 c.readElapsed ++
        be 2 c.writeElapsed ++ bBool c.closed ++ bBool c.spent ++ bBool c.hold ++ be 3 c.holdSeconds ++
        bOpt (be 2) (c.amendment.map Amendment.length) ++ bBool (decide (c.active = .b)) ++ b1 c.generation ++
        bBool (decide (c.stage ≠ .idle)) ++ be 2 (s.slotsOf i).length) ∧
    s.tableBytes 6 i = b1 (s.cls i).percent ++ be 2 (s.cls i).budget ++ bBool (s.cls i).accessible ∧
    s.tableBytes 7 i = bBool (s.form i).defined ++ b1 (s.form i).questions ++ b1 (s.form i).options ++
      b1 (s.form i).grid ∧
    (let p := s.profile i
     s.tableBytes 8 i = bBool p.defined ++ b1 p.blank ++ b1 p.mark ++ b1 p.margin ++ bBool p.asWrong ++ b1 p.refer ++
        b1 p.span) ∧
    s.tableBytes 10 i = b1 (s.message i).length ++ s.message i ∧
    (let e := (s.signal i).pending.getD (s.signal i).entry
     s.tableBytes 11 i = (match e.source with
          | .none => [0#8]
          | .channel c => [1#8] ++ b1 c
          | .hallHeld => [2#8]
          | .refLost => [3#8]) ++ b1 e.condition.code ++ bBool e.flash ++ bBool e.activeLow ++
        bBool ((s.signal i).active != (s.signal i).entry.activeLow)) ∧
    ∀ l a, (i < 384 ∧ l = i / 64 ∧ a = i % 64 + 1) ∨ (384 ≤ i ∧ l = 6 ∧ a = i - 383) →
      s.tableBytes 12 i = bBool (s.configured l a) ++ b1 (s.presence l a).code ++ b1 ((s.line l).addr a).missed ++
        [BitVec.ofInt 8 ((s.line l).addr a).owed] ++ b1 (s.line l).state.code

/-- A HALL write of one entry at index 0 stores every value brought into its range, a poll interval first rounded down to
a multiple of 50, and each of the sixteen masks, and is answered CLAMPED when a value was changed so. A mask byte above 1
is taken as set and answered CLAMPED: DESIGN CHOICE, log entry 27. -/
def Obligations.WriteHallClampsAndStores : Prop :=
  ∀ (tag : Byte) (w : HallWrite) (s : State), s.takesRequest → w.seatPoll.length = 6 → w.masks.length = 16 →
    ∃ t, exec (.writeHall tag 0 [w]) s = .next t ∧
      Answered s t tag 0x02#8 (if w.exact then .ok else .clamped) [] ∧
      t.hall.seatPoll = w.seatPoll.map (fun v => max 100 (min 1000 (v / 50 * 50))) ∧
      t.hall.stationPoll = max 50 (min 500 (w.stationPoll / 50 * 50)) ∧
      t.hall.seatingLimit = max 60 (min 900 w.seatingLimit) ∧ t.hall.clearingTime = min 600 w.clearingTime ∧
      t.hall.verdictDeadline = max 100 (min 2000 w.verdictDeadline) ∧ t.hall.highMark = max 1 (min 255 w.highMark) ∧
      (∀ (j : Nat) (c : Category) (m : Nat), Category.all[j]? = some c → w.masks[j]? = some m → (c ∈ t.hall.masks ↔ 0 < m)) ∧
      Category.noticeLost ∉ t.hall.masks ∧ Unchanged [.hall, .responses, .framesIn] s t

/-- SEATS and STATIONS. A SEATS write whose entries are in range, name no HELD or OCCUPIED seat and leave no two configured
seats at one position: each record takes the five written fields and keeps its occupancy, and a seat whose configured
field changes has its desk ABSENT. A STATIONS write in range stores the entries; a station whose configured field
changes is ABSENT. -/
def Obligations.WriteSeatsAndStationsStoreTheRecords : Prop :=
  ∀ (tag : Byte) (first : Nat) (s : State), s.takesRequest →
    (∀ ws : List SeatWrite, ws ≠ [] → ws.length ≤ 4 → first + ws.length ≤ 384 →
      (∀ w ∈ ws, w.configured ≤ 1 ∧ w.row ≤ 63 ∧ w.column ≤ 63 ∧ w.accessible ≤ 1 ∧ w.service ≤ 1) →
      (∀ j, j < ws.length → (s.seat (first + j)).occ.slot = none) → sharesPosition (s.seatsAfter first ws) = false →
      ∃ t, exec (.writeSeats tag first ws) s = .next t ∧ Answered s t tag 0x02#8 .ok [] ∧
        (∀ j w, ws[j]? = some w → t.seat (first + j) = { s.seat (first + j) with
            configured := decide (w.configured = 1)
            row := w.row
            column := w.column
            accessible := decide (w.accessible = 1)
            inService := decide (w.service = 0) } ∧
          t.presence (seatLine (first + j)) (seatAddr (first + j)) =
            if (s.seat (first + j)).configured = decide (w.configured = 1)
            then s.presence (seatLine (first + j)) (seatAddr (first + j)) else .absent) ∧
        (∀ i, i < first ∨ first + ws.length ≤ i → t.seat i = s.seat i ∧
          t.presence (seatLine i) (seatAddr i) = s.presence (seatLine i) (seatAddr i)) ∧
        Unchanged [.seats, .presence, .responses, .framesIn] s t) ∧
    ∀ ws : List StationWrite, ws ≠ [] → ws.length ≤ 4 → 1 ≤ first → first + ws.length ≤ 9 →
      (∀ w ∈ ws, w.configured ≤ 1 ∧ w.role ≤ 2) →
      ∃ t, exec (.writeStations tag first ws) s = .next t ∧ Answered s t tag 0x02#8 .ok [] ∧
        (∀ j w, ws[j]? = some w → t.station (first + j) =
            ⟨decide (w.configured = 1), if w.role = 0 then .entrance else if w.role = 1 then .collect else .issue⟩ ∧
          t.presence 6 (first + j) =
            if (s.station (first + j)).configured = decide (w.configured = 1) then s.presence 6 (first + j)
            else .absent) ∧
        (∀ a, a < first ∨ first + ws.length ≤ a → t.station a = s.station a ∧ t.presence 6 a = s.presence 6 a) ∧
        Unchanged [.stations, .presence, .responses, .framesIn] s t

/-- ROSTER writes. One entry that its checks pass: the slot is in use with the values on write. One that frees a slot
whose entry may go leaves it free. Two entries that put one candidate id into one channel are refused DUPLICATE, when
the first passes its checks, and nothing changes. -/
def Obligations.WriteRosterStoresOrFreesTheSlot : Prop :=
  ∀ (tag : Byte) (k : Nat) (s : State), s.takesRequest → k ≤ 511 →
    (∀ e, s.entry k = some e → e.state = .expected ∧ e.booklets = [] ∧
      ((s.chan e.channel).state = .loaded ∨ (s.chan e.channel).state = .opened)) →
    (∀ id c n fixed, id ≤ 99999999 → c ≤ 15 → n ≤ 7 → (∀ i, fixed = some i → i ≤ 383) →
      (s.chan c).state = .loaded ∨ (s.chan c).admitting = true → s.duplicates k id c = false →
      s.conflicts k id c = false →
      ∃ t, exec (.writeRoster tag k [.use id c n fixed]) s = .next t ∧ Answered s t tag 0x02#8 .ok [] ∧
        t.entry k = some (Entry.written0 id c n fixed) ∧ (∀ j, j ≠ k → t.entry j = s.entry j) ∧
        Unchanged [.roster, .seats, .booklets, .responses, .framesIn] s t) ∧
    (∃ t, exec (.writeRoster tag k [.free]) s = .next t ∧ Answered s t tag 0x02#8 .ok [] ∧ t.entry k = none ∧
      (∀ j, j ≠ k → t.entry j = s.entry j) ∧ Unchanged [.roster, .seats, .booklets, .responses, .framesIn] s t) ∧
    ∀ id c n n', k ≤ 510 → s.entry (k + 1) = none → id ≤ 99999999 → c ≤ 15 → n ≤ 7 → n' ≤ 7 →
      (s.chan c).state = .loaded → s.duplicates k id c = false →
      ∃ t, exec (.writeRoster tag k [.use id c n none, .use id c n' none]) s = .next t ∧
        Answered s t tag 0x02#8 .duplicate [] ∧ Unchanged [.responses, .framesIn] s t

/-- A CHANNELS write of one entry in range: of a FREE channel the configuration alone changes; of a LOADED channel, with
form and profile defined and the paper number no other loaded channel's, W is also copied into the working W and
admission spent is cleared. -/
def Obligations.WriteChannelsStoresTheConfiguration : Prop :=
  ∀ (tag : Byte) (c : Nat) (w : ChannelWrite) (s : State), s.takesRequest → c ≤ 15 → w.inRange = true →
    (s.chan c).state = .free ∨ ((s.chan c).state = .loaded ∧ (s.form w.form).defined = true ∧
      (s.profile w.profile).defined = true ∧ s.paperTaken c w.paper = false) →
    ∃ t, exec (.writeChannels tag c [w]) s = .next t ∧ Answered s t tag 0x02#8 .ok [] ∧
      t.chan c = (if (s.chan c).state = .loaded
        then { s.chan c with config := w.config, length := w.writing, spent := false }
        else { s.chan c with config := w.config }) ∧
      (∀ d, d ≠ c → t.chan d = s.chan d) ∧ Unchanged [.channels, .responses, .framesIn] s t

/-- A CLASSES, FORMS or PROFILES write of one entry in range: the entry holds the written values and every other stands.
A form must not be named by a channel that is not FREE, and its grid profile must be defined when it is; a profile must
not be referenced by one, and one made undefined must be no defined form's grid profile. -/
def Obligations.WriteClassesFormsAndProfilesStoreTheEntries : Prop :=
  ∀ (tag : Byte) (n : Nat) (s : State), s.takesRequest →
    (∀ w : ClassWrite, n ≤ 7 → w.percent ≤ 100 → w.budget ≤ 3600 → w.accessible ≤ 1 →
      ∃ t, exec (.writeClasses tag n [w]) s = .next t ∧ Answered s t tag 0x02#8 .ok [] ∧
        t.cls n = ⟨w.percent, w.budget, decide (w.accessible = 1)⟩ ∧ (∀ m, m ≠ n → t.cls m = s.cls m) ∧
        Unchanged [.classes, .responses, .framesIn] s t) ∧
    (∀ w : FormWrite, n ≤ 3 → w.defined ≤ 1 → 1 ≤ w.questions → w.questions ≤ 200 → 2 ≤ w.options → w.options ≤ 8 →
      w.grid ≤ 3 → s.formUsed n = false → (w.defined = 1 → (s.profile w.grid).defined = true) →
      ∃ t, exec (.writeForms tag n [w]) s = .next t ∧ Answered s t tag 0x02#8 .ok [] ∧
        t.form n = ⟨decide (w.defined = 1), w.questions, w.options, w.grid⟩ ∧ (∀ m, m ≠ n → t.form m = s.form m) ∧
        Unchanged [.forms, .responses, .framesIn] s t) ∧
    (∀ w : ProfileWrite, n ≤ 3 → w.inRange = true → s.profileUsed n = false →
      (w.defined = 0 → s.gridUsed n = false) →
      ∃ t, exec (.writeProfiles tag n [w]) s = .next t ∧ Answered s t tag 0x02#8 .ok [] ∧
        t.profile n = ⟨decide (w.defined = 1), w.blank, w.mark, w.margin, decide (w.handling = 1), w.refer, w.span⟩ ∧
        (∀ m, m ≠ n → t.profile m = s.profile m) ∧ Unchanged [.profiles, .responses, .framesIn] s t)

/-- A KEYS write of one entry of question q in range, to a channel that is not FREE and not committing: the inactive bank
holds it at position q − 1, and the active bank and the rest of the channel stand. -/
def Obligations.WriteKeysReachesTheInactiveBank : Prop :=
  ∀ (tag : Byte) (c q : Nat) (w : KeyWrite) (s : State), s.takesRequest → c ≤ 15 → 1 ≤ q → q ≤ 200 →
    (s.chan c).state ≠ .free → (s.chan c).stage = .idle →
    w.inRange q (s.form (s.chan c).config.form).questions (s.form (s.chan c).config.form).options = true →
    ∃ t, exec (.writeKeys tag (c * 200 + (q - 1)) [w]) s = .next t ∧ Answered s t tag 0x02#8 .ok [] ∧
      (∀ x, tabGet KeyEntry.zero ((t.chan c).bank x) (q - 1) =
        if x = (s.chan c).active then tabGet KeyEntry.zero ((s.chan c).bank x) (q - 1) else w.entry) ∧
      (∀ x p, p ≠ q - 1 →
        tabGet KeyEntry.zero ((t.chan c).bank x) p = tabGet KeyEntry.zero ((s.chan c).bank x) p) ∧
      (∃ b, t.chan c = match (s.chan c).active with
        | .a => { s.chan c with bankB := b }
        | .b => { s.chan c with bankA := b }) ∧
      (t.chan c).bank (s.chan c).active = (s.chan c).bank (s.chan c).active ∧
      (∀ d, d ≠ c → t.chan d = s.chan d) ∧ Unchanged [.channels, .responses, .framesIn] s t

/-- A MESSAGES write of a text of at most 40 printable characters stores it, and a longer or other one is refused RANGE; a
WRITE_TABLE of MESSAGES with the text as bytes, its length before it, does the same. A SIGNALS write in range is held as
pending: the entry in force and the level driven stand until a second tick. -/
def Obligations.WriteMessagesAndSignals : Prop :=
  ∀ (tag : Byte) (n : Nat) (s : State), s.takesRequest →
    (∀ text : List Byte, n ≤ 63 → text.length ≤ 255 →
      ∃ t, exec (.writeMessages tag n [text]) s = .next t ∧
        exec (.writeTable tag 10 n 1 (b1 text.length ++ text)) s = .next t ∧
        if text.length ≤ 40 ∧ ∀ x ∈ text, 0x20 ≤ x.toNat ∧ x.toNat ≤ 0x7E then
          Answered s t tag 0x02#8 .ok [] ∧ t.message n = text ∧ (∀ m, m ≠ n → t.message m = s.message m) ∧
            Unchanged [.messages, .responses, .framesIn] s t
        else Answered s t tag 0x02#8 .range [] ∧ Unchanged [.responses, .framesIn] s t) ∧
    ∀ w : SignalWrite, n ≤ 7 → w.source ≤ 3 → (w.source = 1 → w.channel ≤ 15) → w.condition ≤ 4 → w.mode ≤ 1 →
      w.polarity ≤ 1 →
      ∃ t, exec (.writeSignals tag n [w]) s = .next t ∧ Answered s t tag 0x02#8 .ok [] ∧
        t.signal n = { s.signal n with pending := some w.entry } ∧ (t.signal n).pin = (s.signal n).pin ∧
        (∀ m, m ≠ n → t.signal m = s.signal m) ∧ Unchanged [.signals, .responses, .framesIn] s t

/-- READ_STATUS, READ_FLAGS, READ_RESULTS and READ_HISTOGRAM answer with what stands; READ_FLAGS clears every flag but
LINE_TEST_DONE and NOTICE_LOST, which a wiring test that ends at once with nothing left to try may raise anew, and
the others change nothing. READ_RESULTS of 0 records is refused RANGE and of more than 4 TOO_LONG, and READ_HISTOGRAM of
a channel above 15 RANGE. The payload of READ_STATUS is given item by item, and a result record in its 52 bytes by the
offsets of 12.5. The codes of the status bytes (READY 0, the hold condition with its cause in one byte) are
those of log entry 15 (DESIGN CHOICE). -/
def Obligations.ReadsReturnWhatStands : Prop :=
  ∀ (tag : Byte) (s : State), s.takesRequest →
    (∃ t, exec (.readStatus tag) s = .next t ∧ Answered s t tag 0x04#8 .ok (statusPayload s) ∧
      Unchanged [.responses, .framesIn] s t) ∧
    (∃ t, exec (.readFlags tag) s = .next t ∧
      Answered s t tag 0x05#8 .ok (Category.all.flatMap fun c => bBool (decide (c ∈ s.office.flags))) ∧
      (∀ c, c ≠ .lineTestDone → c ≠ .noticeLost → c ∉ t.office.flags) ∧
      ((∀ l, l < 7 → (s.line l).state = .testing → (s.line l).exchange ≠ none) → t.office.flags = []) ∧
      Unchanged [.flags, .responses, .framesIn] s t) ∧
    (∀ start, Refuses s (.readResults tag start 0) tag 0x07#8 .range) ∧
    (∀ start most, 4 < most → Refuses s (.readResults tag start most) tag 0x07#8 .tooLong) ∧
    (∀ start most, 1 ≤ most → most ≤ 4 → ∃ t, exec (.readResults tag start most) s = .next t ∧
      (let found := (s.log.records.filter fun r => decide (start ≤ r.number)).take most
       Answered s t tag 0x07#8 .ok
        (be 2 s.log.records.length ++ be 4 s.log.next ++ b1 found.length ++ found.flatMap recordPayload)) ∧
      Unchanged [.responses, .framesIn] s t) ∧
    (∀ c, 15 < c → Refuses s (.readHistogram tag c) tag 0x09#8 .range) ∧
    (∀ c, c ≤ 15 → ∃ t, exec (.readHistogram tag c) s = .next t ∧
      Answered s t tag 0x09#8 .ok (b1 (s.chan c).state.code ++
        (List.range 20).flatMap fun b => be 2 (tabGet 0 (s.chan c).histogram b)) ∧ Unchanged [.responses, .framesIn] s t)

/-- READ_STATS answers with the counters of its group, its own frame counted, and with clear yes sets that group to 0;
STATS_CLEAR sets every group to 0. The counters of each group stand in the order of its table, 4 bytes each. What a free
line sends at once after is counted anew, so a line's counters are said of a line with an exchange in flight, and notices
dropped of a part with no free line under test. The groups' numbers, lines 0 to 6, sheet port 7, booklet register 8, office
link 9, are log entry 15 (DESIGN CHOICE). -/
def Obligations.StatisticsAreReadAndCleared : Prop :=
  ∀ (tag : Byte) (s : State), s.takesRequest →
    let quiet := ∀ l, l < 7 → (s.line l).state = .testing → (s.line l).exchange ≠ none
    (∀ g, 9 < g → ∀ clear, Refuses s (.readStats tag g clear) tag 0x06#8 .range) ∧
    (∀ g, g ≤ 9 → ∃ t, exec (.readStats tag g false) s = .next t ∧
      Answered s t tag 0x06#8 .ok (countersAnswered s g) ∧ Unchanged [.responses, .framesIn] s t) ∧
    (∀ l, l ≤ 6 → ∃ t, exec (.readStats tag l true) s = .next t ∧
      Answered s t tag 0x06#8 .ok (countersAnswered s l) ∧
      ((s.line l).exchange ≠ none → (t.line l).stats = ⟨0, 0, 0, 0, 0, 0, 0, 0, 0⟩) ∧
      (∀ m, m ≠ l → (s.line m).exchange ≠ none → (t.line m).stats = (s.line m).stats) ∧
      Unchanged [.responses, .framesIn] s t) ∧
    (∃ t, exec (.readStats tag 7 true) s = .next t ∧
      t.office.responses = s.office.responses ++ [⟨tag, 0x06#8, .ok, countersAnswered s 7⟩] ∧
      t.intake.stats = ⟨0, 0, 0, 0, 0, 0, 0⟩ ∧ t.bookletStats = s.bookletStats ∧
      Unchanged [.intake, .responses, .framesIn] s t) ∧
    (∃ t, exec (.readStats tag 8 true) s = .next t ∧ Answered s t tag 0x06#8 .ok (countersAnswered s 8) ∧
      t.bookletStats = ⟨0, 0, 0⟩ ∧ t.booklets = s.booklets ∧ t.intake.stats = s.intake.stats ∧
      Unchanged [.booklets, .responses, .framesIn] s t) ∧
    (∃ t, exec (.readStats tag 9 true) s = .next t ∧
      t.office.responses = s.office.responses ++ [⟨tag, 0x06#8, .ok, countersAnswered s 9⟩] ∧
      t.office.stats.framesIn = 0 ∧ t.office.stats.badFrames = 0 ∧
      t.office.stats.noticesSent = 0 ∧ t.office.stats.protectedReads = 0 ∧
      (quiet → t.office.stats.noticesDropped = 0) ∧
      Unchanged [.responses, .framesIn, .badFrames, .noticesSent, .protectedReads] s t) ∧
    ∃ t, exec (.statsClear tag) s = .next t ∧
      t.office.responses = s.office.responses ++ [⟨tag, 0x03#8, .ok, []⟩] ∧ t.office.stats.framesIn = 0 ∧
      t.office.stats.badFrames = 0 ∧ t.office.stats.noticesSent = 0 ∧ t.office.stats.protectedReads = 0 ∧
      (quiet → t.office.stats.noticesDropped = 0) ∧
      (∀ l, l < 7 → (s.line l).exchange ≠ none → (t.line l).stats = ⟨0, 0, 0, 0, 0, 0, 0, 0, 0⟩) ∧
      t.intake.stats = ⟨0, 0, 0, 0, 0, 0, 0⟩ ∧ t.bookletStats = ⟨0, 0, 0⟩ ∧
      t.intake.slots = s.intake.slots ∧ t.booklets = s.booklets ∧
      Unchanged [.intake, .booklets, .responses, .framesIn, .badFrames, .noticesSent, .protectedReads] s t

/-- RELEASE_RESULTS removes every record numbered at or below its operand and answers with the numbers removed and left;
the next sequence number stands, the full notice is armed when fewer than 256 records are left, and every RELEASING
channel whose teardown gate then stands open becomes FREE. -/
def Obligations.ReleaseResultsRemovesTheRecords : Prop :=
  ∀ (tag : Byte) (upto : Nat) (s : State), s.takesRequest →
    ∃ t, exec (.releaseResults tag upto) s = .next t ∧
      t.log = ⟨s.log.records.filter fun r => decide (upto < r.number), s.log.next,
        s.log.armed || decide ((s.log.records.filter fun r => decide (upto < r.number)).length < 256)⟩ ∧
      Answered s t tag 0x08#8 .ok
        (be 2 (s.log.records.filter fun r => decide (r.number ≤ upto)).length ++
          be 2 (s.log.records.filter fun r => decide (upto < r.number)).length) ∧
      (∀ c, c < 16 → (t.chan c).state =
        if (s.chan c).state = .releasing ∧ (∀ r ∈ s.log.records, upto < r.number → r.channel ≠ some c) ∧
          s.scoringResolved c = false then .free else (s.chan c).state) ∧
      Unchanged [.log, .channels, .roster, .seats, .booklets, .flags, .notices, .responses, .framesIn] s t

/-- A desk message queues one note to the desk of its seat, to the desk of every seat OCCUPIED by its channel, to its line,
or to every line as a broadcast, or drops it where the FIFO has no room or the line is QUIET, and answers with the numbers
queued and dropped, 2 bytes each (DESIGN CHOICE, log entry 15). A message index above 63, and a seat, channel or line out of
its range, is refused RANGE, and a seat not configured NOT_FOUND. That an index above 63 is refused RANGE for an
unconfigured seat too, where R185 gives both refusals and no order, is the model's choice (DESIGN CHOICE, log entry 33). The
notes are said of lines with an exchange in flight: a free line takes its head note at once. -/
def Obligations.DeskMessageCountsItsNotes : Prop :=
  ∀ (tag : Byte) (target : DeskTarget) (m : Nat) (s : State), s.takesRequest →
    let text := NoteContent.message (s.message m)
    (63 < m → ∃ t, exec (.deskMessage tag target m) s = .next t ∧ Answered s t tag 0x0A#8 .range [] ∧
      Unchanged [.responses, .framesIn] s t) ∧
    (m ≤ 63 → ∃ t q d, exec (.deskMessage tag .hall m) s = .next t ∧
      Answered s t tag 0x0A#8 .ok (be 2 q ++ be 2 d) ∧ q + d = 7 ∧
      q = ((List.range 7).filter fun l => (s.line l).takesNote).length ∧
      (∀ l, l < 7 → (s.line l).exchange ≠ none →
        (t.line l).fifo = (s.line l).fifo ++ if (s.line l).takesNote then [⟨0, text⟩] else []) ∧
      Unchanged [.responses, .framesIn] s t) ∧
    (m ≤ 63 → ∀ i,
      (383 < i → Refuses s (.deskMessage tag (.seat i) m) tag 0x0A#8 .range) ∧
      (i ≤ 383 → (s.seat i).configured = false → Refuses s (.deskMessage tag (.seat i) m) tag 0x0A#8 .notFound) ∧
      (i ≤ 383 → (s.seat i).configured = true → MessageGoes s tag (.seat i) m (seatLine i) (seatAddr i))) ∧
    (m ≤ 63 → ∀ l, (6 < l → Refuses s (.deskMessage tag (.line l) m) tag 0x0A#8 .range) ∧
      (l ≤ 6 → MessageGoes s tag (.line l) m l 0)) ∧
    (m ≤ 63 → ∀ c, (15 < c → Refuses s (.deskMessage tag (.channel c) m) tag 0x0A#8 .range) ∧
      (c ≤ 15 → s.canonical = true → (∀ i, 384 ≤ i → (s.seat i).occ.slot = none) →
        let desks := fun l => (List.range 64).filter fun j => s.occupiedBy (64 * l + j) c
        let room := fun l => if (s.line l).state = .quiet then 0 else 16 - (s.line l).fifo.length
        ∃ t q d, exec (.deskMessage tag (.channel c) m) s = .next t ∧
          Answered s t tag 0x0A#8 .ok (be 2 q ++ be 2 d) ∧
          q = ((List.range 6).map fun l => min (room l) (desks l).length).sum ∧
          q + d = ((List.range 6).map fun l => (desks l).length).sum ∧
          (∀ l, l < 6 → (s.line l).exchange ≠ none →
            (t.line l).fifo = (s.line l).fifo ++ ((desks l).take (room l)).map fun j => ⟨j + 1, text⟩) ∧
          Unchanged [.responses, .framesIn] s t))

/-- RESET_SITTINGS ends every sitting in one step: seats FREE, slots free, channels FREE with their configuration, the
booklet table, the log, the slots and the verdict queue empty with the numbering kept, every warning pending absent; every
line's marks and notes are emptied, and a broadcast BLANK queued to each ACTIVE line (said of lines with an exchange in
flight, for a free line sends at once); hall time, the states of the lines, tables, presences,
flags, notices and statistics stand, the counters of the office link but for the command's own frame and those of the lines
but for the one frame that a free line sends at once. -/
def Obligations.ResetSittingsEndsEverySitting : Prop :=
  ∀ (tag : Byte) (s : State), s.canonical = true → s.takesRequest →
    ∃ t, exec (.resetSittings tag) s = .next t ∧ Answered s t tag 0x03#8 .ok [] ∧
      (∀ i, t.seat i = { s.seat i with occ := .free, closing := .none, lost := none }) ∧ t.roster = [] ∧
      t.booklets = [] ∧ t.bookletStats = s.bookletStats ∧
      (∀ c, t.chan c = { Channel.blank with config := (s.chan c).config, length := (s.chan c).config.writing }) ∧
      t.log = ⟨[], s.log.next, true⟩ ∧ t.intake.slots = [] ∧ t.intake.arrivals = [] ∧ t.intake.verdicts = [] ∧
      t.intake.marking = none ∧ t.intake.stats = s.intake.stats ∧
      ((∀ l, l < 7 → (s.line l).state = .testing → (s.line l).exchange ≠ none) →
        t.office.stats.noticesDropped = s.office.stats.noticesDropped) ∧
      (∀ k, mapGet t.warnings k = none) ∧
      (∀ l, l < 7 → (s.line l).exchange ≠ none → (t.line l).marks = [] ∧ (t.line l).state = (s.line l).state ∧
        (t.line l).fifo = if (s.line l).state = .active then [⟨0, .blank⟩] else []) ∧
      (∀ l, ((s.line l).exchange ≠ none → (t.line l).stats = (s.line l).stats) ∧
        ∃ p n, (t.line l).stats = { (s.line l).stats with polls := p, notesSent := n }) ∧
      Unchanged [.seats, .roster, .booklets, .channels, .log, .intake, .responses, .framesIn] s t

/-! ## Laws that every step keeps -/

/-- After every command SHEET_RDY is asserted exactly while the part is READY and a slot is EMPTY, and a transmitter
stands idle only with nothing queued for it. The part that is NOT_READY becomes READY exactly when the reference has left
ACQUIRING and every line has ended its first sweep, and READY stands through every command but POWER_ON and the end of
RESET_ALL's response. -/
def Obligations.OutputsFollowTheState : Prop :=
  ∀ (c : Instr) (s t : State), exec c s = .next t →
    t.intake.ready = (t.office.ready && t.intake.emptySlot.isSome) ∧
      (t.intake.tx = .idle → t.intake.verdicts = []) ∧
      (t.office.tx = .idle → t.office.responses = [] ∧ t.office.notices = []) ∧
      (s.office.ready = false → t.office.ready = true → t.time.refState ≠ .acquiring ∧ ∀ l, l < 7 → (t.line l).swept = true) ∧
      (t.office.ready = false → t.time.refState = .acquiring ∨ ∃ l, l < 7 ∧ (t.line l).swept = false) ∧
      (s.office.ready = true → c ≠ .powerOn →
        ¬(c = .officeFrameSent ∧ s.office.tx = .response ∧ s.office.resetPending = true ∧ s.office.responses.tail = []) →
        t.office.ready = true)

/-- Every step keeps every table in canonical form, the tables inside the channels and the lines among them. The form is
the model's own (log entry 21). -/
def Obligations.EveryStepKeepsTheTablesCanonical : Prop :=
  ∀ s t : State, s.canonical = true → step s = .next t → t.canonical = true

/-- Every step keeps the laws of the lines: each desk marked at most once and at most 64 of them, at most 16 notes, every
owed poll count in −8 to +9, every missed-reply count in 0 to 2, both 0 at an address that is not PRESENT. -/
def Obligations.EveryStepKeepsTheLinesLawful : Prop :=
  (∀ s t : State, s.linesLawful = true → step s = .next t → t.linesLawful = true) ∧
    ∀ n : Line, n.lawful = true → n.marks.length ≤ 64

/-- Every step keeps the capacities: at most 8 responses, 32 notices, 4 start-of-sheet overrun verdicts and 256 records,
with room for the record of a sheet whose work is done. -/
def Obligations.EveryStepKeepsTheCapacities : Prop :=
  ∀ s t : State, s.queuesFit = true → s.logFits = true → step s = .next t → t.queuesFit = true ∧ t.logFits = true

/-- The laws of the roster: every HELD or OCCUPIED seat names an entry that names the seat, and the entry's state goes with
it; every entry stands in a state that its channel's phase allows; no candidate id stands twice in one channel nor in two
active ones; the sheet slots follow the receiver, the arrivals and the marking unit; and every SCORED or REFERRED record
refers to a COLLECTED entry in use of a channel that is not FREE. Every step from a state with canonical tables keeps them,
and the machine after reset has them, with canonical tables (the model's own form, log entry 21), lawful lines and queues
within their capacities. -/
def Obligations.ResetKeepsEveryLaw : Prop :=
  (State.reset.canonical = true ∧ State.reset.linesLawful = true ∧ State.reset.queuesFit = true ∧
    State.reset.logFits = true ∧ State.reset.rosterLawful = true) ∧
  ∀ s t : State, s.canonical = true → s.rosterLawful = true → step s = .next t → t.rosterLawful = true
end

