-- ==== Sys2Proof/Laws/Map.lean ====
section
/-! SUPPORT. Laws of finite maps and tables: read after write, and the canonical form that every write keeps. -/

namespace Sys2Proof.Machine

set_option Elab.async false

variable {α : Type}

/-! ## Read after write -/

@[simp] theorem mapGet_mapErase (m : PMap α) (i j : Nat) :
    mapGet (mapErase m i) j = if i = j then none else mapGet m j := by
  induction m with
  | nil => simp [mapGet, mapErase]
  | cons p m ih =>
    obtain ⟨k, v⟩ := p
    by_cases hk : k = i
    · subst hk; simp only [mapErase, mapGet, if_true, ih]; split <;> simp_all
    · simp only [mapErase, mapGet, if_neg hk, ih]
      by_cases hj : k = j
      · subst hj; simp [Ne.symm hk]
      · simp [hj]

theorem mapGet_mapInsert_self (m : PMap α) (i : Nat) (v : α) (h : mapGet m i = none) :
    mapGet (mapInsert m i v) i = some v := by
  induction m with
  | nil => simp [mapGet, mapInsert]
  | cons p m ih =>
    obtain ⟨k, w⟩ := p
    have hk : k ≠ i := by rintro rfl; simp [mapGet] at h
    simp only [mapGet, if_neg hk] at h
    by_cases hik : i < k
    · simp [mapInsert, hik, mapGet]
    · simp [mapInsert, hik, mapGet, hk, ih h]

theorem mapGet_mapInsert_of_ne (m : PMap α) {i j : Nat} (v : α) (h : i ≠ j) :
    mapGet (mapInsert m i v) j = mapGet m j := by
  induction m with
  | nil => simp [mapGet, mapInsert, h]
  | cons p m ih =>
    obtain ⟨k, w⟩ := p
    by_cases hik : i < k
    · simp [mapInsert, hik, mapGet, h]
    · simp [mapInsert, hik, mapGet, ih]

@[simp] theorem mapGet_mapPut (m : PMap α) (i j : Nat) (v : α) :
    mapGet (mapPut m i v) j = if i = j then some v else mapGet m j := by
  by_cases h : i = j
  · subst h; simp [mapPut, mapGet_mapInsert_self]
  · simp [mapPut, mapGet_mapInsert_of_ne _ _ h, h]

@[simp] theorem tabGet_tabSet [DecidableEq α] (d : α) (m : PMap α) (i j : Nat) (v : α) :
    tabGet d (tabSet d m i v) j = if i = j then v else tabGet d m j := by
  unfold tabGet tabSet
  by_cases hv : v = d <;> by_cases h : i = j <;> simp [hv, h]

theorem tabGet_nil (d : α) (i : Nat) : tabGet d ([] : PMap α) i = d := rfl

theorem mapGet_mem {m : PMap α} {i : Nat} {v : α} (h : mapGet m i = some v) : (i, v) ∈ m := by
  induction m with
  | nil => simp [mapGet] at h
  | cons p m ih =>
    obtain ⟨k, w⟩ := p
    by_cases hk : k = i
    · subst hk; simp only [mapGet, if_true, Option.some.injEq] at h; simp [h]
    · simp only [mapGet, if_neg hk] at h; exact List.mem_cons_of_mem _ (ih h)

/-! ## Canonical form -/

theorem mapRises_mono {m : PMap α} {a b : Nat} (hab : a ≤ b) (h : mapRises b m = true) : mapRises a m = true := by
  cases m with
  | nil => rfl
  | cons p m => obtain ⟨k, v⟩ := p; simp only [mapRises, Bool.and_eq_true, decide_eq_true_eq] at h ⊢; exact ⟨by omega, h.2⟩

theorem mapRises_mapErase {m : PMap α} {a : Nat} (i : Nat) (h : mapRises a m = true) :
    mapRises a (mapErase m i) = true := by
  induction m generalizing a with
  | nil => rfl
  | cons p m ih =>
    obtain ⟨k, v⟩ := p
    simp only [mapRises, Bool.and_eq_true, decide_eq_true_eq] at h
    by_cases hk : k = i
    · simp only [mapErase, hk, if_true]; exact mapRises_mono (by omega) (ih h.2)
    · simp only [mapErase, hk, if_false, mapRises, Bool.and_eq_true, decide_eq_true_eq]; exact ⟨h.1, ih h.2⟩

theorem mapRises_mapInsert {m : PMap α} {a i : Nat} (v : α) (ha : a ≤ i) (hi : mapGet m i = none)
    (h : mapRises a m = true) : mapRises a (mapInsert m i v) = true := by
  induction m generalizing a with
  | nil => simp [mapInsert, mapRises, ha]
  | cons p m ih =>
    obtain ⟨k, w⟩ := p
    simp only [mapRises, Bool.and_eq_true, decide_eq_true_eq] at h
    have hk : k ≠ i := by rintro rfl; simp [mapGet] at hi
    simp only [mapGet, if_neg hk] at hi
    by_cases hik : i < k
    · simp only [mapInsert, hik, if_true, mapRises, Bool.and_eq_true, decide_eq_true_eq]
      exact ⟨ha, hik, h.2⟩
    · simp only [mapInsert, hik, if_false, mapRises, Bool.and_eq_true, decide_eq_true_eq]
      exact ⟨h.1, ih (by omega) hi h.2⟩

theorem mapRises_mapPut {m : PMap α} (i : Nat) (v : α) (h : mapRises 0 m = true) : mapRises 0 (mapPut m i v) = true :=
  mapRises_mapInsert v (Nat.zero_le i) (by simp) (mapRises_mapErase i h)

theorem mapRises_filter {m : PMap α} {a : Nat} (f : Nat × α → Bool) (h : mapRises a m = true) :
    mapRises a (m.filter f) = true := by
  induction m generalizing a with
  | nil => rfl
  | cons p m ih =>
    obtain ⟨k, v⟩ := p
    simp only [mapRises, Bool.and_eq_true, decide_eq_true_eq] at h
    by_cases hf : f (k, v) = true
    · simp only [List.filter_cons, hf, if_true, mapRises, Bool.and_eq_true, decide_eq_true_eq]; exact ⟨h.1, ih h.2⟩
    · simp only [List.filter_cons, hf]; exact mapRises_mono (by omega) (ih h.2)

theorem mapRises_map {m : PMap α} {a : Nat} (f : Nat × α → α) (h : mapRises a m = true) :
    mapRises a (m.map fun p => (p.1, f p)) = true := by
  induction m generalizing a with
  | nil => rfl
  | cons p m ih =>
    obtain ⟨k, v⟩ := p
    simp only [mapRises, Bool.and_eq_true, decide_eq_true_eq] at h
    simp only [List.map_cons, mapRises, Bool.and_eq_true, decide_eq_true_eq]; exact ⟨h.1, ih h.2⟩

theorem mem_mapErase {m : PMap α} {i : Nat} {p : Nat × α} (h : p ∈ mapErase m i) : p ∈ m := by
  induction m with
  | nil => simp [mapErase] at h
  | cons q m ih =>
    obtain ⟨k, v⟩ := q
    by_cases hk : k = i
    · simp only [mapErase, hk, if_true] at h; exact List.mem_cons_of_mem _ (ih h)
    · simp only [mapErase, hk, if_false, List.mem_cons] at h
      rcases h with h | h
      · simp [h]
      · exact List.mem_cons_of_mem _ (ih h)

theorem mem_mapInsert {m : PMap α} {i : Nat} {v : α} {p : Nat × α} (h : p ∈ mapInsert m i v) : p = (i, v) ∨ p ∈ m := by
  induction m with
  | nil => simpa [mapInsert] using h
  | cons q m ih =>
    obtain ⟨k, w⟩ := q
    by_cases hik : i < k
    · simpa [mapInsert, hik] using h
    · simp only [mapInsert, hik, if_false, List.mem_cons] at h ⊢
      rcases h with h | h
      · exact .inr (.inl h)
      · rcases ih h with h | h
        · exact .inl h
        · exact .inr (.inr h)

theorem mem_tabSet [DecidableEq α] {d : α} {m : PMap α} {i : Nat} {v : α} {p : Nat × α} (h : p ∈ tabSet d m i v) :
    p = (i, v) ∧ v ≠ d ∨ p ∈ m := by
  unfold tabSet at h
  split at h
  · exact .inr (mem_mapErase h)
  · rename_i hv
    rcases mem_mapInsert h with h | h
    · exact .inl ⟨h, hv⟩
    · exact .inr (mem_mapErase h)

theorem canon_tabSet [DecidableEq α] {d : α} {m : PMap α} (i : Nat) (v : α) (h : canon d m = true) :
    canon d (tabSet d m i v) = true := by
  simp only [canon, Bool.and_eq_true, List.all_eq_true, decide_eq_true_eq] at h ⊢
  constructor
  · unfold tabSet
    split
    · exact mapRises_mapErase i h.1
    · exact mapRises_mapPut i v h.1
  · intro p hp
    rcases mem_tabSet hp with ⟨rfl, hv⟩ | hp
    · exact hv
    · exact h.2 p hp

theorem canon_tabMap [DecidableEq α] {d : α} {m : PMap α} (f : α → α) (h : canon d m = true) :
    canon d (tabMap d f m) = true := by
  simp only [canon, Bool.and_eq_true] at h ⊢
  refine ⟨mapRises_filter _ (mapRises_map (fun p => f p.2) h.1), ?_⟩
  simp [tabMap]

theorem canon_nil [DecidableEq α] (d : α) : canon d ([] : PMap α) = true := rfl

/-- In a canonical table, what is listed is what is read. -/
theorem mapGet_of_mem {m : PMap α} {a : Nat} (h : mapRises a m = true) {p : Nat × α} (hp : p ∈ m) :
    mapGet m p.1 = some p.2 := by
  induction m generalizing a with
  | nil => simp at hp
  | cons q m ih =>
    obtain ⟨k, v⟩ := q
    simp only [mapRises, Bool.and_eq_true, decide_eq_true_eq] at h
    rcases List.mem_cons.1 hp with rfl | hp
    · simp [mapGet]
    · have hlt : k < p.1 := by
        clear ih
        have : ∀ {b : Nat} {m : PMap α}, mapRises b m = true → p ∈ m → b ≤ p.1 := by
          intro b m
          induction m generalizing b with
          | nil => intro _ h; simp at h
          | cons q m ih =>
            obtain ⟨k', v'⟩ := q
            intro hm hp
            simp only [mapRises, Bool.and_eq_true, decide_eq_true_eq] at hm
            rcases List.mem_cons.1 hp with rfl | hp
            · exact hm.1
            · have := ih hm.2 hp; omega
        exact this h.2 hp
      simp only [mapGet, if_neg (by omega : ¬ k = p.1)]
      exact ih h.2 hp

/-- Writing what a canonical table already holds changes nothing. -/
theorem mapPut_same {m : PMap α} {a : Nat} (h : mapRises a m = true) {i : Nat} {v : α} (hv : mapGet m i = some v) :
    mapPut m i v = m := by
  induction m generalizing a with
  | nil => simp [mapGet] at hv
  | cons q m ih =>
    obtain ⟨k, w⟩ := q
    simp only [mapRises, Bool.and_eq_true, decide_eq_true_eq] at h
    have head : ∀ {b : Nat} {m : PMap α} {i : Nat} {v : α}, mapRises b m = true → i < b →
        mapErase m i = m ∧ mapInsert m i v = (i, v) :: m := by
      intro b m i v
      induction m generalizing b with
      | nil => intro _ _; exact ⟨rfl, rfl⟩
      | cons q m ih =>
        obtain ⟨k', w'⟩ := q
        intro hm hi
        simp only [mapRises, Bool.and_eq_true, decide_eq_true_eq] at hm
        refine ⟨?_, ?_⟩
        · simp only [mapErase, if_neg (by omega : ¬ k' = i), (ih hm.2 (by omega)).1]
        · simp only [mapInsert, if_pos (by omega : i < k')]
    by_cases hk : k = i
    · subst hk
      simp only [mapGet, if_true, Option.some.injEq] at hv
      subst hv
      have e := head (v := w) h.2 (by omega : k < k + 1)
      simp only [mapPut, mapErase, if_true, e.1, e.2]
    · simp only [mapGet, if_neg hk] at hv
      have hki : k < i := by
        have := mapGet_mem hv
        have hb : ∀ {b : Nat} {m : PMap α}, mapRises b m = true → (i, v) ∈ m → b ≤ i := by
          intro b m
          induction m generalizing b with
          | nil => intro _ h; simp at h
          | cons q m ih =>
            obtain ⟨k', v'⟩ := q
            intro hm hp
            simp only [mapRises, Bool.and_eq_true, decide_eq_true_eq] at hm
            rcases List.mem_cons.1 hp with hp | hp
            · cases hp; exact hm.1
            · have := ih hm.2 hp; omega
        have := hb h.2 this
        omega
      have e := ih h.2 hv
      simp only [mapPut] at e
      simp only [mapPut, mapErase, if_neg hk, mapInsert, if_neg (by omega : ¬ i < k), e]

theorem mapErase_absent {m : PMap α} {i : Nat} (h : mapGet m i = none) : mapErase m i = m := by
  induction m with
  | nil => rfl
  | cons q m ih =>
    obtain ⟨k, w⟩ := q
    by_cases hk : k = i
    · simp [mapGet, hk] at h
    · simp only [mapGet, if_neg hk] at h
      simp only [mapErase, if_neg hk, ih h]

/-- Setting an entry of a canonical table to what it already reads changes nothing. -/
theorem tabSet_same [DecidableEq α] {d : α} {m : PMap α} (h : canon d m = true) (i : Nat) :
    tabSet d m i (tabGet d m i) = m := by
  simp only [canon, Bool.and_eq_true, List.all_eq_true, decide_eq_true_eq] at h
  unfold tabSet tabGet
  cases hv : mapGet m i with
  | none => simp [mapErase_absent hv]
  | some v =>
    have : v ≠ d := h.2 _ (mapGet_mem hv)
    simp [this, mapPut_same h.1 hv]

end Sys2Proof.Machine
end

