-- ==== Sys2Proof/Laws/State.lean ====
section
/-! SUPPORT. The small lemmas of the named updates of the state: each leaves every field but its own, and what is read
after it. -/

namespace Sys2Proof.Machine

set_option Elab.async false

variable (s : State)

/-! ### giveTick -/

section

variable (c : Option Nat)

@[simp] theorem State.giveTick_ticking : (s.giveTick c).ticking = c := rfl
@[simp] theorem State.giveTick_pending : (s.giveTick c).pending = s.pending := rfl
@[simp] theorem State.giveTick_time : (s.giveTick c).time = s.time := rfl
@[simp] theorem State.giveTick_signals : (s.giveTick c).signals = s.signals := rfl
@[simp] theorem State.giveTick_hall : (s.giveTick c).hall = s.hall := rfl
@[simp] theorem State.giveTick_seats : (s.giveTick c).seats = s.seats := rfl
@[simp] theorem State.giveTick_classes : (s.giveTick c).classes = s.classes := rfl
@[simp] theorem State.giveTick_roster : (s.giveTick c).roster = s.roster := rfl
@[simp] theorem State.giveTick_warnings : (s.giveTick c).warnings = s.warnings := rfl
@[simp] theorem State.giveTick_channels : (s.giveTick c).channels = s.channels := rfl
@[simp] theorem State.giveTick_booklets : (s.giveTick c).booklets = s.booklets := rfl
@[simp] theorem State.giveTick_bookletStats : (s.giveTick c).bookletStats = s.bookletStats := rfl
@[simp] theorem State.giveTick_forms : (s.giveTick c).forms = s.forms := rfl
@[simp] theorem State.giveTick_profiles : (s.giveTick c).profiles = s.profiles := rfl
@[simp] theorem State.giveTick_messages : (s.giveTick c).messages = s.messages := rfl
@[simp] theorem State.giveTick_stations : (s.giveTick c).stations = s.stations := rfl
@[simp] theorem State.giveTick_lines : (s.giveTick c).lines = s.lines := rfl
@[simp] theorem State.giveTick_intake : (s.giveTick c).intake = s.intake := rfl
@[simp] theorem State.giveTick_log : (s.giveTick c).log = s.log := rfl
@[simp] theorem State.giveTick_office : (s.giveTick c).office = s.office := rfl
@[simp] theorem State.giveTick_seat (i : Nat) : (s.giveTick c).seat i = s.seat i := rfl
@[simp] theorem State.giveTick_entry (k : Nat) : (s.giveTick c).entry k = s.entry k := rfl
@[simp] theorem State.giveTick_chan (d : Nat) : (s.giveTick c).chan d = s.chan d := rfl
@[simp] theorem State.giveTick_line (l : Nat) : (s.giveTick c).line l = s.line l := rfl
@[simp] theorem State.giveTick_signal (n : Nat) : (s.giveTick c).signal n = s.signal n := rfl

end

/-! ### onSeat -/

section

variable (i : Nat) (f : Seat → Seat)

@[simp] theorem State.onSeat_pending : (s.onSeat i f).pending = s.pending := rfl
@[simp] theorem State.onSeat_ticking : (s.onSeat i f).ticking = s.ticking := rfl
@[simp] theorem State.onSeat_time : (s.onSeat i f).time = s.time := rfl
@[simp] theorem State.onSeat_signals : (s.onSeat i f).signals = s.signals := rfl
@[simp] theorem State.onSeat_hall : (s.onSeat i f).hall = s.hall := rfl
@[simp] theorem State.onSeat_classes : (s.onSeat i f).classes = s.classes := rfl
@[simp] theorem State.onSeat_roster : (s.onSeat i f).roster = s.roster := rfl
@[simp] theorem State.onSeat_warnings : (s.onSeat i f).warnings = s.warnings := rfl
@[simp] theorem State.onSeat_channels : (s.onSeat i f).channels = s.channels := rfl
@[simp] theorem State.onSeat_booklets : (s.onSeat i f).booklets = s.booklets := rfl
@[simp] theorem State.onSeat_bookletStats : (s.onSeat i f).bookletStats = s.bookletStats := rfl
@[simp] theorem State.onSeat_forms : (s.onSeat i f).forms = s.forms := rfl
@[simp] theorem State.onSeat_profiles : (s.onSeat i f).profiles = s.profiles := rfl
@[simp] theorem State.onSeat_messages : (s.onSeat i f).messages = s.messages := rfl
@[simp] theorem State.onSeat_stations : (s.onSeat i f).stations = s.stations := rfl
@[simp] theorem State.onSeat_lines : (s.onSeat i f).lines = s.lines := rfl
@[simp] theorem State.onSeat_intake : (s.onSeat i f).intake = s.intake := rfl
@[simp] theorem State.onSeat_log : (s.onSeat i f).log = s.log := rfl
@[simp] theorem State.onSeat_office : (s.onSeat i f).office = s.office := rfl

end

/-! ### putEntry -/

section

variable (k : Nat) (e : Entry)

@[simp] theorem State.putEntry_pending : (s.putEntry k e).pending = s.pending := rfl
@[simp] theorem State.putEntry_ticking : (s.putEntry k e).ticking = s.ticking := rfl
@[simp] theorem State.putEntry_time : (s.putEntry k e).time = s.time := rfl
@[simp] theorem State.putEntry_signals : (s.putEntry k e).signals = s.signals := rfl
@[simp] theorem State.putEntry_hall : (s.putEntry k e).hall = s.hall := rfl
@[simp] theorem State.putEntry_seats : (s.putEntry k e).seats = s.seats := rfl
@[simp] theorem State.putEntry_classes : (s.putEntry k e).classes = s.classes := rfl
@[simp] theorem State.putEntry_warnings : (s.putEntry k e).warnings = s.warnings := rfl
@[simp] theorem State.putEntry_channels : (s.putEntry k e).channels = s.channels := rfl
@[simp] theorem State.putEntry_booklets : (s.putEntry k e).booklets = s.booklets := rfl
@[simp] theorem State.putEntry_bookletStats : (s.putEntry k e).bookletStats = s.bookletStats := rfl
@[simp] theorem State.putEntry_forms : (s.putEntry k e).forms = s.forms := rfl
@[simp] theorem State.putEntry_profiles : (s.putEntry k e).profiles = s.profiles := rfl
@[simp] theorem State.putEntry_messages : (s.putEntry k e).messages = s.messages := rfl
@[simp] theorem State.putEntry_stations : (s.putEntry k e).stations = s.stations := rfl
@[simp] theorem State.putEntry_lines : (s.putEntry k e).lines = s.lines := rfl
@[simp] theorem State.putEntry_intake : (s.putEntry k e).intake = s.intake := rfl
@[simp] theorem State.putEntry_log : (s.putEntry k e).log = s.log := rfl
@[simp] theorem State.putEntry_office : (s.putEntry k e).office = s.office := rfl

end

/-! ### onChan -/

section

variable (c : Nat) (f : Channel → Channel)

@[simp] theorem State.onChan_pending : (s.onChan c f).pending = s.pending := rfl
@[simp] theorem State.onChan_ticking : (s.onChan c f).ticking = s.ticking := rfl
@[simp] theorem State.onChan_time : (s.onChan c f).time = s.time := rfl
@[simp] theorem State.onChan_signals : (s.onChan c f).signals = s.signals := rfl
@[simp] theorem State.onChan_hall : (s.onChan c f).hall = s.hall := rfl
@[simp] theorem State.onChan_seats : (s.onChan c f).seats = s.seats := rfl
@[simp] theorem State.onChan_classes : (s.onChan c f).classes = s.classes := rfl
@[simp] theorem State.onChan_roster : (s.onChan c f).roster = s.roster := rfl
@[simp] theorem State.onChan_warnings : (s.onChan c f).warnings = s.warnings := rfl
@[simp] theorem State.onChan_booklets : (s.onChan c f).booklets = s.booklets := rfl
@[simp] theorem State.onChan_bookletStats : (s.onChan c f).bookletStats = s.bookletStats := rfl
@[simp] theorem State.onChan_forms : (s.onChan c f).forms = s.forms := rfl
@[simp] theorem State.onChan_profiles : (s.onChan c f).profiles = s.profiles := rfl
@[simp] theorem State.onChan_messages : (s.onChan c f).messages = s.messages := rfl
@[simp] theorem State.onChan_stations : (s.onChan c f).stations = s.stations := rfl
@[simp] theorem State.onChan_lines : (s.onChan c f).lines = s.lines := rfl
@[simp] theorem State.onChan_intake : (s.onChan c f).intake = s.intake := rfl
@[simp] theorem State.onChan_log : (s.onChan c f).log = s.log := rfl
@[simp] theorem State.onChan_office : (s.onChan c f).office = s.office := rfl

end

/-! ### onLine -/

section

variable (l : Nat) (f : Line → Line)

@[simp] theorem State.onLine_pending : (s.onLine l f).pending = s.pending := rfl
@[simp] theorem State.onLine_ticking : (s.onLine l f).ticking = s.ticking := rfl
@[simp] theorem State.onLine_time : (s.onLine l f).time = s.time := rfl
@[simp] theorem State.onLine_signals : (s.onLine l f).signals = s.signals := rfl
@[simp] theorem State.onLine_hall : (s.onLine l f).hall = s.hall := rfl
@[simp] theorem State.onLine_seats : (s.onLine l f).seats = s.seats := rfl
@[simp] theorem State.onLine_classes : (s.onLine l f).classes = s.classes := rfl
@[simp] theorem State.onLine_roster : (s.onLine l f).roster = s.roster := rfl
@[simp] theorem State.onLine_warnings : (s.onLine l f).warnings = s.warnings := rfl
@[simp] theorem State.onLine_channels : (s.onLine l f).channels = s.channels := rfl
@[simp] theorem State.onLine_booklets : (s.onLine l f).booklets = s.booklets := rfl
@[simp] theorem State.onLine_bookletStats : (s.onLine l f).bookletStats = s.bookletStats := rfl
@[simp] theorem State.onLine_forms : (s.onLine l f).forms = s.forms := rfl
@[simp] theorem State.onLine_profiles : (s.onLine l f).profiles = s.profiles := rfl
@[simp] theorem State.onLine_messages : (s.onLine l f).messages = s.messages := rfl
@[simp] theorem State.onLine_stations : (s.onLine l f).stations = s.stations := rfl
@[simp] theorem State.onLine_intake : (s.onLine l f).intake = s.intake := rfl
@[simp] theorem State.onLine_log : (s.onLine l f).log = s.log := rfl
@[simp] theorem State.onLine_office : (s.onLine l f).office = s.office := rfl

end

/-! ### onSignal -/

section

variable (n : Nat) (f : Signal → Signal)

@[simp] theorem State.onSignal_pending : (s.onSignal n f).pending = s.pending := rfl
@[simp] theorem State.onSignal_ticking : (s.onSignal n f).ticking = s.ticking := rfl
@[simp] theorem State.onSignal_time : (s.onSignal n f).time = s.time := rfl
@[simp] theorem State.onSignal_hall : (s.onSignal n f).hall = s.hall := rfl
@[simp] theorem State.onSignal_seats : (s.onSignal n f).seats = s.seats := rfl
@[simp] theorem State.onSignal_classes : (s.onSignal n f).classes = s.classes := rfl
@[simp] theorem State.onSignal_roster : (s.onSignal n f).roster = s.roster := rfl
@[simp] theorem State.onSignal_warnings : (s.onSignal n f).warnings = s.warnings := rfl
@[simp] theorem State.onSignal_channels : (s.onSignal n f).channels = s.channels := rfl
@[simp] theorem State.onSignal_booklets : (s.onSignal n f).booklets = s.booklets := rfl
@[simp] theorem State.onSignal_bookletStats : (s.onSignal n f).bookletStats = s.bookletStats := rfl
@[simp] theorem State.onSignal_forms : (s.onSignal n f).forms = s.forms := rfl
@[simp] theorem State.onSignal_profiles : (s.onSignal n f).profiles = s.profiles := rfl
@[simp] theorem State.onSignal_messages : (s.onSignal n f).messages = s.messages := rfl
@[simp] theorem State.onSignal_stations : (s.onSignal n f).stations = s.stations := rfl
@[simp] theorem State.onSignal_lines : (s.onSignal n f).lines = s.lines := rfl
@[simp] theorem State.onSignal_intake : (s.onSignal n f).intake = s.intake := rfl
@[simp] theorem State.onSignal_log : (s.onSignal n f).log = s.log := rfl
@[simp] theorem State.onSignal_office : (s.onSignal n f).office = s.office := rfl

end

/-! ### onIntake -/

section

variable (f : Intake → Intake)

@[simp] theorem State.onIntake_pending : (s.onIntake f).pending = s.pending := rfl
@[simp] theorem State.onIntake_ticking : (s.onIntake f).ticking = s.ticking := rfl
@[simp] theorem State.onIntake_time : (s.onIntake f).time = s.time := rfl
@[simp] theorem State.onIntake_signals : (s.onIntake f).signals = s.signals := rfl
@[simp] theorem State.onIntake_hall : (s.onIntake f).hall = s.hall := rfl
@[simp] theorem State.onIntake_seats : (s.onIntake f).seats = s.seats := rfl
@[simp] theorem State.onIntake_classes : (s.onIntake f).classes = s.classes := rfl
@[simp] theorem State.onIntake_roster : (s.onIntake f).roster = s.roster := rfl
@[simp] theorem State.onIntake_warnings : (s.onIntake f).warnings = s.warnings := rfl
@[simp] theorem State.onIntake_channels : (s.onIntake f).channels = s.channels := rfl
@[simp] theorem State.onIntake_booklets : (s.onIntake f).booklets = s.booklets := rfl
@[simp] theorem State.onIntake_bookletStats : (s.onIntake f).bookletStats = s.bookletStats := rfl
@[simp] theorem State.onIntake_forms : (s.onIntake f).forms = s.forms := rfl
@[simp] theorem State.onIntake_profiles : (s.onIntake f).profiles = s.profiles := rfl
@[simp] theorem State.onIntake_messages : (s.onIntake f).messages = s.messages := rfl
@[simp] theorem State.onIntake_stations : (s.onIntake f).stations = s.stations := rfl
@[simp] theorem State.onIntake_lines : (s.onIntake f).lines = s.lines := rfl
@[simp] theorem State.onIntake_log : (s.onIntake f).log = s.log := rfl
@[simp] theorem State.onIntake_office : (s.onIntake f).office = s.office := rfl

end

/-! ### onOffice -/

section

variable (f : Office → Office)

@[simp] theorem State.onOffice_pending : (s.onOffice f).pending = s.pending := rfl
@[simp] theorem State.onOffice_ticking : (s.onOffice f).ticking = s.ticking := rfl
@[simp] theorem State.onOffice_time : (s.onOffice f).time = s.time := rfl
@[simp] theorem State.onOffice_signals : (s.onOffice f).signals = s.signals := rfl
@[simp] theorem State.onOffice_hall : (s.onOffice f).hall = s.hall := rfl
@[simp] theorem State.onOffice_seats : (s.onOffice f).seats = s.seats := rfl
@[simp] theorem State.onOffice_classes : (s.onOffice f).classes = s.classes := rfl
@[simp] theorem State.onOffice_roster : (s.onOffice f).roster = s.roster := rfl
@[simp] theorem State.onOffice_warnings : (s.onOffice f).warnings = s.warnings := rfl
@[simp] theorem State.onOffice_channels : (s.onOffice f).channels = s.channels := rfl
@[simp] theorem State.onOffice_booklets : (s.onOffice f).booklets = s.booklets := rfl
@[simp] theorem State.onOffice_bookletStats : (s.onOffice f).bookletStats = s.bookletStats := rfl
@[simp] theorem State.onOffice_forms : (s.onOffice f).forms = s.forms := rfl
@[simp] theorem State.onOffice_profiles : (s.onOffice f).profiles = s.profiles := rfl
@[simp] theorem State.onOffice_messages : (s.onOffice f).messages = s.messages := rfl
@[simp] theorem State.onOffice_stations : (s.onOffice f).stations = s.stations := rfl
@[simp] theorem State.onOffice_lines : (s.onOffice f).lines = s.lines := rfl
@[simp] theorem State.onOffice_intake : (s.onOffice f).intake = s.intake := rfl
@[simp] theorem State.onOffice_log : (s.onOffice f).log = s.log := rfl

end

/-! ### onTime -/

section

variable (f : TimeBase → TimeBase)

@[simp] theorem State.onTime_pending : (s.onTime f).pending = s.pending := rfl
@[simp] theorem State.onTime_ticking : (s.onTime f).ticking = s.ticking := rfl
@[simp] theorem State.onTime_signals : (s.onTime f).signals = s.signals := rfl
@[simp] theorem State.onTime_hall : (s.onTime f).hall = s.hall := rfl
@[simp] theorem State.onTime_seats : (s.onTime f).seats = s.seats := rfl
@[simp] theorem State.onTime_classes : (s.onTime f).classes = s.classes := rfl
@[simp] theorem State.onTime_roster : (s.onTime f).roster = s.roster := rfl
@[simp] theorem State.onTime_warnings : (s.onTime f).warnings = s.warnings := rfl
@[simp] theorem State.onTime_channels : (s.onTime f).channels = s.channels := rfl
@[simp] theorem State.onTime_booklets : (s.onTime f).booklets = s.booklets := rfl
@[simp] theorem State.onTime_bookletStats : (s.onTime f).bookletStats = s.bookletStats := rfl
@[simp] theorem State.onTime_forms : (s.onTime f).forms = s.forms := rfl
@[simp] theorem State.onTime_profiles : (s.onTime f).profiles = s.profiles := rfl
@[simp] theorem State.onTime_messages : (s.onTime f).messages = s.messages := rfl
@[simp] theorem State.onTime_stations : (s.onTime f).stations = s.stations := rfl
@[simp] theorem State.onTime_lines : (s.onTime f).lines = s.lines := rfl
@[simp] theorem State.onTime_intake : (s.onTime f).intake = s.intake := rfl
@[simp] theorem State.onTime_log : (s.onTime f).log = s.log := rfl
@[simp] theorem State.onTime_office : (s.onTime f).office = s.office := rfl

end

/-! ### onLog -/

section

variable (f : ResultLog → ResultLog)

@[simp] theorem State.onLog_pending : (s.onLog f).pending = s.pending := rfl
@[simp] theorem State.onLog_ticking : (s.onLog f).ticking = s.ticking := rfl
@[simp] theorem State.onLog_time : (s.onLog f).time = s.time := rfl
@[simp] theorem State.onLog_signals : (s.onLog f).signals = s.signals := rfl
@[simp] theorem State.onLog_hall : (s.onLog f).hall = s.hall := rfl
@[simp] theorem State.onLog_seats : (s.onLog f).seats = s.seats := rfl
@[simp] theorem State.onLog_classes : (s.onLog f).classes = s.classes := rfl
@[simp] theorem State.onLog_roster : (s.onLog f).roster = s.roster := rfl
@[simp] theorem State.onLog_warnings : (s.onLog f).warnings = s.warnings := rfl
@[simp] theorem State.onLog_channels : (s.onLog f).channels = s.channels := rfl
@[simp] theorem State.onLog_booklets : (s.onLog f).booklets = s.booklets := rfl
@[simp] theorem State.onLog_bookletStats : (s.onLog f).bookletStats = s.bookletStats := rfl
@[simp] theorem State.onLog_forms : (s.onLog f).forms = s.forms := rfl
@[simp] theorem State.onLog_profiles : (s.onLog f).profiles = s.profiles := rfl
@[simp] theorem State.onLog_messages : (s.onLog f).messages = s.messages := rfl
@[simp] theorem State.onLog_stations : (s.onLog f).stations = s.stations := rfl
@[simp] theorem State.onLog_lines : (s.onLog f).lines = s.lines := rfl
@[simp] theorem State.onLog_intake : (s.onLog f).intake = s.intake := rfl
@[simp] theorem State.onLog_office : (s.onLog f).office = s.office := rfl

end

/-! ### onStats -/

section

variable (l : Nat) (f : LineStats → LineStats)

@[simp] theorem State.onStats_pending : (s.onStats l f).pending = s.pending := rfl
@[simp] theorem State.onStats_ticking : (s.onStats l f).ticking = s.ticking := rfl
@[simp] theorem State.onStats_time : (s.onStats l f).time = s.time := rfl
@[simp] theorem State.onStats_signals : (s.onStats l f).signals = s.signals := rfl
@[simp] theorem State.onStats_hall : (s.onStats l f).hall = s.hall := rfl
@[simp] theorem State.onStats_seats : (s.onStats l f).seats = s.seats := rfl
@[simp] theorem State.onStats_classes : (s.onStats l f).classes = s.classes := rfl
@[simp] theorem State.onStats_roster : (s.onStats l f).roster = s.roster := rfl
@[simp] theorem State.onStats_warnings : (s.onStats l f).warnings = s.warnings := rfl
@[simp] theorem State.onStats_channels : (s.onStats l f).channels = s.channels := rfl
@[simp] theorem State.onStats_booklets : (s.onStats l f).booklets = s.booklets := rfl
@[simp] theorem State.onStats_bookletStats : (s.onStats l f).bookletStats = s.bookletStats := rfl
@[simp] theorem State.onStats_forms : (s.onStats l f).forms = s.forms := rfl
@[simp] theorem State.onStats_profiles : (s.onStats l f).profiles = s.profiles := rfl
@[simp] theorem State.onStats_messages : (s.onStats l f).messages = s.messages := rfl
@[simp] theorem State.onStats_stations : (s.onStats l f).stations = s.stations := rfl
@[simp] theorem State.onStats_intake : (s.onStats l f).intake = s.intake := rfl
@[simp] theorem State.onStats_log : (s.onStats l f).log = s.log := rfl
@[simp] theorem State.onStats_office : (s.onStats l f).office = s.office := rfl

end

/-! ### onAddr -/

section

variable (l a : Nat) (f : AddrState → AddrState)

@[simp] theorem State.onAddr_pending : (s.onAddr l a f).pending = s.pending := rfl
@[simp] theorem State.onAddr_ticking : (s.onAddr l a f).ticking = s.ticking := rfl
@[simp] theorem State.onAddr_time : (s.onAddr l a f).time = s.time := rfl
@[simp] theorem State.onAddr_signals : (s.onAddr l a f).signals = s.signals := rfl
@[simp] theorem State.onAddr_hall : (s.onAddr l a f).hall = s.hall := rfl
@[simp] theorem State.onAddr_seats : (s.onAddr l a f).seats = s.seats := rfl
@[simp] theorem State.onAddr_classes : (s.onAddr l a f).classes = s.classes := rfl
@[simp] theorem State.onAddr_roster : (s.onAddr l a f).roster = s.roster := rfl
@[simp] theorem State.onAddr_warnings : (s.onAddr l a f).warnings = s.warnings := rfl
@[simp] theorem State.onAddr_channels : (s.onAddr l a f).channels = s.channels := rfl
@[simp] theorem State.onAddr_booklets : (s.onAddr l a f).booklets = s.booklets := rfl
@[simp] theorem State.onAddr_bookletStats : (s.onAddr l a f).bookletStats = s.bookletStats := rfl
@[simp] theorem State.onAddr_forms : (s.onAddr l a f).forms = s.forms := rfl
@[simp] theorem State.onAddr_profiles : (s.onAddr l a f).profiles = s.profiles := rfl
@[simp] theorem State.onAddr_messages : (s.onAddr l a f).messages = s.messages := rfl
@[simp] theorem State.onAddr_stations : (s.onAddr l a f).stations = s.stations := rfl
@[simp] theorem State.onAddr_intake : (s.onAddr l a f).intake = s.intake := rfl
@[simp] theorem State.onAddr_log : (s.onAddr l a f).log = s.log := rfl
@[simp] theorem State.onAddr_office : (s.onAddr l a f).office = s.office := rfl

end

/-! ### dropWarning -/

section

variable (k : Nat)

@[simp] theorem State.dropWarning_pending : (s.dropWarning k).pending = s.pending := rfl
@[simp] theorem State.dropWarning_ticking : (s.dropWarning k).ticking = s.ticking := rfl
@[simp] theorem State.dropWarning_time : (s.dropWarning k).time = s.time := rfl
@[simp] theorem State.dropWarning_signals : (s.dropWarning k).signals = s.signals := rfl
@[simp] theorem State.dropWarning_hall : (s.dropWarning k).hall = s.hall := rfl
@[simp] theorem State.dropWarning_seats : (s.dropWarning k).seats = s.seats := rfl
@[simp] theorem State.dropWarning_classes : (s.dropWarning k).classes = s.classes := rfl
@[simp] theorem State.dropWarning_roster : (s.dropWarning k).roster = s.roster := rfl
@[simp] theorem State.dropWarning_channels : (s.dropWarning k).channels = s.channels := rfl
@[simp] theorem State.dropWarning_booklets : (s.dropWarning k).booklets = s.booklets := rfl
@[simp] theorem State.dropWarning_bookletStats : (s.dropWarning k).bookletStats = s.bookletStats := rfl
@[simp] theorem State.dropWarning_forms : (s.dropWarning k).forms = s.forms := rfl
@[simp] theorem State.dropWarning_profiles : (s.dropWarning k).profiles = s.profiles := rfl
@[simp] theorem State.dropWarning_messages : (s.dropWarning k).messages = s.messages := rfl
@[simp] theorem State.dropWarning_stations : (s.dropWarning k).stations = s.stations := rfl
@[simp] theorem State.dropWarning_lines : (s.dropWarning k).lines = s.lines := rfl
@[simp] theorem State.dropWarning_intake : (s.dropWarning k).intake = s.intake := rfl
@[simp] theorem State.dropWarning_log : (s.dropWarning k).log = s.log := rfl
@[simp] theorem State.dropWarning_office : (s.dropWarning k).office = s.office := rfl

end

/-! ### setMark -/

section

variable (i : Nat)

@[simp] theorem State.setMark_pending : (s.setMark i).pending = s.pending := rfl
@[simp] theorem State.setMark_ticking : (s.setMark i).ticking = s.ticking := rfl
@[simp] theorem State.setMark_time : (s.setMark i).time = s.time := rfl
@[simp] theorem State.setMark_signals : (s.setMark i).signals = s.signals := rfl
@[simp] theorem State.setMark_hall : (s.setMark i).hall = s.hall := rfl
@[simp] theorem State.setMark_seats : (s.setMark i).seats = s.seats := rfl
@[simp] theorem State.setMark_classes : (s.setMark i).classes = s.classes := rfl
@[simp] theorem State.setMark_roster : (s.setMark i).roster = s.roster := rfl
@[simp] theorem State.setMark_warnings : (s.setMark i).warnings = s.warnings := rfl
@[simp] theorem State.setMark_channels : (s.setMark i).channels = s.channels := rfl
@[simp] theorem State.setMark_booklets : (s.setMark i).booklets = s.booklets := rfl
@[simp] theorem State.setMark_bookletStats : (s.setMark i).bookletStats = s.bookletStats := rfl
@[simp] theorem State.setMark_forms : (s.setMark i).forms = s.forms := rfl
@[simp] theorem State.setMark_profiles : (s.setMark i).profiles = s.profiles := rfl
@[simp] theorem State.setMark_messages : (s.setMark i).messages = s.messages := rfl
@[simp] theorem State.setMark_stations : (s.setMark i).stations = s.stations := rfl
@[simp] theorem State.setMark_intake : (s.setMark i).intake = s.intake := rfl
@[simp] theorem State.setMark_log : (s.setMark i).log = s.log := rfl
@[simp] theorem State.setMark_office : (s.setMark i).office = s.office := rfl

end

/-! ### dropMark -/

section

variable (i : Nat)

@[simp] theorem State.dropMark_pending : (s.dropMark i).pending = s.pending := rfl
@[simp] theorem State.dropMark_ticking : (s.dropMark i).ticking = s.ticking := rfl
@[simp] theorem State.dropMark_time : (s.dropMark i).time = s.time := rfl
@[simp] theorem State.dropMark_signals : (s.dropMark i).signals = s.signals := rfl
@[simp] theorem State.dropMark_hall : (s.dropMark i).hall = s.hall := rfl
@[simp] theorem State.dropMark_seats : (s.dropMark i).seats = s.seats := rfl
@[simp] theorem State.dropMark_classes : (s.dropMark i).classes = s.classes := rfl
@[simp] theorem State.dropMark_roster : (s.dropMark i).roster = s.roster := rfl
@[simp] theorem State.dropMark_warnings : (s.dropMark i).warnings = s.warnings := rfl
@[simp] theorem State.dropMark_channels : (s.dropMark i).channels = s.channels := rfl
@[simp] theorem State.dropMark_booklets : (s.dropMark i).booklets = s.booklets := rfl
@[simp] theorem State.dropMark_bookletStats : (s.dropMark i).bookletStats = s.bookletStats := rfl
@[simp] theorem State.dropMark_forms : (s.dropMark i).forms = s.forms := rfl
@[simp] theorem State.dropMark_profiles : (s.dropMark i).profiles = s.profiles := rfl
@[simp] theorem State.dropMark_messages : (s.dropMark i).messages = s.messages := rfl
@[simp] theorem State.dropMark_stations : (s.dropMark i).stations = s.stations := rfl
@[simp] theorem State.dropMark_intake : (s.dropMark i).intake = s.intake := rfl
@[simp] theorem State.dropMark_log : (s.dropMark i).log = s.log := rfl
@[simp] theorem State.dropMark_office : (s.dropMark i).office = s.office := rfl

end

/-! ### queueNote -/

section

variable (l a : Nat) (c : NoteContent)

@[simp] theorem State.queueNote_pending : (s.queueNote l a c).pending = s.pending := rfl
@[simp] theorem State.queueNote_ticking : (s.queueNote l a c).ticking = s.ticking := rfl
@[simp] theorem State.queueNote_time : (s.queueNote l a c).time = s.time := rfl
@[simp] theorem State.queueNote_signals : (s.queueNote l a c).signals = s.signals := rfl
@[simp] theorem State.queueNote_hall : (s.queueNote l a c).hall = s.hall := rfl
@[simp] theorem State.queueNote_seats : (s.queueNote l a c).seats = s.seats := rfl
@[simp] theorem State.queueNote_classes : (s.queueNote l a c).classes = s.classes := rfl
@[simp] theorem State.queueNote_roster : (s.queueNote l a c).roster = s.roster := rfl
@[simp] theorem State.queueNote_warnings : (s.queueNote l a c).warnings = s.warnings := rfl
@[simp] theorem State.queueNote_channels : (s.queueNote l a c).channels = s.channels := rfl
@[simp] theorem State.queueNote_booklets : (s.queueNote l a c).booklets = s.booklets := rfl
@[simp] theorem State.queueNote_bookletStats : (s.queueNote l a c).bookletStats = s.bookletStats := rfl
@[simp] theorem State.queueNote_forms : (s.queueNote l a c).forms = s.forms := rfl
@[simp] theorem State.queueNote_profiles : (s.queueNote l a c).profiles = s.profiles := rfl
@[simp] theorem State.queueNote_messages : (s.queueNote l a c).messages = s.messages := rfl
@[simp] theorem State.queueNote_stations : (s.queueNote l a c).stations = s.stations := rfl
@[simp] theorem State.queueNote_intake : (s.queueNote l a c).intake = s.intake := rfl
@[simp] theorem State.queueNote_log : (s.queueNote l a c).log = s.log := rfl
@[simp] theorem State.queueNote_office : (s.queueNote l a c).office = s.office := rfl

end

/-! ### noteSeat -/

section

variable (i : Nat) (c : NoteContent)

@[simp] theorem State.noteSeat_pending : (s.noteSeat i c).pending = s.pending := rfl
@[simp] theorem State.noteSeat_ticking : (s.noteSeat i c).ticking = s.ticking := rfl
@[simp] theorem State.noteSeat_time : (s.noteSeat i c).time = s.time := rfl
@[simp] theorem State.noteSeat_signals : (s.noteSeat i c).signals = s.signals := rfl
@[simp] theorem State.noteSeat_hall : (s.noteSeat i c).hall = s.hall := rfl
@[simp] theorem State.noteSeat_seats : (s.noteSeat i c).seats = s.seats := rfl
@[simp] theorem State.noteSeat_classes : (s.noteSeat i c).classes = s.classes := rfl
@[simp] theorem State.noteSeat_roster : (s.noteSeat i c).roster = s.roster := rfl
@[simp] theorem State.noteSeat_warnings : (s.noteSeat i c).warnings = s.warnings := rfl
@[simp] theorem State.noteSeat_channels : (s.noteSeat i c).channels = s.channels := rfl
@[simp] theorem State.noteSeat_booklets : (s.noteSeat i c).booklets = s.booklets := rfl
@[simp] theorem State.noteSeat_bookletStats : (s.noteSeat i c).bookletStats = s.bookletStats := rfl
@[simp] theorem State.noteSeat_forms : (s.noteSeat i c).forms = s.forms := rfl
@[simp] theorem State.noteSeat_profiles : (s.noteSeat i c).profiles = s.profiles := rfl
@[simp] theorem State.noteSeat_messages : (s.noteSeat i c).messages = s.messages := rfl
@[simp] theorem State.noteSeat_stations : (s.noteSeat i c).stations = s.stations := rfl
@[simp] theorem State.noteSeat_intake : (s.noteSeat i c).intake = s.intake := rfl
@[simp] theorem State.noteSeat_log : (s.noteSeat i c).log = s.log := rfl
@[simp] theorem State.noteSeat_office : (s.noteSeat i c).office = s.office := rfl

end

/-! ### noteStation -/

section

variable (a : Nat) (c : NoteContent)

@[simp] theorem State.noteStation_pending : (s.noteStation a c).pending = s.pending := rfl
@[simp] theorem State.noteStation_ticking : (s.noteStation a c).ticking = s.ticking := rfl
@[simp] theorem State.noteStation_time : (s.noteStation a c).time = s.time := rfl
@[simp] theorem State.noteStation_signals : (s.noteStation a c).signals = s.signals := rfl
@[simp] theorem State.noteStation_hall : (s.noteStation a c).hall = s.hall := rfl
@[simp] theorem State.noteStation_seats : (s.noteStation a c).seats = s.seats := rfl
@[simp] theorem State.noteStation_classes : (s.noteStation a c).classes = s.classes := rfl
@[simp] theorem State.noteStation_roster : (s.noteStation a c).roster = s.roster := rfl
@[simp] theorem State.noteStation_warnings : (s.noteStation a c).warnings = s.warnings := rfl
@[simp] theorem State.noteStation_channels : (s.noteStation a c).channels = s.channels := rfl
@[simp] theorem State.noteStation_booklets : (s.noteStation a c).booklets = s.booklets := rfl
@[simp] theorem State.noteStation_bookletStats : (s.noteStation a c).bookletStats = s.bookletStats := rfl
@[simp] theorem State.noteStation_forms : (s.noteStation a c).forms = s.forms := rfl
@[simp] theorem State.noteStation_profiles : (s.noteStation a c).profiles = s.profiles := rfl
@[simp] theorem State.noteStation_messages : (s.noteStation a c).messages = s.messages := rfl
@[simp] theorem State.noteStation_stations : (s.noteStation a c).stations = s.stations := rfl
@[simp] theorem State.noteStation_intake : (s.noteStation a c).intake = s.intake := rfl
@[simp] theorem State.noteStation_log : (s.noteStation a c).log = s.log := rfl
@[simp] theorem State.noteStation_office : (s.noteStation a c).office = s.office := rfl

end

/-! ### send -/

section

variable (l : Nat) (x : Exchange)

@[simp] theorem State.send_pending : (s.send l x).pending = s.pending := rfl
@[simp] theorem State.send_ticking : (s.send l x).ticking = s.ticking := rfl
@[simp] theorem State.send_time : (s.send l x).time = s.time := rfl
@[simp] theorem State.send_signals : (s.send l x).signals = s.signals := rfl
@[simp] theorem State.send_hall : (s.send l x).hall = s.hall := rfl
@[simp] theorem State.send_seats : (s.send l x).seats = s.seats := rfl
@[simp] theorem State.send_classes : (s.send l x).classes = s.classes := rfl
@[simp] theorem State.send_roster : (s.send l x).roster = s.roster := rfl
@[simp] theorem State.send_warnings : (s.send l x).warnings = s.warnings := rfl
@[simp] theorem State.send_channels : (s.send l x).channels = s.channels := rfl
@[simp] theorem State.send_booklets : (s.send l x).booklets = s.booklets := rfl
@[simp] theorem State.send_bookletStats : (s.send l x).bookletStats = s.bookletStats := rfl
@[simp] theorem State.send_forms : (s.send l x).forms = s.forms := rfl
@[simp] theorem State.send_profiles : (s.send l x).profiles = s.profiles := rfl
@[simp] theorem State.send_messages : (s.send l x).messages = s.messages := rfl
@[simp] theorem State.send_stations : (s.send l x).stations = s.stations := rfl
@[simp] theorem State.send_intake : (s.send l x).intake = s.intake := rfl
@[simp] theorem State.send_log : (s.send l x).log = s.log := rfl
@[simp] theorem State.send_office : (s.send l x).office = s.office := rfl

end

/-! ### notify -/

section

variable (x : Subject)

@[simp] theorem State.notify_pending : (s.notify x).pending = s.pending := rfl
@[simp] theorem State.notify_ticking : (s.notify x).ticking = s.ticking := rfl
@[simp] theorem State.notify_time : (s.notify x).time = s.time := rfl
@[simp] theorem State.notify_signals : (s.notify x).signals = s.signals := rfl
@[simp] theorem State.notify_hall : (s.notify x).hall = s.hall := rfl
@[simp] theorem State.notify_seats : (s.notify x).seats = s.seats := rfl
@[simp] theorem State.notify_classes : (s.notify x).classes = s.classes := rfl
@[simp] theorem State.notify_roster : (s.notify x).roster = s.roster := rfl
@[simp] theorem State.notify_warnings : (s.notify x).warnings = s.warnings := rfl
@[simp] theorem State.notify_channels : (s.notify x).channels = s.channels := rfl
@[simp] theorem State.notify_booklets : (s.notify x).booklets = s.booklets := rfl
@[simp] theorem State.notify_bookletStats : (s.notify x).bookletStats = s.bookletStats := rfl
@[simp] theorem State.notify_forms : (s.notify x).forms = s.forms := rfl
@[simp] theorem State.notify_profiles : (s.notify x).profiles = s.profiles := rfl
@[simp] theorem State.notify_messages : (s.notify x).messages = s.messages := rfl
@[simp] theorem State.notify_stations : (s.notify x).stations = s.stations := rfl
@[simp] theorem State.notify_lines : (s.notify x).lines = s.lines := rfl
@[simp] theorem State.notify_intake : (s.notify x).intake = s.intake := rfl
@[simp] theorem State.notify_log : (s.notify x).log = s.log := rfl

end

/-! ### onEntry -/

section

variable (k : Nat) (f : Entry → Entry)

@[simp] theorem State.onEntry_pending : (s.onEntry k f).pending = s.pending := by unfold State.onEntry; split <;> rfl
@[simp] theorem State.onEntry_ticking : (s.onEntry k f).ticking = s.ticking := by unfold State.onEntry; split <;> rfl
@[simp] theorem State.onEntry_time : (s.onEntry k f).time = s.time := by unfold State.onEntry; split <;> rfl
@[simp] theorem State.onEntry_signals : (s.onEntry k f).signals = s.signals := by unfold State.onEntry; split <;> rfl
@[simp] theorem State.onEntry_hall : (s.onEntry k f).hall = s.hall := by unfold State.onEntry; split <;> rfl
@[simp] theorem State.onEntry_seats : (s.onEntry k f).seats = s.seats := by unfold State.onEntry; split <;> rfl
@[simp] theorem State.onEntry_classes : (s.onEntry k f).classes = s.classes := by unfold State.onEntry; split <;> rfl
@[simp] theorem State.onEntry_warnings : (s.onEntry k f).warnings = s.warnings := by unfold State.onEntry; split <;> rfl
@[simp] theorem State.onEntry_channels : (s.onEntry k f).channels = s.channels := by unfold State.onEntry; split <;> rfl
@[simp] theorem State.onEntry_booklets : (s.onEntry k f).booklets = s.booklets := by unfold State.onEntry; split <;> rfl
@[simp] theorem State.onEntry_bookletStats : (s.onEntry k f).bookletStats = s.bookletStats := by unfold State.onEntry; split <;> rfl
@[simp] theorem State.onEntry_forms : (s.onEntry k f).forms = s.forms := by unfold State.onEntry; split <;> rfl
@[simp] theorem State.onEntry_profiles : (s.onEntry k f).profiles = s.profiles := by unfold State.onEntry; split <;> rfl
@[simp] theorem State.onEntry_messages : (s.onEntry k f).messages = s.messages := by unfold State.onEntry; split <;> rfl
@[simp] theorem State.onEntry_stations : (s.onEntry k f).stations = s.stations := by unfold State.onEntry; split <;> rfl
@[simp] theorem State.onEntry_lines : (s.onEntry k f).lines = s.lines := by unfold State.onEntry; split <;> rfl
@[simp] theorem State.onEntry_intake : (s.onEntry k f).intake = s.intake := by unfold State.onEntry; split <;> rfl
@[simp] theorem State.onEntry_log : (s.onEntry k f).log = s.log := by unfold State.onEntry; split <;> rfl
@[simp] theorem State.onEntry_office : (s.onEntry k f).office = s.office := by unfold State.onEntry; split <;> rfl

end

/-! ### markEntry -/

section

variable (k : Nat)

@[simp] theorem State.markEntry_pending : (s.markEntry k).pending = s.pending := by unfold State.markEntry; split <;> rfl
@[simp] theorem State.markEntry_ticking : (s.markEntry k).ticking = s.ticking := by unfold State.markEntry; split <;> rfl
@[simp] theorem State.markEntry_time : (s.markEntry k).time = s.time := by unfold State.markEntry; split <;> rfl
@[simp] theorem State.markEntry_signals : (s.markEntry k).signals = s.signals := by unfold State.markEntry; split <;> rfl
@[simp] theorem State.markEntry_hall : (s.markEntry k).hall = s.hall := by unfold State.markEntry; split <;> rfl
@[simp] theorem State.markEntry_seats : (s.markEntry k).seats = s.seats := by unfold State.markEntry; split <;> rfl
@[simp] theorem State.markEntry_classes : (s.markEntry k).classes = s.classes := by unfold State.markEntry; split <;> rfl
@[simp] theorem State.markEntry_roster : (s.markEntry k).roster = s.roster := by unfold State.markEntry; split <;> rfl
@[simp] theorem State.markEntry_warnings : (s.markEntry k).warnings = s.warnings := by unfold State.markEntry; split <;> rfl
@[simp] theorem State.markEntry_channels : (s.markEntry k).channels = s.channels := by unfold State.markEntry; split <;> rfl
@[simp] theorem State.markEntry_booklets : (s.markEntry k).booklets = s.booklets := by unfold State.markEntry; split <;> rfl
@[simp] theorem State.markEntry_bookletStats : (s.markEntry k).bookletStats = s.bookletStats := by unfold State.markEntry; split <;> rfl
@[simp] theorem State.markEntry_forms : (s.markEntry k).forms = s.forms := by unfold State.markEntry; split <;> rfl
@[simp] theorem State.markEntry_profiles : (s.markEntry k).profiles = s.profiles := by unfold State.markEntry; split <;> rfl
@[simp] theorem State.markEntry_messages : (s.markEntry k).messages = s.messages := by unfold State.markEntry; split <;> rfl
@[simp] theorem State.markEntry_stations : (s.markEntry k).stations = s.stations := by unfold State.markEntry; split <;> rfl
@[simp] theorem State.markEntry_intake : (s.markEntry k).intake = s.intake := by unfold State.markEntry; split <;> rfl
@[simp] theorem State.markEntry_log : (s.markEntry k).log = s.log := by unfold State.markEntry; split <;> rfl
@[simp] theorem State.markEntry_office : (s.markEntry k).office = s.office := by unfold State.markEntry; split <;> rfl

end

/-! ### spendWarning -/

section

variable (i : Nat)

@[simp] theorem State.spendWarning_pending : (s.spendWarning i).pending = s.pending := by unfold State.spendWarning; split <;> rfl
@[simp] theorem State.spendWarning_ticking : (s.spendWarning i).ticking = s.ticking := by unfold State.spendWarning; split <;> rfl
@[simp] theorem State.spendWarning_time : (s.spendWarning i).time = s.time := by unfold State.spendWarning; split <;> rfl
@[simp] theorem State.spendWarning_signals : (s.spendWarning i).signals = s.signals := by unfold State.spendWarning; split <;> rfl
@[simp] theorem State.spendWarning_hall : (s.spendWarning i).hall = s.hall := by unfold State.spendWarning; split <;> rfl
@[simp] theorem State.spendWarning_seats : (s.spendWarning i).seats = s.seats := by unfold State.spendWarning; split <;> rfl
@[simp] theorem State.spendWarning_classes : (s.spendWarning i).classes = s.classes := by unfold State.spendWarning; split <;> rfl
@[simp] theorem State.spendWarning_roster : (s.spendWarning i).roster = s.roster := by unfold State.spendWarning; split <;> rfl
@[simp] theorem State.spendWarning_channels : (s.spendWarning i).channels = s.channels := by unfold State.spendWarning; split <;> rfl
@[simp] theorem State.spendWarning_booklets : (s.spendWarning i).booklets = s.booklets := by unfold State.spendWarning; split <;> rfl
@[simp] theorem State.spendWarning_bookletStats : (s.spendWarning i).bookletStats = s.bookletStats := by unfold State.spendWarning; split <;> rfl
@[simp] theorem State.spendWarning_forms : (s.spendWarning i).forms = s.forms := by unfold State.spendWarning; split <;> rfl
@[simp] theorem State.spendWarning_profiles : (s.spendWarning i).profiles = s.profiles := by unfold State.spendWarning; split <;> rfl
@[simp] theorem State.spendWarning_messages : (s.spendWarning i).messages = s.messages := by unfold State.spendWarning; split <;> rfl
@[simp] theorem State.spendWarning_stations : (s.spendWarning i).stations = s.stations := by unfold State.spendWarning; split <;> rfl
@[simp] theorem State.spendWarning_lines : (s.spendWarning i).lines = s.lines := by unfold State.spendWarning; split <;> rfl
@[simp] theorem State.spendWarning_intake : (s.spendWarning i).intake = s.intake := by unfold State.spendWarning; split <;> rfl
@[simp] theorem State.spendWarning_log : (s.spendWarning i).log = s.log := by unfold State.spendWarning; split <;> rfl
@[simp] theorem State.spendWarning_office : (s.spendWarning i).office = s.office := by unfold State.spendWarning; split <;> rfl

end

/-! ### Reads after updates -/

@[simp] theorem State.seat_onSeat (i j : Nat) (f : Seat → Seat) :
    (s.onSeat i f).seat j = if i = j then f (s.seat i) else s.seat j := by simp [State.seat, State.onSeat]

@[simp] theorem State.entry_putEntry (k j : Nat) (e : Entry) :
    (s.putEntry k e).entry j = if k = j then some e else s.entry j := by simp [State.entry, State.putEntry]

@[simp] theorem State.entry_onEntry (k j : Nat) (f : Entry → Entry) :
    (s.onEntry k f).entry j = if k = j then (s.entry k).map f else s.entry j := by
  unfold State.onEntry
  split
  · rename_i e he; rw [State.entry_putEntry, he]; rfl
  · rename_i he
    split
    · rename_i hk; subst hk; rw [he]; rfl
    · rfl

@[simp] theorem State.chan_onChan (c d : Nat) (f : Channel → Channel) :
    (s.onChan c f).chan d = if c = d then f (s.chan c) else s.chan d := by simp [State.chan, State.onChan]

@[simp] theorem State.line_onLine (l m : Nat) (f : Line → Line) :
    (s.onLine l f).line m = if l = m then f (s.line l) else s.line m := by simp [State.line, State.onLine]

@[simp] theorem State.signal_onSignal (n m : Nat) (f : Signal → Signal) :
    (s.onSignal n f).signal m = if n = m then f (s.signal n) else s.signal m := by
  simp [State.signal, State.onSignal]

@[simp] theorem Intake.slot_onSlot (t : Intake) (n m : Nat) (f : Slot → Slot) :
    (t.onSlot n f).slot m = if n = m then f (t.slot n) else t.slot m := by simp [Intake.slot, Intake.onSlot]

@[simp] theorem Line.addr_onAddr (n : Line) (a b : Nat) (f : AddrState → AddrState) :
    (n.onAddr a f).addr b = if a = b then f (n.addr a) else n.addr b := by simp [Line.addr, Line.onAddr]

@[simp] theorem State.onIntake_intake (f : Intake → Intake) : (s.onIntake f).intake = f s.intake := rfl

@[simp] theorem State.onOffice_office (f : Office → Office) : (s.onOffice f).office = f s.office := rfl

@[simp] theorem State.onTime_time (f : TimeBase → TimeBase) : (s.onTime f).time = f s.time := rfl

@[simp] theorem State.onLog_log (f : ResultLog → ResultLog) : (s.onLog f).log = f s.log := rfl

/-! ### Reads that an update of another field leaves -/

@[simp] theorem State.entry_onSeat (i : Nat) (f : Seat → Seat) (j : Nat) : (s.onSeat i f).entry j = s.entry j := rfl
@[simp] theorem State.chan_onSeat (i : Nat) (f : Seat → Seat) (j : Nat) : (s.onSeat i f).chan j = s.chan j := rfl
@[simp] theorem State.line_onSeat (i : Nat) (f : Seat → Seat) (j : Nat) : (s.onSeat i f).line j = s.line j := rfl
@[simp] theorem State.seat_putEntry (k : Nat) (e : Entry) (j : Nat) : (s.putEntry k e).seat j = s.seat j := rfl
@[simp] theorem State.chan_putEntry (k : Nat) (e : Entry) (j : Nat) : (s.putEntry k e).chan j = s.chan j := rfl
@[simp] theorem State.line_putEntry (k : Nat) (e : Entry) (j : Nat) : (s.putEntry k e).line j = s.line j := rfl
@[simp] theorem State.seat_onChan (c : Nat) (f : Channel → Channel) (j : Nat) : (s.onChan c f).seat j = s.seat j := rfl
@[simp] theorem State.entry_onChan (c : Nat) (f : Channel → Channel) (j : Nat) : (s.onChan c f).entry j = s.entry j := rfl
@[simp] theorem State.line_onChan (c : Nat) (f : Channel → Channel) (j : Nat) : (s.onChan c f).line j = s.line j := rfl
@[simp] theorem State.seat_onLine (l : Nat) (f : Line → Line) (j : Nat) : (s.onLine l f).seat j = s.seat j := rfl
@[simp] theorem State.entry_onLine (l : Nat) (f : Line → Line) (j : Nat) : (s.onLine l f).entry j = s.entry j := rfl
@[simp] theorem State.chan_onLine (l : Nat) (f : Line → Line) (j : Nat) : (s.onLine l f).chan j = s.chan j := rfl
@[simp] theorem State.seat_onSignal (n : Nat) (f : Signal → Signal) (j : Nat) : (s.onSignal n f).seat j = s.seat j := rfl
@[simp] theorem State.entry_onSignal (n : Nat) (f : Signal → Signal) (j : Nat) : (s.onSignal n f).entry j = s.entry j := rfl
@[simp] theorem State.chan_onSignal (n : Nat) (f : Signal → Signal) (j : Nat) : (s.onSignal n f).chan j = s.chan j := rfl
@[simp] theorem State.line_onSignal (n : Nat) (f : Signal → Signal) (j : Nat) : (s.onSignal n f).line j = s.line j := rfl
@[simp] theorem State.seat_onIntake (f : Intake → Intake) (j : Nat) : (s.onIntake f).seat j = s.seat j := rfl
@[simp] theorem State.entry_onIntake (f : Intake → Intake) (j : Nat) : (s.onIntake f).entry j = s.entry j := rfl
@[simp] theorem State.chan_onIntake (f : Intake → Intake) (j : Nat) : (s.onIntake f).chan j = s.chan j := rfl
@[simp] theorem State.line_onIntake (f : Intake → Intake) (j : Nat) : (s.onIntake f).line j = s.line j := rfl
@[simp] theorem State.seat_onOffice (f : Office → Office) (j : Nat) : (s.onOffice f).seat j = s.seat j := rfl
@[simp] theorem State.entry_onOffice (f : Office → Office) (j : Nat) : (s.onOffice f).entry j = s.entry j := rfl
@[simp] theorem State.chan_onOffice (f : Office → Office) (j : Nat) : (s.onOffice f).chan j = s.chan j := rfl
@[simp] theorem State.line_onOffice (f : Office → Office) (j : Nat) : (s.onOffice f).line j = s.line j := rfl
@[simp] theorem State.seat_onTime (f : TimeBase → TimeBase) (j : Nat) : (s.onTime f).seat j = s.seat j := rfl
@[simp] theorem State.entry_onTime (f : TimeBase → TimeBase) (j : Nat) : (s.onTime f).entry j = s.entry j := rfl
@[simp] theorem State.chan_onTime (f : TimeBase → TimeBase) (j : Nat) : (s.onTime f).chan j = s.chan j := rfl
@[simp] theorem State.line_onTime (f : TimeBase → TimeBase) (j : Nat) : (s.onTime f).line j = s.line j := rfl
@[simp] theorem State.seat_onLog (f : ResultLog → ResultLog) (j : Nat) : (s.onLog f).seat j = s.seat j := rfl
@[simp] theorem State.entry_onLog (f : ResultLog → ResultLog) (j : Nat) : (s.onLog f).entry j = s.entry j := rfl
@[simp] theorem State.chan_onLog (f : ResultLog → ResultLog) (j : Nat) : (s.onLog f).chan j = s.chan j := rfl
@[simp] theorem State.line_onLog (f : ResultLog → ResultLog) (j : Nat) : (s.onLog f).line j = s.line j := rfl
@[simp] theorem State.seat_onStats (l : Nat) (f : LineStats → LineStats) (j : Nat) : (s.onStats l f).seat j = s.seat j := rfl
@[simp] theorem State.entry_onStats (l : Nat) (f : LineStats → LineStats) (j : Nat) : (s.onStats l f).entry j = s.entry j := rfl
@[simp] theorem State.chan_onStats (l : Nat) (f : LineStats → LineStats) (j : Nat) : (s.onStats l f).chan j = s.chan j := rfl
@[simp] theorem State.seat_onAddr (l a : Nat) (f : AddrState → AddrState) (j : Nat) : (s.onAddr l a f).seat j = s.seat j := rfl
@[simp] theorem State.entry_onAddr (l a : Nat) (f : AddrState → AddrState) (j : Nat) : (s.onAddr l a f).entry j = s.entry j := rfl
@[simp] theorem State.chan_onAddr (l a : Nat) (f : AddrState → AddrState) (j : Nat) : (s.onAddr l a f).chan j = s.chan j := rfl
@[simp] theorem State.seat_dropWarning (k : Nat) (j : Nat) : (s.dropWarning k).seat j = s.seat j := rfl
@[simp] theorem State.entry_dropWarning (k : Nat) (j : Nat) : (s.dropWarning k).entry j = s.entry j := rfl
@[simp] theorem State.chan_dropWarning (k : Nat) (j : Nat) : (s.dropWarning k).chan j = s.chan j := rfl
@[simp] theorem State.line_dropWarning (k : Nat) (j : Nat) : (s.dropWarning k).line j = s.line j := rfl
@[simp] theorem State.seat_setMark (i : Nat) (j : Nat) : (s.setMark i).seat j = s.seat j := rfl
@[simp] theorem State.entry_setMark (i : Nat) (j : Nat) : (s.setMark i).entry j = s.entry j := rfl
@[simp] theorem State.chan_setMark (i : Nat) (j : Nat) : (s.setMark i).chan j = s.chan j := rfl
@[simp] theorem State.seat_dropMark (i : Nat) (j : Nat) : (s.dropMark i).seat j = s.seat j := rfl
@[simp] theorem State.entry_dropMark (i : Nat) (j : Nat) : (s.dropMark i).entry j = s.entry j := rfl
@[simp] theorem State.chan_dropMark (i : Nat) (j : Nat) : (s.dropMark i).chan j = s.chan j := rfl
@[simp] theorem State.seat_queueNote (l a : Nat) (c : NoteContent) (j : Nat) : (s.queueNote l a c).seat j = s.seat j := rfl
@[simp] theorem State.entry_queueNote (l a : Nat) (c : NoteContent) (j : Nat) : (s.queueNote l a c).entry j = s.entry j := rfl
@[simp] theorem State.chan_queueNote (l a : Nat) (c : NoteContent) (j : Nat) : (s.queueNote l a c).chan j = s.chan j := rfl
@[simp] theorem State.seat_noteSeat (i : Nat) (c : NoteContent) (j : Nat) : (s.noteSeat i c).seat j = s.seat j := rfl
@[simp] theorem State.entry_noteSeat (i : Nat) (c : NoteContent) (j : Nat) : (s.noteSeat i c).entry j = s.entry j := rfl
@[simp] theorem State.chan_noteSeat (i : Nat) (c : NoteContent) (j : Nat) : (s.noteSeat i c).chan j = s.chan j := rfl
@[simp] theorem State.seat_noteStation (a : Nat) (c : NoteContent) (j : Nat) : (s.noteStation a c).seat j = s.seat j := rfl
@[simp] theorem State.entry_noteStation (a : Nat) (c : NoteContent) (j : Nat) : (s.noteStation a c).entry j = s.entry j := rfl
@[simp] theorem State.chan_noteStation (a : Nat) (c : NoteContent) (j : Nat) : (s.noteStation a c).chan j = s.chan j := rfl
@[simp] theorem State.seat_send (l : Nat) (x : Exchange) (j : Nat) : (s.send l x).seat j = s.seat j := rfl
@[simp] theorem State.entry_send (l : Nat) (x : Exchange) (j : Nat) : (s.send l x).entry j = s.entry j := rfl
@[simp] theorem State.chan_send (l : Nat) (x : Exchange) (j : Nat) : (s.send l x).chan j = s.chan j := rfl
@[simp] theorem State.seat_notify (x : Subject) (j : Nat) : (s.notify x).seat j = s.seat j := rfl
@[simp] theorem State.entry_notify (x : Subject) (j : Nat) : (s.notify x).entry j = s.entry j := rfl
@[simp] theorem State.chan_notify (x : Subject) (j : Nat) : (s.notify x).chan j = s.chan j := rfl
@[simp] theorem State.line_notify (x : Subject) (j : Nat) : (s.notify x).line j = s.line j := rfl
@[simp] theorem State.seat_onEntry (k : Nat) (f : Entry → Entry) (j : Nat) : (s.onEntry k f).seat j = s.seat j := by unfold State.onEntry; split <;> rfl
@[simp] theorem State.chan_onEntry (k : Nat) (f : Entry → Entry) (j : Nat) : (s.onEntry k f).chan j = s.chan j := by unfold State.onEntry; split <;> rfl
@[simp] theorem State.line_onEntry (k : Nat) (f : Entry → Entry) (j : Nat) : (s.onEntry k f).line j = s.line j := by unfold State.onEntry; split <;> rfl
@[simp] theorem State.seat_markEntry (k : Nat) (j : Nat) : (s.markEntry k).seat j = s.seat j := by unfold State.markEntry; split <;> rfl
@[simp] theorem State.entry_markEntry (k : Nat) (j : Nat) : (s.markEntry k).entry j = s.entry j := by unfold State.markEntry; split <;> rfl
@[simp] theorem State.chan_markEntry (k : Nat) (j : Nat) : (s.markEntry k).chan j = s.chan j := by unfold State.markEntry; split <;> rfl
@[simp] theorem State.seat_spendWarning (i : Nat) (j : Nat) : (s.spendWarning i).seat j = s.seat j := by unfold State.spendWarning; split <;> rfl
@[simp] theorem State.entry_spendWarning (i : Nat) (j : Nat) : (s.spendWarning i).entry j = s.entry j := by unfold State.spendWarning; split <;> rfl
@[simp] theorem State.chan_spendWarning (i : Nat) (j : Nat) : (s.spendWarning i).chan j = s.chan j := by unfold State.spendWarning; split <;> rfl
@[simp] theorem State.line_spendWarning (i : Nat) (j : Nat) : (s.spendWarning i).line j = s.line j := by unfold State.spendWarning; split <;> rfl

end Sys2Proof.Machine
end

