-- ==== Sys2Proof/Laws/Settle.lean ====
section
/-! SUPPORT. What `settle` leaves: every part but the lines' own traffic, the warnings spent in it, a LINE_TEST_DONE, and
the levels and transmitters it drives. -/

namespace Sys2Proof.Machine

set_option Elab.async false

/-! ## The fields that no line's work touches -/

/-- The state with all that a line's work may touch put aside. -/
def State.still (s : State) : State := { s with lines := [], warnings := [], office := Office.reset, intake := Intake.reset }

@[simp] theorem State.still_onLine (s : State) (l : Nat) (f : Line → Line) : (s.onLine l f).still = s.still := rfl

@[simp] theorem State.still_onStats (s : State) (l : Nat) (f : LineStats → LineStats) : (s.onStats l f).still = s.still := rfl

@[simp] theorem State.still_onAddr (s : State) (l a : Nat) (f : AddrState → AddrState) :
    (s.onAddr l a f).still = s.still := rfl

@[simp] theorem State.still_send (s : State) (l : Nat) (x : Exchange) : (s.send l x).still = s.still := rfl

@[simp] theorem State.still_setMark (s : State) (i : Nat) : (s.setMark i).still = s.still := rfl

@[simp] theorem State.still_notify (s : State) (x : Subject) : (s.notify x).still = s.still := rfl

@[simp] theorem State.still_onOffice (s : State) (f : Office → Office) : (s.onOffice f).still = s.still := rfl

@[simp] theorem State.still_onIntake (s : State) (f : Intake → Intake) : (s.onIntake f).still = s.still := rfl

@[simp] theorem State.still_spendWarning (s : State) (i : Nat) : (s.spendWarning i).still = s.still := by
  unfold State.spendWarning; split <;> rfl

theorem State.still_pending (s : State) : s.still.pending = s.pending := rfl

theorem State.still_time (s : State) : s.still.time = s.time := rfl

theorem State.still_ticking (s : State) : s.still.ticking = s.ticking := rfl

theorem State.still_signals (s : State) : s.still.signals = s.signals := rfl

theorem State.still_hall (s : State) : s.still.hall = s.hall := rfl

theorem State.still_seats (s : State) : s.still.seats = s.seats := rfl

theorem State.still_classes (s : State) : s.still.classes = s.classes := rfl

theorem State.still_roster (s : State) : s.still.roster = s.roster := rfl

theorem State.still_channels (s : State) : s.still.channels = s.channels := rfl

theorem State.still_booklets (s : State) : s.still.booklets = s.booklets := rfl

theorem State.still_bookletStats (s : State) : s.still.bookletStats = s.bookletStats := rfl

theorem State.still_forms (s : State) : s.still.forms = s.forms := rfl

theorem State.still_profiles (s : State) : s.still.profiles = s.profiles := rfl

theorem State.still_messages (s : State) : s.still.messages = s.messages := rfl

theorem State.still_stations (s : State) : s.still.stations = s.stations := rfl

theorem State.still_log (s : State) : s.still.log = s.log := rfl

/-- What every step of a fold leaves, the fold leaves. -/
theorem foldl_keeps {α β γ : Type} (g : β → γ) (f : β → α → β) (h : ∀ b a, g (f b a) = g b) (l : List α) (b : β) :
    g (l.foldl f b) = g b := by
  induction l generalizing b with
  | nil => rfl
  | cons a l ih => simp only [List.foldl_cons, ih, h]

/-- What holds before a fold and is kept by every step of it holds after it. -/
theorem foldl_invariant {α β : Type} (P : β → Prop) (f : β → α → β) (h : ∀ b a, P b → P (f b a)) (l : List α) (b : β)
    (hb : P b) : P (l.foldl f b) := by
  induction l generalizing b with
  | nil => exact hb
  | cons a l ih => exact ih _ (h _ _ hb)

@[simp] theorem State.still_sendPoll (s : State) (l a : Nat) : (s.sendPoll l a).still = s.still := by
  simp [State.sendPoll]

@[simp] theorem State.still_sendDiscovery (s : State) (l a : Nat) : (s.sendDiscovery l a).still = s.still := by
  simp [State.sendDiscovery]

@[simp] theorem State.still_sendClock (s : State) (l a : Nat) : (s.sendClock l a).still = s.still := by
  simp [State.sendClock]

@[simp] theorem State.still_restartInterval (s : State) (l : Nat) : (s.restartInterval l).still = s.still := by
  simp [State.restartInterval]

@[simp] theorem State.still_pollStep (s : State) (l : Nat) : (s.pollStep l).still = s.still := by
  unfold State.pollStep
  dsimp only
  split
  · simp
  · split
    · simp
    · split <;> simp

@[simp] theorem State.still_noteStep (s : State) (l : Nat) : (s.noteStep l).still = s.still := by
  unfold State.noteStep
  split <;> simp

@[simp] theorem State.still_arbitrate (s : State) (l : Nat) : (s.arbitrate l).still = s.still := by
  unfold State.arbitrate
  split
  · simp
  · split <;> simp

@[simp] theorem State.still_endSweep (s : State) (l : Nat) : (s.endSweep l).still = s.still := by
  unfold State.endSweep
  dsimp only
  split
  · rw [foldl_keeps State.still State.setMark (by simp)]; simp
  · simp

@[simp] theorem State.still_endTest (s : State) (l : Nat) : (s.endTest l).still = s.still := by
  simp [State.endTest]

@[simp] theorem State.still_quietStep (s : State) (l : Nat) : (s.quietStep l).still = s.still := by
  unfold State.quietStep
  split <;> simp

@[simp] theorem State.still_sweepStep (s : State) (l : Nat) : (s.sweepStep l).still = s.still := by
  unfold State.sweepStep
  split <;> simp

@[simp] theorem State.still_testStep (s : State) (l : Nat) : (s.testStep l).still = s.still := by
  unfold State.testStep
  split <;> simp

@[simp] theorem State.still_runLine (s : State) (l : Nat) : (s.runLine l).still = s.still := by
  unfold State.runLine
  split
  · simp
  · split <;> simp

@[simp] theorem State.still_runLines (s : State) : s.runLines.still = s.still :=
  foldl_keeps State.still State.runLine State.still_runLine _ s

@[simp] theorem State.still_settle (s : State) : s.settle.still = s.still := by
  simp [State.settle, State.driveReady, State.becomeReady]

@[simp] theorem State.settle_pending (s : State) : s.settle.pending = s.pending := by
  rw [← State.still_pending, State.still_settle, State.still_pending]

@[simp] theorem State.settle_time (s : State) : s.settle.time = s.time := by
  rw [← State.still_time, State.still_settle, State.still_time]

@[simp] theorem State.settle_ticking (s : State) : s.settle.ticking = s.ticking := by
  rw [← State.still_ticking, State.still_settle, State.still_ticking]

@[simp] theorem State.settle_signals (s : State) : s.settle.signals = s.signals := by
  rw [← State.still_signals, State.still_settle, State.still_signals]

@[simp] theorem State.settle_hall (s : State) : s.settle.hall = s.hall := by
  rw [← State.still_hall, State.still_settle, State.still_hall]

@[simp] theorem State.settle_seats (s : State) : s.settle.seats = s.seats := by
  rw [← State.still_seats, State.still_settle, State.still_seats]

@[simp] theorem State.settle_classes (s : State) : s.settle.classes = s.classes := by
  rw [← State.still_classes, State.still_settle, State.still_classes]

@[simp] theorem State.settle_roster (s : State) : s.settle.roster = s.roster := by
  rw [← State.still_roster, State.still_settle, State.still_roster]

@[simp] theorem State.settle_channels (s : State) : s.settle.channels = s.channels := by
  rw [← State.still_channels, State.still_settle, State.still_channels]

@[simp] theorem State.settle_booklets (s : State) : s.settle.booklets = s.booklets := by
  rw [← State.still_booklets, State.still_settle, State.still_booklets]

@[simp] theorem State.settle_bookletStats (s : State) : s.settle.bookletStats = s.bookletStats := by
  rw [← State.still_bookletStats, State.still_settle, State.still_bookletStats]

@[simp] theorem State.settle_forms (s : State) : s.settle.forms = s.forms := by
  rw [← State.still_forms, State.still_settle, State.still_forms]

@[simp] theorem State.settle_profiles (s : State) : s.settle.profiles = s.profiles := by
  rw [← State.still_profiles, State.still_settle, State.still_profiles]

@[simp] theorem State.settle_messages (s : State) : s.settle.messages = s.messages := by
  rw [← State.still_messages, State.still_settle, State.still_messages]

@[simp] theorem State.settle_stations (s : State) : s.settle.stations = s.stations := by
  rw [← State.still_stations, State.still_settle, State.still_stations]

@[simp] theorem State.settle_log (s : State) : s.settle.log = s.log := by
  rw [← State.still_log, State.still_settle, State.still_log]

@[simp] theorem State.settle_seat (s : State) (i : Nat) : s.settle.seat i = s.seat i := by simp [State.seat]

@[simp] theorem State.settle_entry (s : State) (k : Nat) : s.settle.entry k = s.entry k := by simp [State.entry]

@[simp] theorem State.settle_chan (s : State) (c : Nat) : s.settle.chan c = s.chan c := by simp [State.chan]

@[simp] theorem State.settle_signal (s : State) (n : Nat) : s.settle.signal n = s.signal n := by simp [State.signal]

/-! ## The intake -/

theorem State.intake_sendPoll (s : State) (l a : Nat) : (s.sendPoll l a).intake = s.intake := by simp [State.sendPoll]

theorem State.intake_sendDiscovery (s : State) (l a : Nat) : (s.sendDiscovery l a).intake = s.intake := by
  simp [State.sendDiscovery]

theorem State.intake_sendClock (s : State) (l a : Nat) : (s.sendClock l a).intake = s.intake := by
  simp [State.sendClock]

theorem State.intake_pollStep (s : State) (l : Nat) : (s.pollStep l).intake = s.intake := by
  unfold State.pollStep
  dsimp only
  split
  · exact State.intake_sendPoll s _ _
  · split
    · exact State.intake_sendDiscovery s _ _
    · split
      · exact State.intake_sendPoll s _ _
      · rfl

theorem State.intake_noteStep (s : State) (l : Nat) : (s.noteStep l).intake = s.intake := by
  unfold State.noteStep
  split
  · simp
  · simp [State.intake_pollStep]

@[simp] theorem State.intake_arbitrate (s : State) (l : Nat) : (s.arbitrate l).intake = s.intake := by
  unfold State.arbitrate
  split
  · exact State.intake_sendPoll s _ _
  · split
    · exact State.intake_sendClock s _ _
    · exact State.intake_noteStep s _

@[simp] theorem State.intake_endSweep (s : State) (l : Nat) : (s.endSweep l).intake = s.intake := by
  unfold State.endSweep
  dsimp only
  split
  · rw [foldl_keeps State.intake State.setMark (by simp)]; simp [State.restartInterval]
  · simp [State.restartInterval]

@[simp] theorem State.intake_runLine (s : State) (l : Nat) : (s.runLine l).intake = s.intake := by
  unfold State.runLine
  split
  · rfl
  · split
    · simp
    · unfold State.quietStep; split <;> simp
    · unfold State.sweepStep; split <;> simp
    · unfold State.testStep; split <;> simp [State.endTest, State.restartInterval]

@[simp] theorem State.intake_runLines (s : State) : s.runLines.intake = s.intake :=
  foldl_keeps State.intake State.runLine State.intake_runLine _ s

theorem State.settle_intake (s : State) :
    s.settle.intake =
      { s.intake.startTx with ready := s.settle.office.ready && s.intake.emptySlot.isSome } := by
  have h : s.intake.startTx.emptySlot = s.intake.emptySlot := by
    unfold Intake.startTx; split <;> rfl
  unfold State.settle State.driveReady State.becomeReady
  simp [h]

@[simp] theorem State.settle_slots (s : State) : s.settle.intake.slots = s.intake.slots := by
  rw [State.settle_intake]; unfold Intake.startTx; split <;> rfl

@[simp] theorem State.settle_rx (s : State) : s.settle.intake.rx = s.intake.rx := by
  rw [State.settle_intake]; unfold Intake.startTx; split <;> rfl

@[simp] theorem State.settle_arrivals (s : State) : s.settle.intake.arrivals = s.intake.arrivals := by
  rw [State.settle_intake]; unfold Intake.startTx; split <;> rfl

@[simp] theorem State.settle_verdicts (s : State) : s.settle.intake.verdicts = s.intake.verdicts := by
  rw [State.settle_intake]; unfold Intake.startTx; split <;> rfl

@[simp] theorem State.settle_marking (s : State) : s.settle.intake.marking = s.intake.marking := by
  rw [State.settle_intake]; unfold Intake.startTx; split <;> rfl

@[simp] theorem State.settle_sheetStats (s : State) : s.settle.intake.stats = s.intake.stats := by
  rw [State.settle_intake]; unfold Intake.startTx; split <;> rfl

@[simp] theorem State.settle_slot (s : State) (n : Nat) : s.settle.intake.slot n = s.intake.slot n := by
  simp [Intake.slot]

/-! ## The office link -/

/-- From `o` to `p` nothing has happened on the office link but LINE_TEST_DONE events. -/
structure Office.Quiet (o p : Office) : Prop where
  awaitQuiet : p.awaitQuiet = o.awaitQuiet
  resetPending : p.resetPending = o.resetPending
  ready : p.ready = o.ready
  tx : p.tx = o.tx
  responses : p.responses = o.responses
  framesIn : p.stats.framesIn = o.stats.framesIn
  badFrames : p.stats.badFrames = o.stats.badFrames
  noticesSent : p.stats.noticesSent = o.stats.noticesSent
  protectedReads : p.stats.protectedReads = o.stats.protectedReads
  flags : ∀ x, x ≠ .lineTestDone → x ≠ .noticeLost → (x ∈ p.flags ↔ x ∈ o.flags)
  raised : ∀ x, x ∈ o.flags → x ∈ p.flags
  notices : p.notices.filter (fun n => decide (n.subject.category ≠ .lineTestDone)) =
    o.notices.filter (fun n => decide (n.subject.category ≠ .lineTestDone))

theorem Office.Quiet.refl (o : Office) : Office.Quiet o o :=
  ⟨rfl, rfl, rfl, rfl, rfl, rfl, rfl, rfl, rfl, fun _ _ _ => Iff.rfl, fun _ h => h, rfl⟩

theorem Office.Quiet.trans {o p q : Office} (h : Office.Quiet o p) (g : Office.Quiet p q) : Office.Quiet o q :=
  ⟨g.awaitQuiet.trans h.awaitQuiet, g.resetPending.trans h.resetPending, g.ready.trans h.ready, g.tx.trans h.tx,
    g.responses.trans h.responses, g.framesIn.trans h.framesIn, g.badFrames.trans h.badFrames,
    g.noticesSent.trans h.noticesSent, g.protectedReads.trans h.protectedReads,
    fun x a b => (g.flags x a b).trans (h.flags x a b), fun x a => g.raised x (h.raised x a),
    g.notices.trans h.notices⟩

theorem Category.mem_all (c : Category) : c ∈ Category.all := by cases c <;> decide

@[simp] theorem mem_setFlag (flags : List Category) (c x : Category) : x ∈ setFlag flags c ↔ x = c ∨ x ∈ flags := by
  simp [setFlag, Category.mem_all]

/-- What raising an event does to the office link. -/
theorem State.notify_office (s : State) (x : Subject) :
    (s.notify x).office =
      if x.category ∈ s.hall.masks then { s.office with flags := setFlag s.office.flags x.category }
      else Office.notify { s.office with flags := setFlag s.office.flags x.category } ⟨x, s.time.hallTime⟩ := rfl

/-- An event raises its flag and clears none. -/
@[simp] theorem State.notify_flag (s : State) (x : Subject) (c : Category) (h : c ≠ .noticeLost) :
    c ∈ (s.notify x).office.flags ↔ c = x.category ∨ c ∈ s.office.flags := by
  rw [State.notify_office]
  split
  · simp
  · unfold Office.notify; split <;> simp [h]

/-- No event clears a flag. -/
theorem State.notify_raised (s : State) (x : Subject) {c : Category} (h : c ∈ s.office.flags) :
    c ∈ (s.notify x).office.flags := by
  rw [State.notify_office]
  split
  · simp [h]
  · unfold Office.notify; split <;> simp [h]

theorem State.notify_link (s : State) (x : Subject) :
    (s.notify x).office.awaitQuiet = s.office.awaitQuiet ∧ (s.notify x).office.resetPending = s.office.resetPending ∧
      (s.notify x).office.ready = s.office.ready ∧ (s.notify x).office.tx = s.office.tx ∧
      (s.notify x).office.responses = s.office.responses ∧
      (s.notify x).office.stats.framesIn = s.office.stats.framesIn ∧
      (s.notify x).office.stats.badFrames = s.office.stats.badFrames ∧
      (s.notify x).office.stats.noticesSent = s.office.stats.noticesSent ∧
      (s.notify x).office.stats.protectedReads = s.office.stats.protectedReads := by
  rw [State.notify_office]
  split
  · exact ⟨rfl, rfl, rfl, rfl, rfl, rfl, rfl, rfl, rfl⟩
  · unfold Office.notify; split <;> exact ⟨rfl, rfl, rfl, rfl, rfl, rfl, rfl, rfl, rfl⟩

@[simp] theorem State.notify_responses (s : State) (x : Subject) : (s.notify x).office.responses = s.office.responses :=
  (State.notify_link s x).2.2.2.2.1

theorem State.quiet_lineTestDone (s : State) (l p f a : Nat) :
    Office.Quiet s.office (s.notify (.lineTestDone l p f a)).office := by
  have k := State.notify_link s (.lineTestDone l p f a)
  obtain ⟨k1, k2, k3, k4, k5, k6, k7, k8, k9⟩ := k
  refine ⟨k1, k2, k3, k4, k5, k6, k7, k8, k9, ?_, fun x h => State.notify_raised _ _ h, ?_⟩
  · intro x h h'; rw [State.notify_flag _ _ _ h']; simp [Subject.category, h]
  · rw [State.notify_office]
    split
    · rfl
    · unfold Office.notify; split
      · simp [Subject.category]
      · rfl

theorem State.office_sendPoll (s : State) (l a : Nat) : (s.sendPoll l a).office = s.office := by simp [State.sendPoll]

theorem State.office_sendDiscovery (s : State) (l a : Nat) : (s.sendDiscovery l a).office = s.office := by
  simp [State.sendDiscovery]

theorem State.office_sendClock (s : State) (l a : Nat) : (s.sendClock l a).office = s.office := by
  simp [State.sendClock]

theorem State.office_pollStep (s : State) (l : Nat) : (s.pollStep l).office = s.office := by
  unfold State.pollStep
  dsimp only
  split
  · exact State.office_sendPoll s _ _
  · split
    · exact State.office_sendDiscovery s _ _
    · split
      · exact State.office_sendPoll s _ _
      · rfl

theorem State.office_noteStep (s : State) (l : Nat) : (s.noteStep l).office = s.office := by
  unfold State.noteStep
  split
  · simp
  · simp [State.office_pollStep]

@[simp] theorem State.office_arbitrate (s : State) (l : Nat) : (s.arbitrate l).office = s.office := by
  unfold State.arbitrate
  split
  · exact State.office_sendPoll s _ _
  · split
    · exact State.office_sendClock s _ _
    · exact State.office_noteStep s _

@[simp] theorem State.office_endSweep (s : State) (l : Nat) : (s.endSweep l).office = s.office := by
  unfold State.endSweep
  dsimp only
  split
  · rw [foldl_keeps State.office State.setMark (by simp)]; simp [State.restartInterval]
  · simp [State.restartInterval]

theorem State.quiet_runLine (s : State) (l : Nat) : Office.Quiet s.office (s.runLine l).office := by
  have same : ∀ {t : State}, t.office = s.office → Office.Quiet s.office t.office := by
    intro t h; rw [h]; exact .refl _
  unfold State.runLine
  split
  · exact .refl _
  · split
    · exact same (by simp)
    · unfold State.quietStep; split <;> exact same (by simp)
    · unfold State.sweepStep; split <;> exact same (by simp)
    · unfold State.testStep
      split
      · exact same (by simp)
      · rw [State.office_arbitrate, State.endTest]
        refine Office.Quiet.trans (same ?_) (State.quiet_lineTestDone _ _ _ _ _)
        simp [State.restartInterval]

theorem State.quiet_runLines (s : State) : Office.Quiet s.office s.runLines.office :=
  foldl_invariant (fun t => Office.Quiet s.office t.office) State.runLine
    (fun t l h => h.trans (State.quiet_runLine t l)) _ s (.refl _)

/-- What `settle` does to the office link. -/
theorem State.settle_office (s : State) :
    s.settle.office = { s.runLines.office with ready := s.runLines.office.ready || s.runLines.readyNow }.startTx := by
  simp [State.settle, State.driveReady, State.becomeReady]

theorem Office.startTx_keeps (o : Office) :
    o.startTx.awaitQuiet = o.awaitQuiet ∧ o.startTx.resetPending = o.resetPending ∧ o.startTx.ready = o.ready ∧
      o.startTx.responses = o.responses ∧ o.startTx.notices = o.notices ∧ o.startTx.flags = o.flags ∧
      o.startTx.stats = o.stats := by
  unfold Office.startTx
  split
  · split
    · exact ⟨rfl, rfl, rfl, rfl, rfl, rfl, rfl⟩
    · split <;> exact ⟨rfl, rfl, rfl, rfl, rfl, rfl, rfl⟩
  · exact ⟨rfl, rfl, rfl, rfl, rfl, rfl, rfl⟩

@[simp] theorem State.settle_responses (s : State) : s.settle.office.responses = s.office.responses := by
  rw [State.settle_office, (Office.startTx_keeps _).2.2.2.1]; exact (State.quiet_runLines s).responses

@[simp] theorem State.settle_awaitQuiet (s : State) : s.settle.office.awaitQuiet = s.office.awaitQuiet := by
  rw [State.settle_office, (Office.startTx_keeps _).1]; exact (State.quiet_runLines s).awaitQuiet

@[simp] theorem State.settle_resetPending (s : State) : s.settle.office.resetPending = s.office.resetPending := by
  rw [State.settle_office, (Office.startTx_keeps _).2.1]; exact (State.quiet_runLines s).resetPending

@[simp] theorem State.settle_framesIn (s : State) : s.settle.office.stats.framesIn = s.office.stats.framesIn := by
  rw [State.settle_office, (Office.startTx_keeps _).2.2.2.2.2.2]; exact (State.quiet_runLines s).framesIn

@[simp] theorem State.settle_badFrames (s : State) : s.settle.office.stats.badFrames = s.office.stats.badFrames := by
  rw [State.settle_office, (Office.startTx_keeps _).2.2.2.2.2.2]; exact (State.quiet_runLines s).badFrames

@[simp] theorem State.settle_noticesSent (s : State) :
    s.settle.office.stats.noticesSent = s.office.stats.noticesSent := by
  rw [State.settle_office, (Office.startTx_keeps _).2.2.2.2.2.2]; exact (State.quiet_runLines s).noticesSent

@[simp] theorem State.settle_protectedReads (s : State) :
    s.settle.office.stats.protectedReads = s.office.stats.protectedReads := by
  rw [State.settle_office, (Office.startTx_keeps _).2.2.2.2.2.2]; exact (State.quiet_runLines s).protectedReads

theorem State.settle_flags (s : State) (x : Category) (h : x ≠ .lineTestDone) (h' : x ≠ .noticeLost) :
    x ∈ s.settle.office.flags ↔ x ∈ s.office.flags := by
  rw [State.settle_office, (Office.startTx_keeps _).2.2.2.2.2.1]; exact (State.quiet_runLines s).flags x h h'

theorem State.settle_raised (s : State) {x : Category} (h : x ∈ s.office.flags) : x ∈ s.settle.office.flags := by
  rw [State.settle_office, (Office.startTx_keeps _).2.2.2.2.2.1]; exact (State.quiet_runLines s).raised x h

theorem State.settle_notices (s : State) :
    s.settle.office.notices.filter (fun n => decide (n.subject.category ≠ .lineTestDone)) =
      s.office.notices.filter (fun n => decide (n.subject.category ≠ .lineTestDone)) := by
  rw [State.settle_office, (Office.startTx_keeps _).2.2.2.2.1]; exact (State.quiet_runLines s).notices

end Sys2Proof.Machine
end

