-- ==== Sys2Proof/Laws/Lines.lean ====
section
/-! SUPPORT. What the lines' own work leaves on the lines: presences and missed-reply counts. -/

namespace Sys2Proof.Machine

set_option Elab.async false

/-- From `s` to `t` every address keeps its presence and its missed-reply count. -/
def DesksKept (s t : State) : Prop :=
  ∀ l a, ((t.line l).addr a).presence = ((s.line l).addr a).presence ∧
    ((t.line l).addr a).missed = ((s.line l).addr a).missed

theorem DesksKept.refl (s : State) : DesksKept s s := fun _ _ => ⟨rfl, rfl⟩

theorem DesksKept.trans {s t u : State} (h : DesksKept s t) (g : DesksKept t u) : DesksKept s u :=
  fun l a => ⟨(g l a).1.trans (h l a).1, (g l a).2.trans (h l a).2⟩

theorem DesksKept.of_lines {s t : State} (h : t.lines = s.lines) : DesksKept s t := by
  intro l a; simp [State.line, h]

theorem DesksKept.onLine (s : State) (l : Nat) (f : Line → Line)
    (h : ∀ a, ((f (s.line l)).addr a).presence = ((s.line l).addr a).presence ∧
      ((f (s.line l)).addr a).missed = ((s.line l).addr a).missed) : DesksKept s (s.onLine l f) := by
  intro m a
  by_cases hm : l = m
  · subst hm; simpa using h a
  · simp [hm]

/-- A change of a line that leaves its addresses. -/
theorem DesksKept.onLine_addrs (s : State) (l : Nat) (f : Line → Line) (h : (f (s.line l)).addrs = (s.line l).addrs) :
    DesksKept s (s.onLine l f) :=
  DesksKept.onLine s l f fun a => by simp [Line.addr, h]

theorem DesksKept.onStats (s : State) (l : Nat) (f : LineStats → LineStats) : DesksKept s (s.onStats l f) :=
  DesksKept.onLine_addrs s l _ rfl

theorem DesksKept.send (s : State) (l : Nat) (x : Exchange) : DesksKept s (s.send l x) :=
  DesksKept.onLine_addrs s l _ rfl

theorem DesksKept.setMark (s : State) (i : Nat) : DesksKept s (s.setMark i) :=
  DesksKept.onLine_addrs s _ _ (by unfold Line.setMark; split <;> rfl)

theorem DesksKept.dropMark (s : State) (i : Nat) : DesksKept s (s.dropMark i) := DesksKept.onLine_addrs s _ _ rfl

theorem DesksKept.queueNote (s : State) (l a : Nat) (c : NoteContent) : DesksKept s (s.queueNote l a c) :=
  DesksKept.onLine_addrs s l _ (by unfold Line.queueNote; split <;> rfl)

theorem DesksKept.onAddr (s : State) (l a : Nat) (f : AddrState → AddrState)
    (h : ∀ r, (f r).presence = r.presence ∧ (f r).missed = r.missed) : DesksKept s (s.onAddr l a f) := by
  refine DesksKept.onLine s l _ fun b => ?_
  by_cases hb : a = b
  · subst hb; simpa using h _
  · simp [hb]

theorem DesksKept.notify (s : State) (x : Subject) : DesksKept s (s.notify x) := DesksKept.of_lines (by simp)

theorem DesksKept.spendWarning (s : State) (i : Nat) : DesksKept s (s.spendWarning i) := DesksKept.of_lines (by simp)

theorem DesksKept.sendPoll (s : State) (l a : Nat) : DesksKept s (s.sendPoll l a) := by
  have h := DesksKept.onAddr s l a (fun r => { r with owed := r.owed - 1 }) (fun _ => ⟨rfl, rfl⟩)
  exact (h.trans (DesksKept.onStats _ l LineStats.poll)).trans (DesksKept.send _ l ⟨a, .poll⟩)

theorem DesksKept.sendDiscovery (s : State) (l a : Nat) : DesksKept s (s.sendDiscovery l a) := by
  have h := DesksKept.onAddr s l a (fun r => { r with due := false }) (fun _ => ⟨rfl, rfl⟩)
  exact (h.trans (DesksKept.onStats _ l LineStats.poll)).trans (DesksKept.send _ l ⟨a, .discover false⟩)

theorem DesksKept.sendClock (s : State) (l a : Nat) : DesksKept s (s.sendClock l a) := by
  unfold State.sendClock
  exact ((DesksKept.spendWarning s _).trans (.onStats _ _ _)).trans (.send _ _ _)

theorem DesksKept.arbitrate (s : State) (l : Nat) : DesksKept s (s.arbitrate l) := by
  have poll : ∀ t : State, DesksKept t (t.pollStep l) := by
    intro t
    unfold State.pollStep
    dsimp only
    split
    · exact .sendPoll _ _ _
    · split
      · exact .sendDiscovery _ _ _
      · split
        · exact .sendPoll _ _ _
        · exact .refl _
  unfold State.arbitrate
  split
  · exact .sendPoll _ _ _
  · split
    · exact .sendClock _ _ _
    · unfold State.noteStep
      split
      · exact ((DesksKept.onLine_addrs s l _ rfl).trans (.onStats _ _ _)).trans (.send _ _ _)
      · exact (DesksKept.onLine_addrs s l _ rfl).trans (poll _)

theorem DesksKept.fold {α : Type} (f : State → α → State) (h : ∀ t a, DesksKept t (f t a)) (xs : List α) (s : State) :
    DesksKept s (xs.foldl f s) :=
  foldl_invariant (fun t => DesksKept s t) f (fun t a k => k.trans (h t a)) xs s (.refl s)

theorem DesksKept.restartInterval (s : State) (l : Nat) : DesksKept s (s.restartInterval l) :=
  DesksKept.onLine_addrs s l _ rfl

theorem DesksKept.endSweep (s : State) (l : Nat) : DesksKept s (s.endSweep l) := by
  unfold State.endSweep
  dsimp only
  split
  · exact ((DesksKept.onLine_addrs s l _ rfl).trans (.restartInterval _ _)).trans
      ((DesksKept.onLine_addrs _ l _ rfl).trans (DesksKept.fold _ DesksKept.setMark _ _))
  · exact (DesksKept.onLine_addrs s l _ rfl).trans (.restartInterval _ _)

theorem DesksKept.runLine (s : State) (l : Nat) : DesksKept s (s.runLine l) := by
  unfold State.runLine
  split
  · exact .refl _
  · split
    · exact .arbitrate _ _
    · unfold State.quietStep
      split
      · exact ((DesksKept.onLine_addrs s l _ rfl).trans (.onStats _ _ _)).trans (.send _ _ _)
      · exact .refl _
    · unfold State.sweepStep
      split
      · exact ((DesksKept.onLine_addrs s l _ rfl).trans (.onStats _ _ _)).trans (.send _ _ _)
      · exact (DesksKept.endSweep _ _).trans (.arbitrate _ _)
    · unfold State.testStep
      split
      · exact (DesksKept.onLine_addrs s l _ rfl).trans (.send _ _ _)
      · exact (((DesksKept.onLine_addrs s l _ rfl).trans (.restartInterval _ _)).trans (.notify _ _)).trans
          (.arbitrate _ _)

theorem DesksKept.settle (s : State) : DesksKept s s.settle := by
  have h : DesksKept s s.runLines := DesksKept.fold _ DesksKept.runLine _ _
  exact h.trans (DesksKept.of_lines (by simp [State.settle, State.driveReady, State.becomeReady]))

@[simp] theorem State.settle_presence (s : State) (l a : Nat) : s.settle.presence l a = s.presence l a :=
  (DesksKept.settle s l a).1

@[simp] theorem State.settle_missed (s : State) (l a : Nat) :
    ((s.settle.line l).addr a).missed = ((s.line l).addr a).missed := (DesksKept.settle s l a).2

end Sys2Proof.Machine
end

