-- ==== Sys2Proof/Laws/Frames.lean ====
section
/-! SUPPORT. Frames: what `settle` and a taken request leave, said once for every part that a frame names. -/

namespace Sys2Proof.Machine

set_option Elab.async false

theorem Part.same_refl (s : State) (p : Part) : Part.same s s p := by
  cases p <;> simp [Part.same]

theorem Part.same_trans {s t u : State} {p : Part} (h : Part.same s t p) (g : Part.same t u p) : Part.same s u p := by
  cases p
  case presence => exact fun l a => ⟨(g l a).1.trans (h l a).1, (g l a).2.trans (h l a).2⟩
  case flags => exact fun x a b => (g x a b).trans (h x a b)
  all_goals simp only [Part.same] at h g ⊢
  case booklets => exact ⟨g.1.trans h.1, g.2.trans h.2⟩
  case intake =>
    obtain ⟨h1, h2, h3, h4, h5, h6⟩ := h
    obtain ⟨g1, g2, g3, g4, g5, g6⟩ := g
    exact ⟨g1.trans h1, g2.trans h2, g3.trans h3, g4.trans h4, g5.trans h5, g6.trans h6⟩
  case receiver => exact ⟨g.1.trans h.1, g.2.trans h.2⟩
  all_goals exact g.trans h

theorem Unchanged.refl (but : List Part) (s : State) : Unchanged but s s := ⟨rfl, fun p _ => Part.same_refl s p⟩

theorem Unchanged.trans {but : List Part} {s t u : State} (h : Unchanged but s t) (g : Unchanged but t u) :
    Unchanged but s u := ⟨g.1.trans h.1, fun p hp => Part.same_trans (h.2 p hp) (g.2 p hp)⟩

theorem Unchanged.weaken {but but' : List Part} {s t : State} (h : Unchanged but s t) (sub : ∀ p ∈ but, p ∈ but') :
    Unchanged but' s t := ⟨h.1, fun p hp => h.2 p fun k => hp (sub p k)⟩

/-- Every part that a frame names is what `settle` leaves. -/
theorem Part.same_settle (s : State) (p : Part) : Part.same s s.settle p := by
  cases p
  case flags => exact fun x h h' => State.settle_flags s x h h'
  case notices => exact State.settle_notices s
  all_goals simp [Part.same]

theorem Unchanged.settle {but : List Part} {s t : State} (h : Unchanged but s t) : Unchanged but s t.settle :=
  h.trans ⟨by simp, fun p _ => Part.same_settle t p⟩

/-- A taken request whose answer leaves the responses and frames-in count alone. -/
theorem State.takeRequest_taken (s : State) (tag kind : Byte) (f : State → Answer) (h : s.takesRequest) :
    s.takeRequest tag kind f =
      (f s.countFrame).state.respond ⟨tag, kind, (f s.countFrame).code, (f s.countFrame).payload⟩ := by
  have h2 : ¬ Config.responseQueueSize ≤ s.countFrame.office.responses.length := by
    have := h.2.2; simp only [State.countFrame, State.onOffice_office]; omega
  simp [State.takeRequest, h.1, h.2.1, h2]

theorem Part.same_countFrame (s : State) (p : Part) (h : p ≠ .framesIn) : Part.same s s.countFrame p := by
  cases p <;> simp_all [Part.same, State.countFrame, State.presence, State.onOffice, State.line]

theorem Part.same_respond (s : State) (r : Response) (p : Part) (h : p ≠ .responses) :
    Part.same s (s.respond r) p := by
  cases p <;> simp_all [Part.same, State.respond, State.presence, State.onOffice, State.line]

/-- The frame of a request: what its owner leaves, but for the response and the frame counted. -/
theorem Unchanged.request {but : List Part} {s : State} (tag kind : Byte) (f : State → Answer) (h : s.takesRequest)
    (hf : Unchanged but s.countFrame (f s.countFrame).state) :
    Unchanged (.responses :: .framesIn :: but) s (s.takeRequest tag kind f).settle := by
  rw [State.takeRequest_taken s tag kind f h]
  refine Unchanged.settle ⟨hf.1, fun p hp => ?_⟩
  simp only [List.mem_cons, not_or] at hp
  exact Part.same_trans (Part.same_countFrame s p hp.2.1)
    (Part.same_trans (hf.2 p hp.2.2) (Part.same_respond _ _ p hp.1))

end Sys2Proof.Machine
end

