-- ==== Sys2Proof/Laws/Moves.lean ====
section
/-! SUPPORT. What the shared operations do, said once for each: the parts of the state that it may change, and the laws
that it keeps (canonical tables, lawful lines, the notice queue's capacity). -/

namespace Sys2Proof.Machine

set_option Elab.async false

/-- From `s` to `t` nothing but the parts `k` has changed, flags have been raised and none cleared, and the laws are
kept. -/
structure Moves (k : List Part) (s t : State) : Prop where
  frame : Unchanged k s t
  canonical : s.canonical = true → t.canonical = true
  lawful : s.linesLawful = true → t.linesLawful = true
  notices : s.office.notices.length ≤ Config.noticeQueueSize → t.office.notices.length ≤ Config.noticeQueueSize
  raised : ∀ c, c ∈ s.office.flags → c ∈ t.office.flags

theorem Moves.refl {k : List Part} (s : State) : Moves k s s :=
  ⟨Unchanged.refl k s, id, id, id, fun _ => id⟩

/-- One move after another. -/
theorem Moves.next {k k' : List Part} {s t u : State} (h : Moves k s t) (g : Moves k' t u)
    (sub : ∀ p ∈ k', p ∈ k := by decide) : Moves k s u :=
  ⟨h.frame.trans (g.frame.weaken sub), fun x => g.canonical (h.canonical x), fun x => g.lawful (h.lawful x),
    fun x => g.notices (h.notices x), fun c x => g.raised c (h.raised c x)⟩

theorem Moves.widen {k k' : List Part} {s t : State} (g : Moves k' s t) (sub : ∀ p ∈ k', p ∈ k := by decide) :
    Moves k s t := (Moves.refl s).next g sub

/-- A fold of moves. -/
theorem Moves.fold {k : List Part} {α : Type} (f : State → α → State) (h : ∀ t a, Moves k t (f t a)) (xs : List α)
    (s : State) : Moves k s (xs.foldl f s) :=
  foldl_invariant (fun t => Moves k s t) f (fun t a m => m.next (h t a) fun _ => id) xs s (.refl s)

theorem Moves.ite {k : List Part} {s t u : State} {c : Prop} [Decidable c] (h : c → Moves k s t) (g : ¬c → Moves k s u) :
    Moves k s (if c then t else u) := by
  by_cases x : c
  · simpa [x] using h x
  · simpa [x] using g x

/-! ## The named updates -/

/-- A change of one part and of nothing else. -/
theorem Moves.of_fields {k : List Part} {s t : State} (hp : t.pending = s.pending)
    (h : ∀ p, p ∉ k → p ≠ .presence → Part.same s t p) (hc : s.canonical = true → t.canonical = true)
    (hl : t.lines = s.lines) (ho : t.office = s.office) : Moves k s t where
  frame := ⟨hp, fun p x => if e : p = .presence then by subst e; exact DesksKept.of_lines hl else h p x e⟩
  canonical := hc
  lawful := by simp [State.linesLawful, hl]
  notices := by simp [ho]
  raised := by simp [ho]

theorem Moves.onSeat (s : State) (i : Nat) (f : Seat → Seat) : Moves [.seats] s (s.onSeat i f) := by
  refine .of_fields rfl (fun p hp hq => ?_) (fun h => ?_) rfl rfl
  · cases p <;> simp_all [Part.same]
  · simp only [State.canonical, Bool.and_eq_true] at h ⊢
    simp_all [State.onSeat, canon_tabSet]

theorem Moves.putEntry (s : State) (k : Nat) (e : Entry) : Moves [.roster] s (s.putEntry k e) := by
  refine .of_fields rfl (fun p hp hq => ?_) (fun h => ?_) rfl rfl
  · cases p <;> simp_all [Part.same]
  · simp only [State.canonical, Bool.and_eq_true] at h ⊢
    simp_all [State.putEntry, mapRises_mapPut]

theorem Moves.onEntry (s : State) (k : Nat) (f : Entry → Entry) : Moves [.roster] s (s.onEntry k f) := by
  unfold State.onEntry
  split
  · exact .putEntry s k _
  · exact .refl s

/-- What holds of every listed entry holds after one is set to a value that has it. -/
theorem all_tabSet {α : Type} [DecidableEq α] {d : α} {m : PMap α} {i : Nat} {v : α} (p : α → Bool)
    (h : (m.all fun q => p q.2) = true) (hv : p v = true) : ((tabSet d m i v).all fun q => p q.2) = true :=
  List.all_eq_true.mpr fun q hq => by
    rcases mem_tabSet hq with ⟨e, _⟩ | hq
    · rw [e]; exact hv
    · exact List.all_eq_true.mp h q hq

/-- What holds of every listed entry, and of the blank one, holds of the entry read. -/
theorem tabGet_of_all {α : Type} {d : α} {m : PMap α} (i : Nat) (p : α → Bool) (h : (m.all fun q => p q.2) = true)
    (hd : p d = true) : p (tabGet d m i) = true := by
  unfold tabGet
  cases hg : mapGet m i with
  | none => exact hd
  | some v => exact List.all_eq_true.mp h _ (mapGet_mem hg)

theorem innerCanonical_setChannel {cs : PMap Channel} {ls : PMap Line} (c : Nat) (v : Channel)
    (h : innerCanonical cs ls = true) (hv : (tabGet Channel.blank cs c).canonical = true → v.canonical = true) :
    innerCanonical (tabSet Channel.blank cs c v) ls = true := by
  simp only [innerCanonical, Bool.and_eq_true] at h ⊢
  exact ⟨all_tabSet _ h.1 (hv (tabGet_of_all c _ h.1 rfl)), h.2⟩

theorem innerCanonical_setLine {cs : PMap Channel} {ls : PMap Line} (l : Nat) (v : Line)
    (h : innerCanonical cs ls = true) (hv : (tabGet Line.fresh ls l).canonical = true → v.canonical = true) :
    innerCanonical cs (tabSet Line.fresh ls l v) = true := by
  simp only [innerCanonical, Bool.and_eq_true] at h ⊢
  exact ⟨h.1, all_tabSet _ h.2 (hv (tabGet_of_all l _ h.2 rfl))⟩

theorem Moves.onChan (s : State) (c : Nat) (f : Channel → Channel)
    (hc : (s.chan c).canonical = true → (f (s.chan c)).canonical = true := by exact id) :
    Moves [.channels] s (s.onChan c f) := by
  refine .of_fields rfl (fun p hp hq => ?_) (fun h => ?_) rfl rfl
  · cases p <;> simp_all [Part.same]
  · simp only [State.canonical, Bool.and_eq_true] at h ⊢
    have k := innerCanonical_setChannel c (f (s.chan c)) h.2 hc
    simp_all [State.onChan, canon_tabSet]

theorem Moves.onSignal (s : State) (n : Nat) (f : Signal → Signal) : Moves [.signals] s (s.onSignal n f) := by
  refine .of_fields rfl (fun p hp hq => ?_) (fun h => ?_) rfl rfl
  · cases p <;> simp_all [Part.same]
  · simp only [State.canonical, Bool.and_eq_true] at h ⊢
    simp_all [State.onSignal, canon_tabSet]

theorem Moves.onTime (s : State) (f : TimeBase → TimeBase) : Moves [.time] s (s.onTime f) := by
  refine .of_fields rfl (fun p hp hq => ?_) (fun h => h) rfl rfl
  cases p <;> simp_all [Part.same]

theorem Moves.onLog (s : State) (f : ResultLog → ResultLog) : Moves [.log] s (s.onLog f) := by
  refine .of_fields rfl (fun p hp hq => ?_) (fun h => h) rfl rfl
  cases p <;> simp_all [Part.same, State.onLog]

/-- A change of the pending warnings, which no frame names. -/
theorem Moves.warnings (s : State) (w : PMap Nat) (h : mapRises 0 s.warnings = true → mapRises 0 w = true) :
    Moves [] s { s with warnings := w } := by
  refine .of_fields rfl (fun p _ hq => ?_) (fun hc => ?_) rfl rfl
  · cases p <;> simp_all [Part.same]
  · simp only [State.canonical, Bool.and_eq_true] at hc ⊢
    simp_all

theorem Moves.dropWarning (s : State) (k : Nat) : Moves [] s (s.dropWarning k) :=
  .warnings s _ fun h => mapRises_mapErase k h

/-- A change of the booklet register. -/
theorem Moves.booklets (s : State) (m : PMap Booklet) (b : BookletStats)
    (h : mapRises 0 s.booklets = true → mapRises 0 m = true) :
    Moves [.booklets] s { s with booklets := m, bookletStats := b } := by
  refine .of_fields rfl (fun p hp hq => ?_) (fun hc => ?_) rfl rfl
  · cases p <;> simp_all [Part.same]
  · simp only [State.canonical, Bool.and_eq_true] at hc ⊢
    simp_all

theorem Moves.onIntake (s : State) (f : Intake → Intake)
    (h : canon Slot.blank s.intake.slots = true → canon Slot.blank (f s.intake).slots = true) :
    Moves [.intake] s (s.onIntake f) := by
  refine .of_fields rfl (fun p hp hq => ?_) (fun hc => ?_) rfl rfl
  · cases p <;> simp_all [Part.same]
  · simp only [State.canonical, Bool.and_eq_true] at hc ⊢
    simp_all [State.onIntake]

/-! ## Lines -/

theorem State.line_lawful {s : State} (h : s.linesLawful = true) (l : Nat) : (s.line l).lawful = true := by
  unfold State.line tabGet
  cases hg : mapGet s.lines l with
  | none => decide
  | some n =>
    have := List.all_eq_true.mp h _ (mapGet_mem hg)
    simpa using this

theorem State.linesLawful_onLine {s : State} {l : Nat} {f : Line → Line} (h : s.linesLawful = true)
    (hf : (f (s.line l)).lawful = true) : (s.onLine l f).linesLawful = true := by
  refine List.all_eq_true.mpr fun p hp => ?_
  rcases mem_tabSet hp with ⟨rfl, _⟩ | hp
  · exact hf
  · exact List.all_eq_true.mp h p hp

/-- A change of a line that keeps its desks' presences and missed-reply counts, and its laws. -/
theorem Moves.onLine (s : State) (l : Nat) (f : Line → Line)
    (hd : ∀ a, ((f (s.line l)).addr a).presence = ((s.line l).addr a).presence ∧
      ((f (s.line l)).addr a).missed = ((s.line l).addr a).missed)
    (hl : (s.line l).lawful = true → (f (s.line l)).lawful = true)
    (hc : (s.line l).canonical = true → (f (s.line l)).canonical = true := by exact id) :
    Moves [] s (s.onLine l f) where
  frame := by
    refine ⟨rfl, fun p _ => ?_⟩
    cases p
    case presence => exact DesksKept.onLine s l f hd
    all_goals simp [Part.same]
  canonical := fun h => by
    simp only [State.canonical, Bool.and_eq_true] at h ⊢
    have k := innerCanonical_setLine l (f (s.line l)) h.2 hc
    simp_all [State.onLine, canon_tabSet]
  lawful := fun h => State.linesLawful_onLine h (hl (State.line_lawful h l))
  notices := id
  raised := fun _ => id

/-- A change of a line that leaves its desks. -/
theorem Moves.onLine_addrs (s : State) (l : Nat) (f : Line → Line) (hd : (f (s.line l)).addrs = (s.line l).addrs)
    (hl : (s.line l).lawful = true → (f (s.line l)).lawful = true) : Moves [] s (s.onLine l f) :=
  .onLine s l f (fun a => by simp [Line.addr, hd]) hl fun h => by simpa [Line.canonical, hd] using h

/-- A change of a line's desks. -/
theorem Moves.onDesk (s : State) (l : Nat) (f : Line → Line)
    (hl : (s.line l).lawful = true → (f (s.line l)).lawful = true)
    (hc : (s.line l).canonical = true → (f (s.line l)).canonical = true) : Moves [.presence] s (s.onLine l f) where
  frame := by
    refine ⟨rfl, fun p hp => ?_⟩
    cases p <;> simp_all [Part.same]
  canonical := fun h => by
    simp only [State.canonical, Bool.and_eq_true] at h ⊢
    have k := innerCanonical_setLine l (f (s.line l)) h.2 hc
    simp_all [State.onLine, canon_tabSet]
  lawful := fun h => State.linesLawful_onLine h (hl (State.line_lawful h l))
  notices := id
  raised := fun _ => id

theorem Line.canonical_onAddr {n : Line} (a : Nat) (f : AddrState → AddrState) (h : n.canonical = true) :
    (n.onAddr a f).canonical = true := canon_tabSet _ _ h

/-! ## Events -/

theorem Office.notify_notices (o : Office) (n : Notice) (h : o.notices.length ≤ Config.noticeQueueSize) :
    (o.notify n).notices.length ≤ Config.noticeQueueSize := by
  unfold Office.notify
  split
  · simp only [List.length_append, List.length_cons, List.length_nil]; omega
  · exact h

/-- What an event does to the laws. -/
theorem Moves.of_notify {k : List Part} (s : State) (x : Subject) (h : ∀ p, p ∉ k → Part.same s (s.notify x) p) :
    Moves k s (s.notify x) where
  frame := ⟨by simp, h⟩
  canonical := fun h => by simpa [State.canonical] using h
  lawful := fun h => by simpa [State.linesLawful] using h
  notices := fun h => by
    rw [State.notify_office]
    split
    · exact h
    · exact Office.notify_notices _ _ h
  raised := fun _ h => State.notify_raised s x h

theorem Moves.notify (s : State) (x : Subject) : Moves [.flags, .notices] s (s.notify x) := by
  refine .of_notify s x fun p hp => ?_
  have h := State.notify_link s x
  cases p <;> simp_all [Part.same, State.presence, State.line]

end Sys2Proof.Machine
end

