-- ==== Sys2Proof/Laws/LineMoves.lean ====
section
/-! SUPPORT. What the line controller's operations do to a line and its laws. -/

namespace Sys2Proof.Machine

set_option Elab.async false

/-! ## One line -/

/-- The laws of a line, each by itself. -/
theorem Line.lawful_iff (n : Line) : n.lawful = true ↔
    n.marks.Nodup ∧ (∀ a ∈ n.marks, 1 ≤ a ∧ a ≤ 64) ∧ n.fifo.length ≤ 16 ∧ n.discovery ≤ 15 ∧
      (∀ p ∈ n.addrs, p.2.lawful = true) ∧ ∀ x, n.exchange = some x → x.lawful = true := by
  unfold Line.lawful Config.fifoSize
  cases h : n.exchange <;> simp only [Bool.and_eq_true, decide_eq_true_eq, List.all_eq_true, Option.all] <;> simp [and_assoc]

@[simp] theorem Exchange.lawful_markAgain (again : Bool) (a : Nat) (x : Exchange) :
    (x.markAgain again a).lawful = x.lawful := by
  obtain ⟨b, kind⟩ := x
  cases kind <;> simp only [Exchange.markAgain]
  split <;> rfl

@[simp] theorem Exchange.lawful_forget (x : Exchange) : x.forget.lawful = x.lawful := by
  obtain ⟨b, kind⟩ := x
  cases kind <;> rfl

theorem Line.lawful_setMark {n : Line} {a : Nat} (ha : 1 ≤ a ∧ a ≤ 64) (h : n.lawful = true) :
    (n.setMark a).lawful = true := by
  unfold Line.setMark
  split
  · exact h
  · rw [Line.lawful_iff] at h ⊢
    obtain ⟨h1, h2, h3, h4, h5, h6⟩ := h
    refine ⟨?_, ?_, h3, h4, h5, ?_⟩
    · dsimp only
      split
      · exact h1
      · rename_i hn
        rw [List.nodup_append]
        refine ⟨h1, by simp, ?_⟩
        intro x hx y hy
        simp only [List.mem_singleton] at hy
        subst hy
        rintro rfl
        exact hn hx
    · dsimp only
      split
      · exact h2
      · intro x hx
        simp only [List.mem_append, List.mem_singleton] at hx
        rcases hx with hx | rfl
        · exact h2 x hx
        · exact ha
    · intro x hx
      simp only [Option.map_eq_some_iff] at hx
      obtain ⟨y, hy, rfl⟩ := hx
      simpa using h6 y hy

theorem Line.lawful_dropMark {n : Line} (a : Nat) (h : n.lawful = true) : (n.dropMark a).lawful = true := by
  unfold Line.dropMark
  rw [Line.lawful_iff] at h ⊢
  obtain ⟨h1, h2, h3, h4, h5, h6⟩ := h
  refine ⟨h1.filter _, fun x hx => h2 x (List.mem_filter.mp hx).1, h3, h4, h5, ?_⟩
  intro x hx
  simp only [Option.map_eq_some_iff] at hx
  obtain ⟨y, hy, rfl⟩ := hx
  simpa using h6 y hy

theorem Line.lawful_queueNote {n : Line} (a : Nat) (c : NoteContent) (h : n.lawful = true) :
    (n.queueNote a c).lawful = true := by
  unfold Line.queueNote
  rw [Line.lawful_iff] at h
  obtain ⟨h1, h2, h3, h4, h5, h6⟩ := h
  split
  · rename_i ht
    rw [Line.lawful_iff]
    refine ⟨h1, h2, ?_, h4, h5, h6⟩
    have ht' : n.fifo.length < 16 := of_decide_eq_true (Bool.and_eq_true _ _ ▸ ht).2
    simp
    omega
  · rw [Line.lawful_iff]
    exact ⟨h1, h2, h3, h4, h5, h6⟩

theorem Line.addr_lawful {n : Line} (h : n.lawful = true) (a : Nat) : (n.addr a).lawful = true := by
  unfold Line.addr tabGet
  cases hg : mapGet n.addrs a with
  | none => decide
  | some r => simpa using ((Line.lawful_iff n).1 h).2.2.2.2.1 _ (mapGet_mem hg)

theorem Line.lawful_onAddr {n : Line} {a : Nat} {f : AddrState → AddrState} (h : n.lawful = true)
    (hf : (f (n.addr a)).lawful = true) : (n.onAddr a f).lawful = true := by
  rw [Line.lawful_iff] at h ⊢
  obtain ⟨h1, h2, h3, h4, h5, h6⟩ := h
  refine ⟨h1, h2, h3, h4, fun p hp => ?_, h6⟩
  rcases mem_tabSet hp with ⟨rfl, _⟩ | hp
  · exact hf
  · exact h5 p hp

/-- The laws speak of the marks, the notes, the discovery count, the desks and the exchange alone. -/
theorem Line.lawful_congr {n m : Line} (h : n.lawful = true) (h1 : m.marks = n.marks) (h2 : m.fifo = n.fifo)
    (h3 : m.discovery = n.discovery) (h4 : m.addrs = n.addrs) (h5 : m.exchange = n.exchange) : m.lawful = true := by
  rw [Line.lawful_iff] at h ⊢; rw [h1, h2, h3, h4, h5]; exact h

theorem seatAddr_range (i : Nat) : 1 ≤ seatAddr i ∧ seatAddr i ≤ 64 := by unfold seatAddr; omega

/-! ## Marks and notes -/

theorem Moves.setMark (s : State) (i : Nat) : Moves [] s (s.setMark i) :=
  .onLine_addrs s _ _ (by unfold Line.setMark; split <;> rfl) fun h => Line.lawful_setMark (seatAddr_range i) h

theorem Moves.dropMark (s : State) (i : Nat) : Moves [] s (s.dropMark i) :=
  .onLine_addrs s _ _ rfl fun h => Line.lawful_dropMark _ h

theorem Moves.markEntry (s : State) (k : Nat) : Moves [] s (s.markEntry k) := by
  unfold State.markEntry
  split
  · exact .setMark s _
  · exact .refl s

theorem Moves.queueNote (s : State) (l a : Nat) (c : NoteContent) : Moves [] s (s.queueNote l a c) :=
  .onLine_addrs s _ _ (by unfold Line.queueNote; split <;> rfl) fun h => Line.lawful_queueNote a c h

theorem Moves.noteSeat (s : State) (i : Nat) (c : NoteContent) : Moves [] s (s.noteSeat i c) := .queueNote s _ _ c

theorem Moves.noteStation (s : State) (a : Nat) (c : NoteContent) : Moves [] s (s.noteStation a c) := .queueNote s 6 a c

theorem Moves.onStats (s : State) (l : Nat) (f : LineStats → LineStats) : Moves [] s (s.onStats l f) :=
  .onLine_addrs s l _ rfl fun h => Line.lawful_congr h rfl rfl rfl rfl rfl

theorem Moves.spendWarning (s : State) (i : Nat) : Moves [] s (s.spendWarning i) := by
  unfold State.spendWarning
  split
  · exact .dropWarning s _
  · exact .refl s

/-! ## What a free line sends -/

theorem Moves.send (s : State) (l : Nat) (x : Exchange) (hx : (s.line l).lawful = true → x.lawful = true) :
    Moves [] s (s.send l x) :=
  .onLine_addrs s l _ rfl fun h => by
    replace hx := hx h
    rw [Line.lawful_iff] at h ⊢
    obtain ⟨h1, h2, h3, h4, h5, h6⟩ := h
    refine ⟨h1, h2, h3, h4, h5, fun y hy => ?_⟩
    simp only [Option.some.injEq] at hy
    subst hy
    exact hx

/-- A change of one desk's record that keeps its presence and its missed-reply count. -/
theorem Moves.onAddr (s : State) (l a : Nat) (f : AddrState → AddrState)
    (hd : ∀ r, (f r).presence = r.presence ∧ (f r).missed = r.missed)
    (hl : ((s.line l).addr a).lawful = true → (f ((s.line l).addr a)).lawful = true) : Moves [] s (s.onAddr l a f) := by
  refine .onLine s l _ (fun b => ?_) (fun h => Line.lawful_onAddr h (hl (Line.addr_lawful h a)))
    (Line.canonical_onAddr a f)
  by_cases hb : a = b
  · subst hb; simpa using hd _
  · simp [hb]

theorem Moves.sendPoll (s : State) (l a : Nat) (hp : s.presence l a = .present) (ho : -8 < ((s.line l).addr a).owed) :
    Moves [] s (s.sendPoll l a) := by
  have h1 : Moves [] s (s.onAddr l a fun r => { r with owed := r.owed - 1 }) :=
    .onAddr s l a _ (fun _ => ⟨rfl, rfl⟩) fun h => by
      simp only [AddrState.lawful, Bool.and_eq_true, decide_eq_true_eq, Bool.or_eq_true] at h ⊢
      have hp' : ((s.line l).addr a).presence = .present := hp
      exact ⟨⟨⟨h.1.1.1, by omega⟩, by omega⟩, .inl hp'⟩
  exact (h1.next (.onStats _ l _)).next (.send _ l _ fun _ => rfl)

theorem Moves.sendDiscovery (s : State) (l a : Nat) : Moves [] s (s.sendDiscovery l a) := by
  have h1 : Moves [] s (s.onAddr l a fun r => { r with due := false }) :=
    .onAddr s l a _ (fun _ => ⟨rfl, rfl⟩) fun h => h
  exact (h1.next (.onStats _ l _)).next (.send _ l _ fun _ => rfl)

theorem Moves.sendClock (s : State) (l a : Nat) (ha : (s.line l).lawful = true → 1 ≤ a ∧ a ≤ 64) :
    Moves [] s (s.sendClock l a) := by
  unfold State.sendClock
  refine ((Moves.spendWarning s _).next (.onStats _ _ _)).next (.send _ _ _ fun h => ?_)
  have := ha (Line.lawful_congr h (by simp [State.onStats]) (by simp [State.onStats]) (by simp [State.onStats])
    (by simp [State.onStats]) (by simp [State.onStats]))
  simp [Exchange.lawful, this]

/-- The address chosen by a fold over addresses is one of them. -/
theorem fold_mem {f : Option Nat → Nat → Option Nat} (hf : ∀ b a, f b a = b ∨ f b a = some a) (xs : List Nat)
    (b : Option Nat) (a : Nat) (h : xs.foldl f b = some a) : b = some a ∨ a ∈ xs := by
  induction xs generalizing b with
  | nil => exact .inl h
  | cons x xs ih =>
    rcases ih _ h with h | h
    · rcases hf b x with e | e
      · exact .inl (e ▸ h)
      · rw [e] at h; simp only [Option.some.injEq] at h; subst h; simp
    · simp [h]

theorem Line.mostOwed_mem {n : Line} {xs : List Nat} {a : Nat} (h : n.mostOwed xs = some a) : a ∈ xs := by
  refine (fold_mem (fun b a => ?_) xs none a h).resolve_left (by simp)
  cases b with
  | none => exact .inr rfl
  | some b => dsimp only; split <;> simp

theorem Line.leastOwed_mem {n : Line} {xs : List Nat} {a : Nat} (h : n.leastOwed xs = some a) : a ∈ xs := by
  refine (fold_mem (fun b a => ?_) xs none a h).resolve_left (by simp)
  cases b with
  | none => exact .inr rfl
  | some b => dsimp only; split <;> simp

theorem State.presence_of_mem {s : State} {l a : Nat} (h : a ∈ s.presentAddrs l) : s.presence l a = .present := by
  simpa using (List.mem_filter.mp h).2

theorem Moves.pollStep (s : State) (l : Nat) : Moves [] s (s.pollStep l) := by
  unfold State.pollStep
  dsimp only
  split
  · rename_i a h
    have := Line.mostOwed_mem h
    simp only [List.mem_filter, decide_eq_true_eq] at this
    exact .sendPoll s l a (State.presence_of_mem this.1) (by omega)
  · split
    · exact .sendDiscovery s l _
    · split
      · rename_i a h
        have := Line.leastOwed_mem h
        simp only [List.mem_filter, decide_eq_true_eq] at this
        exact .sendPoll s l a (State.presence_of_mem this.1) this.2
      · exact .refl s

theorem Note.exchange_lawful (n : Note) : n.exchange.lawful = true := by
  unfold Note.exchange
  split <;> rfl

theorem Moves.noteStep (s : State) (l : Nat) : Moves [] s (s.noteStep l) := by
  unfold State.noteStep
  split
  · rename_i n rest h
    have hs := (List.dropWhile_suffix (p := fun n => !s.noteGoes l n) (l := (s.line l).fifo)).length_le
    rw [h] at hs
    have h1 : Moves [] s (s.onLine l fun m => { m with fifo := rest }) := .onLine_addrs s l _ rfl fun hl => by
      rw [Line.lawful_iff] at hl ⊢
      obtain ⟨h1, h2, h3, h4, h5, h6⟩ := hl
      refine ⟨h1, h2, ?_, h4, h5, h6⟩
      simp only [List.length_cons] at hs
      dsimp only
      omega
    exact (h1.next (.onStats _ l _)).next (.send _ l _ fun _ => Note.exchange_lawful n)
  · refine (Moves.onLine_addrs s l (fun m => { m with fifo := [] }) rfl fun hl => ?_).next (.pollStep _ l)
    rw [Line.lawful_iff] at hl ⊢
    obtain ⟨h1, h2, h3, h4, h5, h6⟩ := hl
    exact ⟨h1, h2, by simp, h4, h5, h6⟩

theorem addrsOf_range {l a : Nat} (h : a ∈ addrsOf l) : 1 ≤ a ∧ a ≤ 64 := by
  simp only [addrsOf, addrCount, List.mem_map, List.mem_range] at h
  obtain ⟨x, hx, rfl⟩ := h
  split at hx <;> omega

theorem Moves.arbitrate (s : State) (l : Nat) : Moves [] s (s.arbitrate l) := by
  unfold State.arbitrate
  split
  · rename_i a h
    have hm := List.mem_of_find?_eq_some h
    have ho := List.find?_some h
    simp only [decide_eq_true_eq] at ho
    exact .sendPoll s l a (State.presence_of_mem hm) (by omega)
  · split
    · rename_i a h
      refine .sendClock s l a fun hl => ?_
      unfold State.markServed at h
      split at h
      · exact ((Line.lawful_iff _).1 hl).2.1 _ (List.mem_of_find?_eq_some h)
      · simp at h
    · exact .noteStep s l

theorem Moves.restartInterval (s : State) (l : Nat) : Moves [] s (s.restartInterval l) :=
  .onLine_addrs s l _ rfl fun h => Line.lawful_congr h rfl rfl rfl rfl rfl

/-- A change of a line's state, its discovery count going to 0 at most. -/
theorem Moves.onLine_state (s : State) (l : Nat) (f : Line → Line) (h1 : (f (s.line l)).marks = (s.line l).marks)
    (h2 : (f (s.line l)).fifo = (s.line l).fifo) (h3 : (f (s.line l)).discovery ≤ (s.line l).discovery)
    (h4 : (f (s.line l)).addrs = (s.line l).addrs) (h5 : (f (s.line l)).exchange = (s.line l).exchange) :
    Moves [] s (s.onLine l f) :=
  .onLine_addrs s l f h4 fun h => by
    rw [Line.lawful_iff] at h ⊢
    rw [h1, h2, h4, h5]
    obtain ⟨g1, g2, g3, g4, g5, g6⟩ := h
    exact ⟨g1, g2, g3, by omega, g5, g6⟩

theorem Moves.endSweep (s : State) (l : Nat) : Moves [] s (s.endSweep l) := by
  unfold State.endSweep
  dsimp only
  have h : Moves [] s
      ((s.onLine l fun n => { n with state := .active, discovery := 0, cursor := 1, swept := true }).restartInterval l) :=
    (Moves.onLine_state s l _ rfl rfl (Nat.zero_le _) rfl rfl).next (.restartInterval _ l)
  split
  · exact (h.next (.onLine_state _ l _ rfl rfl (Nat.le_refl _) rfl rfl)).next (.fold _ Moves.setMark _ _)
  · exact h

theorem Moves.sweepStep (s : State) (l : Nat) : Moves [] s (s.sweepStep l) := by
  unfold State.sweepStep
  split
  · exact ((Moves.onLine_state s l _ rfl rfl (Nat.le_refl _) rfl rfl).next (.onStats _ l _)).next
      (.send _ l _ fun _ => rfl)
  · exact (Moves.endSweep s l).next (.arbitrate _ l)

/-- A LINE_TEST_DONE changes no part that a frame names. -/
theorem Moves.notify_testDone (s : State) (l p f a : Nat) : Moves [] s (s.notify (.lineTestDone l p f a)) := by
  refine .of_notify s _ fun q _ => ?_
  have h := State.quiet_lineTestDone s l p f a
  cases q
  case flags => exact h.flags
  case notices => exact h.notices
  case responses => exact h.responses
  case framesIn => exact h.framesIn
  case badFrames => exact h.badFrames
  case noticesSent => exact h.noticesSent
  case protectedReads => exact h.protectedReads
  case receiver => exact ⟨h.awaitQuiet, h.resetPending⟩
  all_goals simp [Part.same, State.presence, State.line]

theorem Moves.endTest (s : State) (l : Nat) : Moves [] s (s.endTest l) := by
  unfold State.endTest
  exact ((Moves.onLine_state s l _ rfl rfl (Nat.zero_le _) rfl rfl).next (.restartInterval _ l)).next
    (.notify_testDone _ _ _ _ _)

theorem Moves.testStep (s : State) (l : Nat) : Moves [] s (s.testStep l) := by
  unfold State.testStep
  split
  · exact (Moves.onLine_state s l _ rfl rfl (Nat.le_refl _) rfl rfl).next (.send _ l _ fun _ => rfl)
  · exact (Moves.endTest s l).next (.arbitrate _ l)

theorem Line.lawful_flush {n : Line} (h : n.lawful = true) : n.flush.lawful = true := by
  rw [Line.lawful_iff] at h ⊢
  obtain ⟨h1, h2, h3, h4, h5, h6⟩ := h
  refine ⟨by simp [Line.flush], by simp [Line.flush], by simp [Line.flush], h4, h5, fun x hx => ?_⟩
  simp only [Line.flush, Option.map_eq_some_iff] at hx
  obtain ⟨y, hy, rfl⟩ := hx
  simpa using h6 y hy

theorem Moves.quietStep (s : State) (l : Nat) : Moves [] s (s.quietStep l) := by
  unfold State.quietStep
  split
  · exact ((Moves.onLine_addrs s l (fun n => { n.flush with blankDue := false }) rfl fun h =>
      Line.lawful_congr (Line.lawful_flush h) rfl rfl rfl rfl rfl).next (.onStats _ l _)).next (.send _ l _ fun _ => rfl)
  · exact .refl s

theorem Moves.runLine (s : State) (l : Nat) : Moves [] s (s.runLine l) := by
  unfold State.runLine
  split
  · exact .refl s
  · split
    · exact .arbitrate s l
    · exact .quietStep s l
    · exact .sweepStep s l
    · exact .testStep s l

theorem Moves.runLines (s : State) : Moves [] s s.runLines := .fold _ Moves.runLine _ s

theorem Moves.settle (s : State) : Moves [] s s.settle where
  frame := (Unchanged.refl [] s).settle
  canonical := fun h => by
    have g := (Moves.runLines s).canonical h
    have e : s.intake.startTx.slots = s.intake.slots := by unfold Intake.startTx; split <;> rfl
    simpa [State.canonical, State.settle, State.driveReady, State.becomeReady, e] using g
  lawful := fun h => by
    have g := (Moves.runLines s).lawful h
    simpa [State.linesLawful, State.settle, State.driveReady, State.becomeReady] using g
  notices := fun h => by
    rw [State.settle_office, (Office.startTx_keeps _).2.2.2.2.1]
    exact (Moves.runLines s).notices h
  raised := fun _ h => State.settle_raised s h

end Sys2Proof.Machine
end

