-- ==== Sys2Proof/Laws/Operations.lean ====
section
/-! SUPPORT. What each operation of the sitting, clock, seat, booklet, log, marking and time-base units may change. -/

namespace Sys2Proof.Machine

set_option Elab.async false

/-! ## Phases and the hall-held condition -/

theorem Moves.enterPhase (s : State) (c : Nat) (x : ChanState) :
    Moves [.channels, .flags, .notices] s (s.enterPhase c x) :=
  ((Moves.onChan s c _).widen).next (.notify _ _)

theorem Moves.markOccupied (s : State) : Moves [] s s.markOccupied := by
  refine .fold _ (fun t p => ?_) _ s
  split
  · exact .setMark t _
  · exact .refl t

theorem Moves.changeHold (s : State) (x : HoldInput) (f : TimeBase → TimeBase) :
    Moves [.time, .flags, .notices] s (s.changeHold x f) := by
  unfold State.changeHold
  dsimp only
  split
  · exact (Moves.onTime s f).widen
  · exact (((Moves.onTime s f).widen).next (.notify _ _)).next (.markOccupied _)

/-! ## Booklets and reconciliation -/

theorem Moves.reconcile (s : State) (c : Nat) : Moves [.channels, .flags, .notices] s (s.reconcile c) :=
  .ite (fun _ => .enterPhase s c _) fun _ => .refl s

theorem Moves.enterCollecting (s : State) (c : Nat) : Moves [.channels, .flags, .notices] s (s.enterCollecting c) :=
  (Moves.enterPhase s c _).next (.reconcile _ c)

theorem Moves.overtimeTest (s : State) (c : Nat) : Moves [.channels, .flags, .notices] s (s.overtimeTest c) :=
  .ite (fun _ => .enterCollecting s c) fun _ => .refl s

theorem Moves.collectTest (s : State) (k : Nat) :
    Moves [.roster, .channels, .flags, .notices] s (s.collectTest k) := by
  unfold State.collectTest
  split
  · exact .ite (fun _ => ((Moves.onEntry s k _).widen).next (.reconcile _ _)) fun _ => .refl s
  · exact .refl s

theorem Moves.issue (s : State) (k b : Nat) : Moves [.roster, .booklets] s (s.issue k b) := by
  unfold State.issue
  exact ((Moves.onEntry s k _).widen).next (.booklets _ _ _ fun h => mapRises_mapPut b _ (by simpa using h))

theorem Moves.issueNew (s : State) (k : Nat) (e : Entry) (b : Nat) : Moves [.roster, .booklets] s (s.issueNew k e b) :=
  .ite (fun _ => .refl s) fun _ => .issue s k b

theorem Moves.takeIssue (s : State) (a id b : Nat) : Moves [.roster, .booklets] s (s.takeIssue a id b) := by
  unfold State.takeIssue
  split
  · exact (Moves.noteStation s a _).widen
  · split
    · exact (Moves.noteStation s a _).widen
    · split
      · exact (Moves.noteStation s a _).widen
      · split
        · exact (Moves.noteStation s a _).widen
        · exact (Moves.issueNew s _ _ b).next (.noteStation _ a _)

theorem Moves.acceptReturn (s : State) (k b : Nat) :
    Moves [.booklets, .roster, .channels, .flags, .notices] s (s.acceptReturn k b) := by
  unfold State.acceptReturn
  exact ((Moves.booklets s _ _ fun h => mapRises_mapPut b _ h).widen).next (.collectTest _ k)

theorem Moves.takeReturn (s : State) (a b : Nat) :
    Moves [.booklets, .roster, .channels, .flags, .notices] s (s.takeReturn a b) := by
  unfold State.takeReturn
  split
  · exact (Moves.noteStation s a _).widen
  · split
    · exact (Moves.noteStation s a _).widen
    · split
      · exact ((Moves.booklets s _ _ id).widen).next (.noteStation _ a _)
      · dsimp only
        split
        · exact (Moves.noteStation s a _).widen
        · split
          · exact (Moves.noteStation s a _).widen
          · exact (Moves.acceptReturn s _ b).next (.noteStation _ a _)

/-! ## Seat occupancy -/

theorem Moves.settleMark (s : State) (i : Nat) : Moves [] s (s.settleMark i) :=
  .ite (fun _ => .refl s) fun _ => .dropMark s i

theorem Moves.freeSeat (s : State) (i : Nat) : Moves [.seats] s (s.freeSeat i) :=
  (Moves.onSeat s i _).next (.settleMark _ i)

theorem Moves.holdSeat (s : State) (i k : Nat) : Moves [.seats] s (s.holdSeat i k) := .onSeat s i _

theorem Moves.occupySeat (s : State) (i k : Nat) : Moves [.seats] s (s.occupySeat i k) := .onSeat s i _

theorem Moves.clearSeat (s : State) (i : Nat) (w : ClosingWord) : Moves [.seats] s (s.clearSeat i w) :=
  .ite (fun _ => .freeSeat s i) fun _ => (Moves.onSeat s i _).next (.settleMark _ i)

theorem Moves.releaseHold (s : State) (i : Nat) : Moves [.seats] s (s.releaseHold i) :=
  (Moves.freeSeat s i).next (.noteSeat _ i _)

/-! ## The candidate clock unit -/

theorem Moves.warnTest (s : State) (k : Nat) : Moves [] s (s.warnTest k) := by
  unfold State.warnTest
  split
  · exact .refl s
  · split
    · dsimp only
      have h : ∀ (c : Prop) [Decidable c] (left : Nat),
          Moves [] s (if c then { s with warnings := mapPut s.warnings k left }.markEntry k else s) := fun c _ left =>
        .ite (fun _ => (Moves.warnings s _ fun h => mapRises_mapPut k _ h).next (.markEntry _ k)) fun _ => .refl s
      exact .ite (fun _ => (h _ _).next (.markEntry _ k)) fun _ => h _ _
    · exact .refl s

theorem Moves.depart (s : State) (k : Nat) (w : ClosingWord) :
    Moves [.channels, .roster, .seats, .flags, .notices] s (s.depart k w) := by
  unfold State.depart
  split
  · exact .refl s
  · dsimp only
    have h : ∀ t e, Moves [.channels, .roster, .seats, .flags, .notices] s t →
        Moves [.channels, .roster, .seats, .flags, .notices] s ((t.collectTest k).overtimeTest (e : Entry).channel) :=
      fun t e h => (h.next (.collectTest t k)).next (.overtimeTest _ _)
    refine h _ _ ?_
    have h1 := fun f => ((Moves.onEntry s k f).widen (k := [.channels, .roster, .seats, .flags, .notices])).next
      (.dropWarning _ k)
    split
    · exact .ite (fun _ => ((h1 _).next (.clearSeat _ _ w)).next (.setMark _ _)) fun _ => (h1 _).next (.clearSeat _ _ w)
    · exact h1 _

theorem Moves.exhaust (s : State) (k : Nat) : Moves [.roster, .flags, .notices] s (s.exhaust k) := by
  unfold State.exhaust
  split
  · exact .refl s
  · exact (((Moves.onEntry s k _).widen).next (.notify _ _)).next (.markEntry _ k)

theorem Moves.countEntry (s : State) (k : Nat) :
    Moves [.channels, .roster, .seats, .flags, .notices] s (s.countEntry k) := by
  unfold State.countEntry
  split
  · exact .refl s
  · rename_i e _
    have h := (Moves.putEntry s k e.count).widen (k := [.channels, .roster, .seats, .flags, .notices])
    split
    · dsimp only
      refine .ite (fun _ => .ite (fun _ => h.next (.exhaust _ k)) fun _ => h) fun _ =>
        .ite (fun _ => h.next (.depart _ k _)) fun _ => h.next (.warnTest _ k)
    · exact .refl s

theorem Moves.countChannel (s : State) (c : Nat) :
    Moves [.channels, .roster, .seats, .flags, .notices] s (s.countChannel c) := .fold _ Moves.countEntry _ s

theorem Moves.markEntries (s : State) (c : Nat) (p : EntryState → Bool) : Moves [] s (s.markEntries c p) :=
  .fold _ Moves.markEntry _ s

theorem Moves.readingMarks (s : State) (c : Nat) : Moves [] s (s.readingMarks c) :=
  .ite (fun _ => .fold _ Moves.markEntry _ s) fun _ => .refl s

theorem Moves.startWriter (s : State) (k : Nat) : Moves [.roster] s (s.startWriter k) :=
  ((Moves.onEntry s k _).next (.dropWarning _ k)).next (.markEntry _ k)

theorem Moves.startWriters (s : State) (c : Nat) : Moves [.roster] s (s.startWriters c) := .fold _ Moves.startWriter _ s

theorem Moves.recompute (s : State) (w k : Nat) : Moves [.roster] s (s.recompute w k) :=
  .ite (fun _ => ((Moves.onEntry s k _).next (.markEntry _ k)).next (.warnTest _ k)) fun _ => .onEntry s k _

theorem Moves.recomputeAll (s : State) (c w : Nat) : Moves [.roster] s (s.recomputeAll c w) :=
  .fold _ (fun t k => .recompute t w k) _ s

theorem Moves.closingNote (s : State) (i : Nat) : Moves [] s (s.closingNote i) := by
  unfold State.closingNote
  split
  · exact .noteSeat s i _
  · exact .noteSeat s i _
  · exact .refl s

theorem Moves.pressFinish (s : State) (i : Nat) :
    Moves [.channels, .roster, .seats, .flags, .notices] s (s.pressFinish i) := by
  unfold State.pressFinish
  split
  · split
    · split
      · exact (Moves.noteSeat s i _).widen
      · exact .depart s _ _
    · exact .refl s
  · exact (Moves.closingNote s i).widen
  · exact .refl s

theorem Moves.takeBreak (s : State) (i k : Nat) (e : Entry) : Moves [.roster] s (s.takeBreak i k e) := by
  unfold State.takeBreak
  split
  · exact .ite (fun _ => (Moves.putEntry s k _).next (.setMark _ i)) fun _ => (Moves.noteSeat s i _).widen
  · exact (Moves.putEntry s k _).next (.setMark _ i)
  · exact (Moves.noteSeat s i _).widen
  · exact .refl s

theorem Moves.pressBreak (s : State) (i : Nat) : Moves [.roster] s (s.pressBreak i) := by
  unfold State.pressBreak
  split
  · split
    · exact .takeBreak s i _ _
    · exact .refl s
  · exact (Moves.closingNote s i).widen
  · exact .refl s

/-! ## The seat allocator -/

theorem Moves.admitCandidate (s : State) (a k : Nat) (e : Entry) (b : Nat) (f : Found) :
    Moves [.seats, .roster, .booklets] s (s.admitCandidate a k e b f) := by
  unfold State.admitCandidate
  dsimp only
  have h1 := ((Moves.putEntry s k (e.checkIn (s.cls e.cls) (s.chan e.channel).length f)).widen
    (k := [.seats, .roster, .booklets])).next (.dropWarning _ k)
  have h2 := Moves.ite (c := b = 0) (fun _ => h1) fun _ => h1.next (.issueNew _ k e b)
  exact ((h2.next (.holdSeat _ f.seat k)).next (.noteStation _ a _)).next (.noteSeat _ f.seat _)

theorem Moves.takeCheckin (s : State) (a id b : Nat) :
    Moves [.seats, .roster, .booklets] s (s.takeCheckin a id b) := by
  have n : ∀ x, Moves [.seats, .roster, .booklets] s (s.noteStation a x) := fun x => (Moves.noteStation s a x).widen
  unfold State.takeCheckin
  refine .ite (fun _ => n _) fun _ => .ite (fun _ => n _) fun _ => ?_
  split
  · exact n _
  · refine .ite (fun _ => n _) fun _ => .ite (fun _ => n _) fun _ => ?_
    split
    · exact n _
    · split
      · exact n _
      · exact .admitCandidate s a _ _ b _

theorem Moves.seatCandidate (s : State) (i k : Nat) (e : Entry) :
    Moves [.seats, .roster] s (s.seatCandidate i k e) := by
  unfold State.seatCandidate
  exact (((((Moves.putEntry s k _).widen).next (.occupySeat _ i k)).next (.warnTest _ k)).next (.setMark _ i)).next
    (.noteSeat _ i _)

theorem Moves.wrongSeat (s : State) (d i : Nat) : Moves [] s (s.wrongSeat d i) :=
  (Moves.noteSeat s d _).next (.onStats _ _ _)

theorem Moves.takeTap (s : State) (d id : Nat) : Moves [.seats, .roster] s (s.takeTap d id) := by
  have n : ∀ x, Moves [.seats, .roster] s (s.noteSeat d x) := fun x => (Moves.noteSeat s d x).widen
  unfold State.takeTap
  split
  · exact n _
  · split
    · exact n _
    · exact .ite (fun _ => .seatCandidate s d _ _) fun _ => (Moves.wrongSeat s d _).widen
    all_goals first
      | exact n _
      | exact .ite (fun _ => (Moves.setMark s d).widen) fun _ => (Moves.wrongSeat s d _).widen

theorem Moves.expire (s : State) (i k : Nat) : Moves [.seats, .roster, .flags, .notices] s (s.expire i k) :=
  (((Moves.releaseHold s i).widen).next (.onEntry _ k _)).next (.notify _ _)

theorem Moves.endClearing (s : State) (i : Nat) : Moves [.seats] s (s.endClearing i) :=
  (Moves.freeSeat s i).next (.noteSeat _ i _)

theorem Moves.tickSeat (s : State) (i : Nat) : Moves [.seats, .roster, .flags, .notices] s (s.tickSeat i) := by
  unfold State.tickSeat
  split
  · refine .ite (fun _ => .refl s) fun _ => ?_
    exact .ite (fun _ => ((Moves.onSeat s i _).widen).next (.expire _ i _)) fun _ => (Moves.onSeat s i _).widen
  · exact .ite (fun _ => ((Moves.onSeat s i _).widen).next (.endClearing _ i)) fun _ => (Moves.onSeat s i _).widen
  · exact .refl s

theorem Moves.tickSeats (s : State) : Moves [.seats, .roster, .flags, .notices] s s.tickSeats :=
  .fold _ Moves.tickSeat _ s

theorem Moves.shutOut (s : State) (k : Nat) : Moves [.seats, .roster] s (s.shutOut k) := by
  unfold State.shutOut
  split
  · exact .refl s
  · dsimp only
    split
    · exact (Moves.ite (fun _ => (Moves.releaseHold s _).widen) fun _ => .refl s).next (.onEntry _ k _)
    · exact (Moves.onEntry s k _).widen

theorem Moves.deskGone (s : State) (i : Nat) : Moves [.seats, .roster] s (s.deskGone i) := by
  unfold State.deskGone
  split
  · exact ((Moves.onSeat s i _).widen).next (.onEntry _ _ _)
  · exact .refl s

theorem Moves.deskFound (s : State) (i : Nat) : Moves [.seats, .roster] s (s.deskFound i) := by
  unfold State.deskFound
  dsimp only
  have h : ∀ t, Moves [.seats, .roster] s t → Moves [.seats, .roster] s
      (match (t.seat i).occ with
        | .occupied _ | .held _ _ => t.setMark i
        | _ => t.dropMark i) := by
    intro t h
    split
    · exact h.next (.setMark _ i)
    · exact h.next (.setMark _ i)
    · exact h.next (.dropMark _ i)
  refine h _ ?_
  split
  · exact ((Moves.onEntry s _ _).widen).next (.onSeat _ i _)
  · exact .refl s

theorem Moves.leaveSeat (s : State) (k j : Nat) : Moves [.seats] s (s.leaveSeat k j) := by
  unfold State.leaveSeat
  dsimp only
  split
  · exact (Moves.releaseHold s j).next (.onSeat _ j _)
  · exact (Moves.clearSeat s j _).next (.onSeat _ j _)
  · exact .onSeat s j _

theorem Moves.moveTo (s : State) (k i : Nat) (e : Entry) : Moves [.seats, .roster] s (s.moveTo k i e) := by
  unfold State.moveTo
  dsimp only
  have h : ∀ t, Moves [.seats, .roster] s t → ∀ f, Moves [.seats, .roster] s
      (((if e.state = .allocated then t.holdSeat i k else t.occupySeat i k).onEntry k f).setMark i) := fun t h f =>
    ((Moves.ite (fun _ => h.next (.holdSeat t i k)) fun _ => h.next (.occupySeat t i k)).next (.onEntry _ k f)).next
      (.setMark _ i)
  refine h _ ?_ _
  split
  · exact (Moves.leaveSeat s k _).widen
  · exact .refl s

/-! ## The sitting unit -/

theorem Moves.timedAttempt (s : State) (c : Nat) : Moves [.channels, .flags, .notices] s (s.timedAttempt c) := by
  unfold State.timedAttempt
  split
  · exact .enterPhase s c _
  · exact ((Moves.onChan s c _).widen).next (.notify _ _)

theorem Moves.amend (s : State) (c v e : Nat) : Moves [.channels, .roster, .flags, .notices] s (s.amend c v e) :=
  (((Moves.onChan s c _).widen).next (.recomputeAll _ c _)).next (.notify _ _)

theorem Moves.dropAmendment (s : State) (c : Nat) : Moves [.channels, .flags, .notices] s (s.dropAmendment c) := by
  unfold State.dropAmendment
  split
  · exact ((Moves.onChan s c _).widen).next (.notify _ _)
  · exact .refl s

theorem Moves.applyPending (s : State) (c : Nat) :
    Moves [.channels, .roster, .flags, .notices] s (s.applyPending c) := by
  unfold State.applyPending
  split
  · exact .ite (fun _ => (Moves.dropAmendment s c).widen) fun _ => .amend s c _ _
  · exact .refl s

theorem Moves.startWriting (s : State) (c : Nat) :
    Moves [.channels, .roster, .flags, .notices] s (s.startWriting c) :=
  ((((Moves.onChan s c _).widen).next (.startWriters _ c)).next (.applyPending _ c)).next (.notify _ _)

theorem Moves.startChannel (s : State) (c : Nat) :
    Moves [.channels, .roster, .flags, .notices] s (s.startChannel c) :=
  .ite (fun _ => (((Moves.onChan s c _).widen).next (.enterPhase _ c _)).next (.markEntries _ c _)) fun _ =>
    .startWriting s c

theorem Moves.closeAdmission (s : State) (c : Nat) :
    Moves [.channels, .roster, .seats, .flags, .notices] s (s.closeAdmission c) :=
  (((Moves.onChan s c _).widen).next (.fold _ Moves.shutOut _ _)).next (.notify _ _)

theorem Moves.closeOnce (s : State) (c : Nat) :
    Moves [.channels, .roster, .seats, .flags, .notices] s (s.closeOnce c) :=
  .ite (fun _ => .refl s) fun _ => .closeAdmission s c

theorem Moves.endBase (s : State) (c : Nat) :
    Moves [.channels, .roster, .seats, .flags, .notices] s (s.endBase c) := by
  unfold State.endBase
  have h := (Moves.closeOnce s c).next (.dropAmendment _ c)
  exact .ite (fun _ => h.next (.enterPhase _ c _)) fun _ => h.next (.enterCollecting _ c)

theorem Moves.secondBase (s : State) (c : Nat) :
    Moves [.channels, .roster, .seats, .flags, .notices] s (s.secondBase c) :=
  .ite (fun _ => .endBase s c) fun _ => .refl s

theorem Moves.writingSecond (s : State) (c : Nat) :
    Moves [.channels, .roster, .seats, .flags, .notices] s (s.writingSecond c) := by
  have h1 : ∀ t : State, Moves [.channels, .roster, .seats, .flags, .notices] t (t.secondAmendment c) := fun t =>
    .ite (fun _ => (Moves.applyPending t c).widen) fun _ => .refl t
  have h2 : ∀ t : State, Moves [.channels, .roster, .seats, .flags, .notices] t (t.secondClose c) := fun t =>
    .ite (fun _ => .closeOnce t c) fun _ => .refl t
  exact (((((Moves.onChan s c _).widen).next (h1 _)).next (.countChannel _ c)).next (h2 _)).next (.secondBase _ c)

theorem Moves.readingSecond (s : State) (c : Nat) :
    Moves [.channels, .roster, .flags, .notices] s (s.readingSecond c) := by
  unfold State.readingSecond
  have h := ((Moves.onChan s c fun ch => { ch with readElapsed := ch.readElapsed + 1 }).widen
    (k := [.channels, .roster, .flags, .notices])).next (.readingMarks _ c)
  exact .ite (fun _ => h.next (.startWriting _ c)) fun _ => h

theorem Moves.heldSecond (s : State) (c : Nat) : Moves [.channels] s (s.heldSecond c) := .onChan s c _

theorem Moves.tickChannel (s : State) (c : Nat) :
    Moves [.channels, .roster, .seats, .flags, .notices] s (s.tickChannel c) := by
  unfold State.tickChannel
  split
  · exact .ite (fun _ => (Moves.timedAttempt s c).widen) fun _ => .refl s
  · exact .ite (fun _ => (Moves.startChannel s c).widen) fun _ => .refl s
  · exact .ite (fun _ => (Moves.heldSecond s c).widen) fun _ => (Moves.readingSecond s c).widen
  · exact .ite (fun _ => (Moves.heldSecond s c).widen) fun _ => .writingSecond s c
  · exact .ite (fun _ => (Moves.heldSecond s c).widen) fun _ => .writingSecond s c
  · exact .refl s

/-- A tick given or taken back, which no frame names. -/
theorem Moves.giveTick (s : State) (c : Option Nat) : Moves [] s (s.giveTick c) := by
  refine .of_fields rfl (fun p _ hq => ?_) (fun h => h) rfl rfl
  cases p <;> simp_all [Part.same]

theorem Moves.passTick (s : State) (c : Nat) :
    Moves [.channels, .roster, .seats, .flags, .notices] s (s.passTick c) :=
  (((Moves.giveTick s _).widen).next (.tickChannel _ c)).next (.giveTick _ _)

theorem Moves.tickSittings (s : State) : Moves [.channels, .roster, .seats, .flags, .notices] s s.tickSittings :=
  .fold _ Moves.passTick _ s

theorem Moves.freeSlot (s : State) (k : Nat) : Moves [.roster, .seats, .booklets] s (s.freeSlot k) := by
  refine .of_fields rfl (fun p hp hq => ?_) (fun h => ?_) rfl rfl
  · cases p <;> simp_all [Part.same, State.freeSlot]
  · simp only [State.canonical, Bool.and_eq_true] at h ⊢
    simp_all [State.freeSlot, canon_tabMap, mapRises_mapErase, mapRises_filter]

theorem Channel.canonical_freed {c : Channel} (h : c.canonical = true) : c.freed.canonical = true := by
  simp only [Channel.canonical, Bool.and_eq_true] at h ⊢
  exact ⟨⟨rfl, rfl⟩, h.2⟩

theorem Channel.canonical_commit {c : Channel} (h : c.canonical = true) : c.commit.canonical = true := by
  simp only [Channel.canonical, Bool.and_eq_true] at h ⊢
  unfold Channel.commit
  split
  · exact ⟨⟨h.1.2, h.1.2⟩, h.2⟩
  · exact ⟨⟨h.1.1, h.1.1⟩, h.2⟩

theorem Moves.freeChannel (s : State) (c : Nat) :
    Moves [.channels, .roster, .booklets, .seats, .flags, .notices] s (s.freeChannel c) :=
  (((Moves.fold _ Moves.freeSlot _ s).widen).next (.onChan _ c _ Channel.canonical_freed)).next (.notify _ _)

theorem Moves.testGate (s : State) (c : Nat) :
    Moves [.channels, .roster, .booklets, .seats, .flags, .notices] s (s.testGate c) :=
  .ite (fun _ => .freeChannel s c) fun _ => .refl s

theorem Moves.testGates (s : State) : Moves [.channels, .roster, .booklets, .seats, .flags, .notices] s s.testGates :=
  .fold _ Moves.testGate _ s

theorem Moves.closeChannel (s : State) (c : Nat) :
    Moves [.channels, .roster, .flags, .notices] s (s.closeChannel c) :=
  ((Moves.fold _ (fun t k => .onEntry t k _) _ s).widen).next (.enterPhase _ c _)

theorem Moves.setHold (s : State) (c : Nat) (h : Bool) : Moves [.channels] s (s.setHold c h) :=
  .ite (fun _ => (Moves.onChan s c _).next (.markEntries _ c _)) fun _ => .onChan s c _

/-! ## The result log -/

theorem Moves.countBand (s : State) (r : ResultRecord) : Moves [.channels] s (s.countBand r) := by
  unfold State.countBand
  split
  · refine .onChan s _ _ fun h => ?_
    simp only [Channel.canonical, Bool.and_eq_true] at h ⊢
    exact ⟨h.1, canon_tabSet _ _ h.2⟩
  · exact .refl s

theorem Moves.placeRecord (s : State) (r : ResultRecord) :
    Moves [.log, .channels, .flags, .notices] s (s.placeRecord r) :=
  (((Moves.onLog s _).widen).next (.countBand _ r)).next
    (.ite (k := [.flags, .notices]) (fun _ => .notify _ _) fun _ => .refl _)

theorem Moves.fullReject (s : State) (sheet : Nat) : Moves [.log, .flags, .notices] s (s.fullReject sheet) :=
  .ite (fun _ => ((Moves.onLog s _).widen).next (.notify _ _)) fun _ => .refl s

/-! ## The marking unit and the intake -/

theorem Intake.canon_onSlot {t : Intake} (n : Nat) (f : Slot → Slot) (h : canon Slot.blank t.slots = true) :
    canon Slot.blank (t.onSlot n f).slots = true := canon_tabSet _ _ h

theorem Moves.advance (s : State) (reach : Nat) : Moves [.intake] s (s.advance reach) := by
  unfold State.advance
  split
  · exact .refl s
  · exact .onIntake s _ fun h => by dsimp only; exact Intake.canon_onSlot _ _ h

theorem Intake.canon_take {t : Intake} (fs : PMap Form) (h : canon Slot.blank t.slots = true) :
    canon Slot.blank (t.take fs).slots = true := by
  unfold Intake.take
  split
  · dsimp only; exact Intake.canon_onSlot _ _ h
  · exact h

theorem Moves.takeSheet (s : State) : Moves [.intake] s s.takeSheet := .onIntake s _ (Intake.canon_take _)

theorem Moves.setResult (s : State) (m : Marking) (x : Status) : Moves [.roster] s (s.setResult m x) := by
  unfold State.setResult
  split
  · exact .onEntry s _ _
  · exact .onEntry s _ _
  · exact .refl s

theorem Moves.logSheet (s : State) (r : ResultRecord) :
    Moves [.log, .channels, .flags, .notices] s (s.logSheet r) :=
  .ite (fun _ => (Moves.fullReject s _).widen) fun _ => .placeRecord s r

theorem Moves.beginCommit (s : State) (c : Nat) : Moves [.channels] s (s.beginCommit c) :=
  .ite (fun _ => .onChan s c _) fun _ => .refl s

theorem Moves.completeSheet (s : State) (m : Marking) :
    Moves [.log, .intake, .channels, .roster, .booklets, .seats, .flags, .notices] s (s.completeSheet m) := by
  unfold State.completeSheet
  dsimp only
  have h : ∀ t, Moves [.log, .intake, .channels, .roster, .booklets, .seats, .flags, .notices] s t →
      Moves [.log, .intake, .channels, .roster, .booklets, .seats, .flags, .notices] s
        t.testGates.takeSheet := fun t h => (h.next (.testGates t)).next (.takeSheet _)
  refine h _ ?_
  have h2 := fun x r f (g : canon Slot.blank ((s.setResult m x).logSheet r).intake.slots = true →
      canon Slot.blank (f ((s.setResult m x).logSheet r).intake).slots = true) =>
    (((Moves.setResult s m x).widen
      (k := [.log, .intake, .channels, .roster, .booklets, .seats, .flags, .notices])).next (.logSheet _ r)).next
      (.onIntake _ f g)
  split
  · exact (h2 _ _ _ fun g => by dsimp only; exact Intake.canon_onSlot _ _ g).next (.beginCommit _ _)
  · exact h2 _ _ _ fun g => by dsimp only; exact Intake.canon_onSlot _ _ g

theorem Moves.complete (s : State) :
    Moves [.log, .intake, .channels, .roster, .booklets, .seats, .flags, .notices] s s.complete := by
  unfold State.complete
  dsimp only
  have h := (Moves.advance s 14).widen (k := [.log, .intake, .channels, .roster, .booklets, .seats, .flags, .notices])
  split
  · exact .ite (fun _ => h.next (.completeSheet _ _)) fun _ => h
  · exact h

theorem Moves.resumeSheet (s : State) (c : Nat) : Moves [.intake] s (s.resumeSheet c) := by
  unfold State.resumeSheet
  split
  · exact .ite (fun _ => .advance s 14) fun _ => .refl s
  · exact .refl s

theorem Moves.endCommit (s : State) (c : Nat) : Moves [.channels, .intake] s (s.endCommit c) :=
  ((Moves.onChan s c _ Channel.canonical_commit).widen).next (.resumeSheet _ c)

theorem Moves.tickCommit (s : State) (c : Nat) : Moves [.channels, .intake] s (s.tickCommit c) := by
  unfold State.tickCommit
  split
  · exact .ite (fun _ => ((Moves.onChan s c _).widen).next (.endCommit _ c)) fun _ => (Moves.onChan s c _).widen
  · exact .refl s

theorem Moves.tickCommits (s : State) : Moves [.channels, .intake] s s.tickCommits := .fold _ Moves.tickCommit _ s

theorem Moves.sheetStart (s : State) : Moves [.intake] s s.sheetStart := by
  unfold State.sheetStart
  split
  · split
    · exact .onIntake s _ fun h => by dsimp only; exact Intake.canon_onSlot _ _ h
    · exact .onIntake s _ id
  · exact .refl s

theorem Moves.endFrame (s : State) (n : Nat) (bytes : List Byte) (good : Bool) :
    Moves [.intake, .flags, .notices] s (s.endFrame n bytes good) := by
  unfold State.endFrame
  dsimp only
  have h := fun f g => (Moves.onIntake s f g).widen (k := [.intake, .flags, .notices])
  exact (Moves.ite (fun _ => (h _ fun g => by dsimp only; exact Intake.canon_onSlot _ _ g).next (.notify _ _)) fun _ => h _ fun g => by
    dsimp only; exact Intake.canon_onSlot _ _ g).next (.takeSheet _)

theorem Moves.endOverrun (s : State) (bytes : List Byte) :
    Moves [.intake, .flags, .notices] s (s.endOverrun bytes) := by
  unfold State.endOverrun
  split
  · refine ((Moves.onIntake s _ fun g => ?_).widen).next (.notify _ _)
    dsimp only
    split
    · unfold Intake.offerOverrun; split <;> exact g
    · exact g
  · exact .refl s

theorem Moves.endAbandoned (s : State) : Moves [.intake] s s.endAbandoned :=
  .ite (fun _ => .onIntake s _ id) fun _ => .refl s

theorem Moves.sheetEnd (s : State) (bytes : List Byte) : Moves [.intake, .flags, .notices] s (s.sheetEnd bytes) := by
  unfold State.sheetEnd
  split
  · split
    · exact .endFrame s _ _ _
    · exact .endOverrun s _
    · exact (Moves.endAbandoned s).widen
    · exact .refl s
  · exact .refl s

theorem Moves.sheetGap (s : State) (bytes : List Byte) : Moves [.intake, .flags, .notices] s (s.sheetGap bytes) := by
  unfold State.sheetGap
  split
  · exact .endFrame s _ _ _
  · exact .endOverrun s _
  · exact (Moves.endAbandoned s).widen
  · exact .refl s

theorem Moves.sheetQuiet (s : State) : Moves [.intake] s s.sheetQuiet :=
  .ite (fun _ => .onIntake s _ id) fun _ => .refl s

theorem Intake.sent_slots (t : Intake) : t.sent.slots = t.slots := by
  unfold Intake.sent; split <;> rfl

theorem Moves.sent (s : State) : Moves [.intake] s (s.onIntake Intake.sent) :=
  .onIntake s _ fun h => by rw [Intake.sent_slots]; exact h

theorem Intake.canon_tick {t : Intake} (h : canon Slot.blank t.slots = true) : canon Slot.blank t.tick.slots = true :=
  foldl_invariant (fun u : Intake => canon Slot.blank u.slots = true) _ (fun u n g => Intake.canon_onSlot (t := u) n _ g) _ t h

theorem Moves.intakeTick (s : State) : Moves [.intake] s (s.onIntake Intake.tick) := .onIntake s _ Intake.canon_tick

/-! ## The time base -/

theorem Moves.tickSignals (s : State) : Moves [.signals] s s.tickSignals := .fold _ (fun t n => .onSignal t n _) _ s

theorem Moves.consume (s : State) (x : Consumer) :
    Moves [.signals, .channels, .roster, .seats, .flags, .notices] s (s.consume x) := by
  cases x
  · exact (Moves.tickSittings s).widen
  · exact (Moves.tickSeats s).widen
  · exact (Moves.tickSignals s).widen

theorem Moves.secondTick (s : State) (o : TickOrder) :
    Moves [.time, .signals, .channels, .roster, .seats, .flags, .notices] s (s.secondTick o) :=
  ((Moves.onTime s _).widen).next (.fold _ Moves.consume _ _)

theorem Moves.changePin (s : State) : Moves [.time, .flags, .notices] s s.changePin := .changeHold s _ _

theorem Moves.tickTail (s : State) (n : Nat) (o : TickOrder) :
    Moves [.time, .signals, .channels, .roster, .seats, .flags, .notices] s (s.tickTail n o) := by
  unfold State.tickTail
  dsimp only
  have h : ∀ t : State, Moves [.time, .signals, .channels, .roster, .seats, .flags, .notices] t
      (if s.time.pinDue then t.changePin else t) := fun t =>
    .ite (fun _ => (Moves.changePin t).widen) fun _ => .refl t
  refine .ite (fun _ => ?_) fun _ => h s
  exact ((((Moves.onTime s _).widen).next (.fold _ Moves.consume _ _)).next (h _)).next (.fold _ Moves.consume _ _)

theorem Moves.loseReference (s : State) (o : TickOrder) :
    Moves [.time, .signals, .channels, .roster, .seats, .flags, .notices] s (s.loseReference o) := by
  unfold State.loseReference
  dsimp only
  have h := fun f => ((Moves.onTime s f).widen
    (k := [.time, .signals, .channels, .roster, .seats, .flags, .notices])).next (.notify _ .refLost)
  exact .ite (fun _ => (h _).next (.secondTick _ o)) fun _ => h _

theorem Moves.judgeBad (s : State) (o : TickOrder) :
    Moves [.time, .signals, .channels, .roster, .seats, .flags, .notices] s (s.judgeBad o) := by
  unfold State.judgeBad
  have h := fun f => (Moves.onTime s f).widen (k := [.time, .signals, .channels, .roster, .seats, .flags, .notices])
  split
  · exact h _
  · exact .ite (fun _ => (h _).next (.loseReference _ o)) fun _ => h _

theorem Moves.goodEdge (s : State) (o : TickOrder) :
    Moves [.time, .signals, .channels, .roster, .seats, .flags, .notices] s (s.goodEdge o) :=
  .ite (fun _ => .secondTick s o) fun _ => (Moves.onTime s _).widen

theorem Moves.judgeGood (s : State) (o : TickOrder) :
    Moves [.time, .signals, .channels, .roster, .seats, .flags, .notices] s (s.judgeGood o) := by
  unfold State.judgeGood
  have h := fun f => (Moves.onTime s f).widen (k := [.time, .signals, .channels, .roster, .seats, .flags, .notices])
  split
  · exact (h _).next (.goodEdge _ o)
  · exact (h _).next (.goodEdge _ o)
  · exact .ite (fun _ => (((h _).next (.onTime _ _)).next (.notify _ _)).next (.goodEdge _ o)) fun _ => h _

theorem Moves.judgeMissing (s : State) (o : TickOrder) :
    Moves [.time, .signals, .channels, .roster, .seats, .flags, .notices] s (s.judgeMissing o) :=
  ((Moves.onTime s _).widen).next (.judgeBad _ o)

theorem Moves.missingTest (s : State) (o : TickOrder) :
    Moves [.time, .signals, .channels, .roster, .seats, .flags, .notices] s (s.missingTest o) :=
  .ite (fun _ => .judgeMissing s o) fun _ => .refl s

theorem Moves.edge (s : State) (o : TickOrder) :
    Moves [.time, .signals, .channels, .roster, .seats, .flags, .notices] s (s.edge o) := by
  unfold State.edge
  dsimp only
  have h := fun f => (Moves.onTime s f).widen (k := [.time, .signals, .channels, .roster, .seats, .flags, .notices])
  split
  · exact h _
  · exact .ite (fun _ => (h _).next (.judgeGood _ o)) fun _ => (h _).next (.judgeBad _ o)

theorem Moves.edgeAt (s : State) (phase : Nat) (o : TickOrder) :
    Moves [.time, .signals, .channels, .roster, .seats, .flags, .notices] s (s.edgeAt phase o) :=
  (((Moves.onTime s _).widen).next (.missingTest _ o)).next (.edge _ o)

end Sys2Proof.Machine
end

