-- ==== Sys2Proof/Laws/Controller.lean ====
section
/-! SUPPORT. What the line controller's operations may change: outcomes of exchanges, interval ends, line commands. -/

namespace Sys2Proof.Machine

set_option Elab.async false

/-! ## Presence -/

/-- A desk's record changed to a lawful one. -/
theorem Moves.onDeskAddr (s : State) (l a : Nat) (f : AddrState → AddrState)
    (hl : ((s.line l).addr a).lawful = true → (f ((s.line l).addr a)).lawful = true) :
    Moves [.presence] s (s.onAddr l a f) :=
  .onDesk s l _ (fun h => Line.lawful_onAddr h (hl (Line.addr_lawful h a))) (Line.canonical_onAddr a f)

theorem AddrState.lawful_at (p : Presence) : (AddrState.at p).lawful = true := by cases p <;> rfl

theorem AddrState.lawful_become (r : AddrState) (p : Presence) : (r.become p).lawful = true := by cases p <;> rfl

theorem Moves.setPresence (s : State) (l a : Nat) (p : Presence) :
    Moves [.presence, .seats, .roster] s (s.setPresence l a p) := by
  have h := (Moves.onDeskAddr s l a (fun r => r.become p) fun _ => AddrState.lawful_become _ p).widen
    (k := [.presence, .seats, .roster])
  unfold State.setPresence
  dsimp only
  split
  · exact h
  · split
    · exact h.next (.deskFound _ _)
    · split
      · exact h.next (.deskGone _ _)
      · exact h

theorem Moves.raiseLost (s : State) (l a : Nat) (p : Presence) : Moves [.flags, .notices] s (s.raiseLost l a p) :=
  .notify s _

theorem Moves.raiseLossBy (s : State) (l : Nat) (x : Exchange) : Moves [.flags, .notices] s (s.raiseLossBy l x) := by
  unfold State.raiseLossBy
  split
  · exact .refl s
  · exact .raiseLost s l _ _

theorem Moves.loseDesk (s : State) (l : Nat) (x : Exchange) :
    Moves [.presence, .seats, .roster, .flags, .notices] s (s.loseDesk l x) :=
  ((Moves.raiseLossBy s l x).widen).next (.setPresence _ l _ _)

theorem Moves.countMiss (s : State) (l : Nat) (x : Exchange) (h : Heard) :
    Moves [.presence, .seats, .roster, .flags, .notices] s (s.countMiss l x h) := by
  unfold State.countMiss
  refine .ite (fun hp => ?_) fun _ => .refl s
  refine .ite (fun _ => ?_) fun _ => ?_
  · refine (Moves.onDeskAddr s l x.addr _ fun hl => ?_).widen
    simp only [AddrState.lawful, Bool.and_eq_true, decide_eq_true_eq, Bool.or_eq_true] at hl ⊢
    exact ⟨⟨⟨by omega, hl.1.1.2⟩, hl.1.2⟩, .inl hp⟩
  · split
    · exact .loseDesk s l x
    · rename_i hm
      refine (Moves.onDeskAddr s l x.addr _ fun hl => ?_).widen
      simp only [AddrState.lawful, Bool.and_eq_true, decide_eq_true_eq, Bool.or_eq_true] at hl ⊢
      exact ⟨⟨⟨by omega, hl.1.1.2⟩, hl.1.2⟩, .inl hp⟩

theorem Moves.takeDiscovery (s : State) (l a : Nat) (h : Heard) :
    Moves [.presence, .seats, .roster, .flags, .notices] s (s.takeDiscovery l a h) :=
  .ite (fun _ => ((Moves.setPresence s l a _).widen).next (.notify _ _)) fun _ => .refl s

theorem Moves.takeSweep (s : State) (l a : Nat) (h : Heard) :
    Moves [.presence, .seats, .roster, .flags, .notices] s (s.takeSweep l a h) := by
  unfold State.takeSweep
  refine .ite (fun _ => (Moves.setPresence s l a _).widen) fun _ => ?_
  dsimp only
  exact (Moves.ite (fun _ => (Moves.raiseLost s l a _).widen) fun _ => .refl s).next (.setPresence _ l a _)

/-! ## Events -/

theorem Moves.stationEvent (s : State) (a : Nat) (e : DeskEvent) :
    Moves [.channels, .roster, .seats, .booklets, .flags, .notices] s (s.stationEvent a e) := by
  unfold State.stationEvent
  split
  · exact (Moves.takeCheckin s a _ _).widen
  · exact (Moves.takeIssue s a _ _).widen
  · exact (Moves.takeReturn s a _).widen
  · exact .refl s
  · exact (Moves.noteStation s a _).widen

theorem Moves.deskEvent (s : State) (i : Nat) (e : DeskEvent) :
    Moves [.channels, .roster, .seats, .flags, .notices] s (s.deskEvent i e) := by
  unfold State.deskEvent
  split
  · exact (Moves.takeTap s i _).widen
  · exact .pressFinish s i
  · exact (Moves.pressBreak s i).widen
  · exact (Moves.notify s _).widen
  · exact .refl s

theorem Moves.handOn (s : State) (l a : Nat) (h : Heard) :
    Moves [.channels, .roster, .seats, .booklets, .flags, .notices] s (s.handOn l a h) := by
  unfold State.handOn
  split
  · split
    · exact (Moves.deskEvent s _ _).widen
    · exact .stationEvent s a _
  · exact .refl s

theorem Moves.takeTest (s : State) (l a i : Nat) (h : Heard) :
    Moves [.presence, .seats, .roster] s (s.takeTest l a i h) := by
  unfold State.takeTest
  refine .ite (fun _ => ?_) fun _ => .refl s
  dsimp only
  refine .ite (fun _ => ?_) fun _ => ?_
  · exact (Moves.onLine_state s l _ rfl rfl (Nat.le_refl _) rfl rfl).widen
  · exact ((Moves.onLine_state s l _ rfl rfl (Nat.le_refl _) rfl rfl).widen).next (.setPresence _ l a _)

/-! ## The start of a wiring test -/

theorem Line.zeroCounts_keeps (n : Line) :
    n.zeroCounts.marks = n.marks ∧ n.zeroCounts.fifo = n.fifo ∧ n.zeroCounts.discovery = n.discovery ∧
      n.zeroCounts.exchange = n.exchange ∧ n.zeroCounts.state = n.state ∧ n.zeroCounts.stats = n.stats :=
  foldl_invariant
    (fun m : Line => m.marks = n.marks ∧ m.fifo = n.fifo ∧ m.discovery = n.discovery ∧ m.exchange = n.exchange ∧
      m.state = n.state ∧ m.stats = n.stats)
    (fun m a => m.onAddr a fun r => AddrState.at r.presence) (fun _ _ h => h) (mapKeys n.addrs) n
    ⟨rfl, rfl, rfl, rfl, rfl, rfl⟩

theorem Line.lawful_zeroCounts {n : Line} (h : n.lawful = true) : n.zeroCounts.lawful = true :=
  foldl_invariant (fun m : Line => m.lawful = true) _
    (fun m _ g => Line.lawful_onAddr (n := m) g (AddrState.lawful_at _)) _ n h

theorem Line.canonical_zeroCounts {n : Line} (h : n.canonical = true) : n.zeroCounts.canonical = true :=
  foldl_invariant (fun m : Line => m.canonical = true) _ (fun _ a g => Line.canonical_onAddr a _ g) _ n h

theorem mem_mapKeys_of_mapGet {α : Type} {m : PMap α} {i : Nat} {v : α} (h : mapGet m i = some v) : i ∈ mapKeys m :=
  List.mem_map.mpr ⟨_, mapGet_mem h, rfl⟩

theorem Line.zeroCounts_addr (n : Line) (a : Nat) : n.zeroCounts.addr a = AddrState.at (n.addr a).presence := by
  have key : ∀ (xs : List Nat) (m : Line), (m.addr a = AddrState.at (n.addr a).presence ∨
      (a ∈ xs ∧ (m.addr a).presence = (n.addr a).presence)) →
      (xs.foldl (fun n a => n.onAddr a fun r => AddrState.at r.presence) m).addr a = AddrState.at (n.addr a).presence := by
    intro xs
    induction xs with
    | nil => intro m h; rcases h with h | h
             · exact h
             · simp at h
    | cons x xs ih =>
      intro m h
      refine ih _ ?_
      by_cases hx : x = a
      · subst hx
        left
        rcases h with h | h
        · simp [h, AddrState.at]
        · simp [h.2]
      · rcases h with h | h
        · left; simp [hx, h]
        · right
          refine ⟨?_, by simpa [hx] using h.2⟩
          rcases List.mem_cons.1 h.1 with e | e
          · exact absurd e.symm hx
          · exact e
  refine key _ n ?_
  cases hg : mapGet n.addrs a with
  | none => left; simp [Line.addr, tabGet, hg, AddrState.blank, AddrState.at]
  | some r => exact .inr ⟨mem_mapKeys_of_mapGet hg, rfl⟩

theorem Line.lawful_startTest {n : Line} (h : n.lawful = true) : n.startTest.lawful = true := by
  unfold Line.startTest
  split
  · exact Line.lawful_congr (Line.lawful_zeroCounts h) rfl rfl rfl rfl rfl
  · exact h

theorem Line.canonical_startTest {n : Line} (h : n.canonical = true) : n.startTest.canonical = true := by
  unfold Line.startTest
  split
  · exact Line.canonical_zeroCounts h
  · exact h

/-- The line after the start of a test that waited, if it starts. -/
theorem Moves.startTest (s : State) (l : Nat) : Moves [.presence] s (s.onLine l Line.startTest) :=
  .onDesk s l _ Line.lawful_startTest Line.canonical_startTest

/-! ## The end of an exchange -/

theorem mapErase_mapInsert_self {α : Type} (m : PMap α) (i : Nat) (v : α) :
    mapErase (mapInsert m i v) i = mapErase m i := by
  induction m with
  | nil => simp [mapInsert, mapErase]
  | cons p m ih =>
    obtain ⟨k, w⟩ := p
    simp only [mapInsert]
    split
    · simp [mapErase]
    · simp only [mapErase, ih]

theorem mapErase_mapErase {α : Type} (m : PMap α) (i : Nat) : mapErase (mapErase m i) i = mapErase m i := by
  induction m with
  | nil => rfl
  | cons p m ih =>
    obtain ⟨k, w⟩ := p
    simp only [mapErase]
    split
    · exact ih
    · simp [mapErase, *]

/-- Of two settings of one entry the second stands. -/
theorem tabSet_tabSet {α : Type} [DecidableEq α] (d : α) (m : PMap α) (i : Nat) (v w : α) :
    tabSet d (tabSet d m i v) i w = tabSet d m i w := by
  have h : mapErase (tabSet d m i v) i = mapErase m i := by
    unfold tabSet
    split
    · exact mapErase_mapErase m i
    · unfold mapPut; rw [mapErase_mapInsert_self, mapErase_mapErase]
  unfold tabSet at h ⊢
  split
  · exact h
  · unfold mapPut at h ⊢; rw [h]

theorem State.onLine_onLine (s : State) (l : Nat) (f g : Line → Line) :
    (s.onLine l f).onLine l g = s.onLine l fun n => g (f n) := by
  unfold State.onLine
  simp only [State.line, tabGet_tabSet, if_true, tabSet_tabSet]

/-- The line is free, and the outcome is counted. -/
theorem Moves.endFlight (s : State) (l : Nat) (h : Heard) :
    Moves [] s (s.onLine l fun n => { n with exchange := none, stats := n.stats.hear h }) :=
  .onLine_addrs s l _ rfl fun hl => by
    rw [Line.lawful_iff] at hl ⊢
    obtain ⟨h1, h2, h3, h4, h5, _⟩ := hl
    exact ⟨h1, h2, h3, h4, h5, fun x hx => by simp at hx⟩

theorem Line.lawful_takeClock {n : Line} {a : Nat} (ha : 1 ≤ a ∧ a ≤ 64) (again : Bool) (h : Heard)
    (hl : n.lawful = true) : (n.takeClock a again h).lawful = true := by
  unfold Line.takeClock
  split
  · rw [Line.lawful_iff] at hl ⊢
    obtain ⟨h1, h2, h3, h4, h5, h6⟩ := hl
    refine ⟨?_, ?_, h3, h4, h5, h6⟩
    · dsimp only
      rw [List.nodup_append]
      refine ⟨h1.filter _, by split <;> simp, fun x hx y hy => ?_⟩
      simp only [List.mem_filter, decide_eq_true_eq] at hx
      split at hy
      · simp only [List.mem_singleton] at hy; subst hy; exact hx.2
      · simp at hy
    · intro x hx
      simp only [List.mem_append, List.mem_filter] at hx
      rcases hx with hx | hx
      · exact h2 x hx.1
      · split at hx
        · simp only [List.mem_singleton] at hx; subst hx; exact ha
        · simp at hx
  · exact hl

theorem Moves.takeOutcome (s : State) (l : Nat) (x : Exchange) (h : Heard) (hx : (s.line l).exchange = some x) :
    Moves [.presence, .channels, .roster, .seats, .booklets, .flags, .notices] s (s.takeOutcome l x h) := by
  have t := (Moves.endFlight s l h).widen (k := [.presence, .channels, .roster, .seats, .booklets, .flags, .notices])
  have u := t.next (.countMiss _ l x h)
  unfold State.takeOutcome
  dsimp only
  split
  · exact u.next (.handOn _ l _ h)
  · rename_i c again hk
    rw [State.onLine_onLine]
    have hc : Moves [] s (s.onLine l fun n =>
        Line.takeClock { n with exchange := none, stats := n.stats.hear h } x.addr again h) := by
      refine .onLine_addrs s l _ (by unfold Line.takeClock; split <;> rfl) fun hl => ?_
      have ha : 1 ≤ x.addr ∧ x.addr ≤ 64 := by
        have := ((Line.lawful_iff _).1 hl).2.2.2.2.2 x hx
        simpa [Exchange.lawful, hk] using this
      refine Line.lawful_takeClock ha again h ?_
      rw [Line.lawful_iff] at hl ⊢
      obtain ⟨h1, h2, h3, h4, h5, _⟩ := hl
      exact ⟨h1, h2, h3, h4, h5, fun x hx => by simp at hx⟩
    exact (hc.widen).next (.countMiss _ l x h)
  · exact u
  · exact .ite (fun _ => .ite (fun _ => u.next (.takeSweep _ l _ h)) fun _ => u.next (.takeDiscovery _ l _ h)) fun _ => u
  · exact u.next (.takeTest _ l _ _ h)
  · exact t

theorem Moves.endExchange (s : State) (l : Nat) (x : Exchange) (h : Heard) (hx : (s.line l).exchange = some x) :
    Moves [.presence, .channels, .roster, .seats, .booklets, .flags, .notices] s (s.endExchange l x h) :=
  (Moves.takeOutcome s l x h hx).next (.startTest _ l)

theorem Moves.lineReply (s : State) (l : Nat) (bytes : List Byte) :
    Moves [.presence, .channels, .roster, .seats, .booklets, .flags, .notices] s (s.lineReply l bytes) := by
  unfold State.lineReply
  split
  · rename_i x hx
    exact .ite (fun _ => .endExchange s l x _ hx) fun _ => .refl s
  · exact .refl s

theorem Moves.windowClose (s : State) (l : Nat) :
    Moves [.presence, .channels, .roster, .seats, .booklets, .flags, .notices] s (s.windowClose l) := by
  unfold State.windowClose
  split
  · rename_i x hx
    exact .ite (fun _ => .endExchange s l x _ hx) fun _ => .refl s
  · exact .refl s

theorem Moves.broadcastEnd (s : State) (l : Nat) : Moves [.presence] s (s.broadcastEnd l) := by
  unfold State.broadcastEnd
  split
  · refine .ite (fun _ => .refl s) fun _ => .onDesk s l _ (fun hl => Line.lawful_startTest ?_) fun hc =>
      Line.canonical_startTest hc
    rw [Line.lawful_iff] at hl ⊢
    obtain ⟨h1, h2, h3, h4, h5, _⟩ := hl
    exact ⟨h1, h2, h3, h4, h5, fun x hx => by simp at hx⟩
  · exact .refl s

/-! ## Interval ends -/

/-- What one address owes more at an interval end. -/
def Line.oweOne (n : Line) (a : Nat) : Line :=
  let m := n.onAddr a AddrState.owe
  if 9 ≤ (n.addr a).owed then { m with stats := { m.stats with latePolls := statUp m.stats.latePolls } } else m

theorem Line.oweAll_eq (n : Line) (xs : List Nat) : n.oweAll xs = xs.foldl Line.oweOne n := by
  unfold Line.oweAll Line.oweOne
  simp

theorem Line.addr_oweOne (n : Line) (a b : Nat) :
    (n.oweOne a).addr b = if a = b then (n.addr b).owe else n.addr b := by
  have h : (n.oweOne a).addr b = (n.onAddr a AddrState.owe).addr b := by
    unfold Line.oweOne
    dsimp only
    split <;> rfl
  rw [h, Line.addr_onAddr]
  split
  · rename_i e; rw [e]
  · rfl

theorem Line.oweAll_kept (n : Line) (xs : List Nat) (b : Nat) :
    ((n.oweAll xs).addr b).presence = (n.addr b).presence ∧ ((n.oweAll xs).addr b).missed = (n.addr b).missed := by
  rw [Line.oweAll_eq]
  refine foldl_invariant (fun m : Line => (m.addr b).presence = (n.addr b).presence ∧
    (m.addr b).missed = (n.addr b).missed) Line.oweOne (fun m a h => ?_) xs n ⟨rfl, rfl⟩
  rw [Line.addr_oweOne]
  split
  · exact h
  · exact h

theorem Line.oweAll_lawful {n : Line} (xs : List Nat) (hp : ∀ a ∈ xs, (n.addr a).presence = .present)
    (h : n.lawful = true) : (n.oweAll xs).lawful = true := by
  rw [Line.oweAll_eq]
  induction xs generalizing n with
  | nil => exact h
  | cons a xs ih =>
    refine ih (n := n.oweOne a) (fun b hb => ?_) ?_
    · have := hp b (List.mem_cons_of_mem _ hb)
      rw [Line.addr_oweOne]
      split <;> exact this
    · have hpa := hp a List.mem_cons_self
      have h1 : (n.onAddr a AddrState.owe).lawful = true := Line.lawful_onAddr h <| by
        have ha := Line.addr_lawful h a
        simp only [AddrState.lawful, Bool.and_eq_true, decide_eq_true_eq, Bool.or_eq_true] at ha
        simp only [AddrState.lawful, AddrState.owe, Bool.and_eq_true, Bool.or_eq_true]
        refine ⟨⟨⟨?_, ?_⟩, ?_⟩, .inl (decide_eq_true hpa)⟩ <;> apply decide_eq_true <;> omega
      unfold Line.oweOne
      dsimp only
      split
      · exact Line.lawful_congr h1 rfl rfl rfl rfl rfl
      · exact h1

theorem Moves.discoveryRound (s : State) (l : Nat) : Moves [] s (s.discoveryRound l) :=
  .fold _ (fun t a => .ite (fun _ => .onAddr t l a (fun r => { r with due := true }) (fun _ => ⟨rfl, rfl⟩) fun h => h)
    fun _ => .refl t) _ s

theorem Moves.advanceDiscovery (s : State) (l : Nat) : Moves [] s (s.advanceDiscovery l) := by
  unfold State.advanceDiscovery
  split
  · exact (Moves.onLine_state s l _ rfl rfl (Nat.zero_le _) rfl rfl).next (.discoveryRound _ l)
  · refine .onLine_addrs s l _ rfl fun hl => ?_
    rw [Line.lawful_iff] at hl ⊢
    obtain ⟨h1, h2, h3, h4, h5, h6⟩ := hl
    exact ⟨h1, h2, h3, by dsimp only; omega, h5, h6⟩

theorem Line.canonical_oweAll {n : Line} (xs : List Nat) (h : n.canonical = true) : (n.oweAll xs).canonical = true := by
  rw [Line.oweAll_eq]
  refine foldl_invariant (fun m : Line => m.canonical = true) _ (fun m a g => ?_) xs n h
  have k := Line.canonical_onAddr a AddrState.owe g
  unfold Line.oweOne
  dsimp only
  split <;> exact k

theorem Moves.endInterval (s : State) (l : Nat) : Moves [] s (s.endInterval l) := by
  unfold State.endInterval
  refine .ite (fun _ => ?_) fun _ => .restartInterval s l
  refine ((Moves.restartInterval s l).next (.onLine _ l _ (fun a => Line.oweAll_kept _ _ a) (fun hl => ?_)
    (Line.canonical_oweAll _))).next (.advanceDiscovery _ l)
  refine Line.oweAll_lawful _ (fun a ha => ?_) hl
  have h := ((DesksKept.restartInterval s l) l a).1
  exact h.trans (State.presence_of_mem ha)

theorem Moves.tickLine (s : State) (l : Nat) : Moves [] s (s.tickLine l) := by
  have h : Moves [] s (s.onLine l fun n => { n with timer := n.timer + 1 }) :=
    .onLine_state s l _ rfl rfl (Nat.le_refl _) rfl rfl
  exact .ite (fun _ => h.next (.endInterval _ l)) fun _ => h

theorem Moves.tickLines (s : State) : Moves [] s s.tickLines := .fold _ Moves.tickLine _ s

/-! ## Changes of configured, line commands, resets -/

theorem Moves.newAddress (s : State) (l a : Nat) : Moves [.presence] s (s.newAddress l a) :=
  .onDesk s l _ (fun h => Line.lawful_dropMark _ (Line.lawful_onAddr h rfl)) fun h =>
    Line.canonical_onAddr a (fun _ => AddrState.blank) h

theorem Moves.goQuiet (s : State) (l : Nat) : Moves [] s (s.onLine l Line.goQuiet) :=
  .onLine_state s l _ rfl rfl (Nat.le_refl _) rfl rfl

theorem Moves.goWaking (s : State) (l : Nat) : Moves [] s (s.onLine l Line.goWaking) :=
  .onLine_state s l _ rfl rfl (Nat.le_refl _) rfl rfl

theorem Moves.goTesting (s : State) (l : Nat) : Moves [.presence] s (s.onLine l Line.goTesting) :=
  .onDesk s l _ (fun h => Line.lawful_startTest (Line.lawful_congr h rfl rfl rfl rfl rfl)) fun h =>
    Line.canonical_startTest h

theorem Moves.restartLine (s : State) (l : Nat) : Moves [.presence] s (s.onLine l Line.restart) :=
  .onDesk s l _ (fun h => Line.lawful_congr (Line.lawful_flush (Line.lawful_zeroCounts h)) rfl rfl rfl rfl rfl)
    fun h => Line.canonical_zeroCounts h

theorem Moves.blankLine (s : State) (l : Nat) : Moves [] s (s.blankLine l) := by
  have h : Moves [] s (s.onLine l Line.flush) := .onLine_addrs s l _ rfl Line.lawful_flush
  exact .ite (fun _ => h.next (.queueNote _ l 0 _)) fun _ => h

end Sys2Proof.Machine
end

