-- ==== Sys2Proof/Laws/Requests.lean ====
section
/-! SUPPORT. What a request may change: its owner's work, the response queued, the frame counted. -/

namespace Sys2Proof.Machine

set_option Elab.async false

/-! ## Table writes -/

/-- A change of the tables that no other operation writes. -/
theorem Moves.tables (s : State) (classes : PMap AllowanceClass) (forms : PMap Form) (profiles : PMap Profile)
    (messages : PMap (List Byte)) (stations : PMap Station)
    (h1 : canon AllowanceClass.blank s.classes = true → canon AllowanceClass.blank classes = true)
    (h2 : canon Form.blank s.forms = true → canon Form.blank forms = true)
    (h3 : canon Profile.initial s.profiles = true → canon Profile.initial profiles = true)
    (h4 : canon [] s.messages = true → canon [] messages = true)
    (h5 : canon Station.blank s.stations = true → canon Station.blank stations = true) :
    Moves [.classes, .forms, .profiles, .messages, .stations] s
      { s with classes := classes, forms := forms, profiles := profiles, messages := messages, stations := stations } := by
  refine .of_fields rfl (fun p hp hq => ?_) (fun hc => ?_) rfl rfl
  · cases p <;> simp_all [Part.same]
  · simp only [State.canonical, Bool.and_eq_true] at hc ⊢
    simp_all

theorem Moves.putClass (s : State) (n : Nat) (w : ClassWrite) : Moves [.classes] s (s.putClass n w) := by
  refine .of_fields rfl (fun p hp hq => ?_) (fun hc => ?_) rfl rfl
  · cases p <;> simp_all [Part.same, State.putClass]
  · exact (Moves.tables s _ s.forms s.profiles s.messages s.stations (canon_tabSet n _) id id id id).canonical hc

theorem Moves.putForm (s : State) (n : Nat) (w : FormWrite) : Moves [.forms] s (s.putForm n w) := by
  refine .of_fields rfl (fun p hp hq => ?_) (fun hc => ?_) rfl rfl
  · cases p <;> simp_all [Part.same, State.putForm]
  · exact (Moves.tables s s.classes _ s.profiles s.messages s.stations id (canon_tabSet n _) id id id).canonical hc

theorem Moves.putProfile (s : State) (n : Nat) (w : ProfileWrite) : Moves [.profiles] s (s.putProfile n w) := by
  refine .of_fields rfl (fun p hp hq => ?_) (fun hc => ?_) rfl rfl
  · cases p <;> simp_all [Part.same, State.putProfile]
  · exact (Moves.tables s s.classes s.forms _ s.messages s.stations id id (canon_tabSet n _) id id).canonical hc

theorem Moves.putMessage (s : State) (n : Nat) (x : List Byte) :
    Moves [.messages] s { s with messages := tabSet [] s.messages n x } := by
  refine .of_fields rfl (fun p hp hq => ?_) (fun hc => ?_) rfl rfl
  · cases p <;> simp_all [Part.same]
  · exact (Moves.tables s s.classes s.forms s.profiles _ s.stations id id id (canon_tabSet n _) id).canonical hc

theorem Moves.setStation (s : State) (a : Nat) (x : Station) :
    Moves [.stations] s { s with stations := tabSet Station.blank s.stations a x } := by
  refine .of_fields rfl (fun p hp hq => ?_) (fun hc => ?_) rfl rfl
  · cases p <;> simp_all [Part.same]
  · exact (Moves.tables s s.classes s.forms s.profiles s.messages _ id id id id (canon_tabSet a _)).canonical hc

theorem Moves.putStation (s : State) (a : Nat) (w : StationWrite) :
    Moves [.stations, .presence] s (s.putStation a w) := by
  unfold State.putStation
  dsimp only
  have h := fun x => (Moves.setStation s a x).widen (k := [.stations, .presence])
  exact .ite (fun _ => h _) fun _ => (h _).next (.newAddress _ 6 a)

theorem Moves.putSeat (s : State) (i : Nat) (w : SeatWrite) : Moves [.seats, .presence] s (s.putSeat i w) := by
  unfold State.putSeat
  dsimp only
  have h := fun f => (Moves.onSeat s i f).widen (k := [.seats, .presence])
  exact .ite (fun _ => h _) fun _ => (h _).next (.newAddress _ _ _)

theorem Moves.putRoster (s : State) (k : Nat) (w : RosterWrite) :
    Moves [.roster, .seats, .booklets] s (s.putRoster k w) := by
  unfold State.putRoster
  split
  · exact .freeSlot s k
  · exact (Moves.freeSlot s k).next (.putEntry _ k _)

theorem Moves.putChannel (s : State) (c : Nat) (w : ChannelWrite) : Moves [.channels] s (s.putChannel c w) :=
  .onChan s c _ fun h => by unfold Channel.write; split <;> exact h

theorem Moves.putSignal (s : State) (n : Nat) (w : SignalWrite) : Moves [.signals] s (s.putSignal n w) :=
  .onSignal s n _

theorem Moves.unless {k : List Part} {s t : State} (x : Option Code) (h : Moves k s t) :
    Moves k s (s.unless x t).state := by
  cases x
  · exact h
  · exact .refl s

theorem Moves.writeAll {α : Type} {k : List Part} (s : State) (lo hi first : Nat) (ws : List α)
    (check : Nat → α → Option Code) (put : State → Nat → α → State) (h : ∀ t i w, Moves k t (put t i w)) :
    Moves k s (s.writeAll lo hi first ws check put).state := by
  unfold State.writeAll
  split
  · exact .refl s
  · exact .fold (fun t (p : Nat × α) => put t p.1 p.2) (fun t p => h t p.1 p.2) _ s

theorem Moves.writeEach {α : Type} {k : List Part} (s : State) (lo hi first : Nat) (ws : List α)
    (check : State → Nat → α → Option Code) (put : State → Nat → α → State) (h : ∀ t i w, Moves k t (put t i w)) :
    Moves k s (s.writeEach lo hi first ws check put).state := by
  unfold State.writeEach
  split
  · exact .refl s
  · split
    · exact .refl s
    · rename_i t e
      have g := foldl_invariant (fun acc : State × Option Code => Moves k s acc.1) (stepEntry check put)
        (fun acc p g => ?_) (indexed first ws) (s, none) (.refl s)
      · rw [e] at g; exact g
      · unfold stepEntry
        split
        · exact g
        · split
          · exact g
          · exact g.next (h _ _ _) fun _ => id

theorem Moves.writeHall (s : State) (first : Nat) (ws : List HallWrite) : Moves [.hall] s (s.writeHall first ws).state := by
  unfold State.writeHall
  split
  · split
    · refine .of_fields rfl (fun p hp hq => ?_) (fun h => h) rfl rfl
      cases p <;> simp_all [Part.same]
    · exact .refl s
  · exact .refl s
  · exact .refl s

theorem Channel.canonical_putKey {c : Channel} (q : Nat) (w : KeyWrite) (h : c.canonical = true) :
    (c.putKey (q % 200) w.entry).canonical = true := by
  simp only [Channel.canonical, Bool.and_eq_true] at h ⊢
  unfold Channel.putKey
  split
  · exact ⟨⟨h.1.1, canon_tabSet _ _ h.1.2⟩, h.2⟩
  · exact ⟨⟨canon_tabSet _ _ h.1.1, h.1.2⟩, h.2⟩

theorem Moves.writeKeys (s : State) (first : Nat) (ws : List KeyWrite) :
    Moves [.channels] s (s.writeKeys first ws).state :=
  .unless _ (.onChan s _ _ fun h =>
    foldl_invariant (fun c : Channel => c.canonical = true) _ (fun _ p g => Channel.canonical_putKey p.1 p.2 g) _ _ h)

/-! ## Commands -/

theorem Moves.changeHoldAnswer (s : State) (h : Bool) : Moves [.time, .flags, .notices] s (s.hallHold h).state :=
  .changeHold s _ _

theorem Moves.queueOne (n : NoteContent) (s : State) (acc : State × Nat × Nat) (p : Nat × Nat) (h : Moves [] s acc.1) :
    Moves [] s (queueOne n acc p).1 := h.next (.queueNote _ _ _ _)

theorem Moves.deskMessage (s : State) (target : DeskTarget) (m : Nat) : Moves [] s (s.deskMessage target m).state := by
  unfold State.deskMessage
  split
  · exact .refl s
  · split
    · exact .refl s
    · exact foldl_invariant (fun acc : State × Nat × Nat => Moves [] s acc.1) _
        (fun acc p h => Moves.queueOne _ s acc p h) _ _ (.refl s)

theorem Moves.amendNow (s : State) (c v : Nat) :
    Moves [.channels, .roster, .flags, .notices] s (s.amendNow c v).state := by
  unfold State.amendNow
  split
  · exact .refl s
  · dsimp only
    split
    · exact .refl s
    · exact .amend s c _ _

theorem Moves.amendAtMinute (s : State) (c v : Nat) : Moves [.channels] s (s.amendAtMinute c v).state := by
  unfold State.amendAtMinute
  split
  · exact .refl s
  · dsimp only
    exact .onChan s c _

theorem Moves.channelOpen (s : State) (c : Nat) : Moves [.channels, .flags, .notices] s (s.channelOpen c).state := by
  unfold State.channelOpen
  split
  · exact .refl s
  · split
    · exact .refl s
    · split
      · exact .refl s
      · exact .enterPhase s c _

theorem Moves.channelClose (s : State) (c : Nat) :
    Moves [.channels, .roster, .flags, .notices] s (s.channelClose c).state := by
  unfold State.channelClose
  split
  · exact .refl s
  · split
    · exact .refl s
    · exact .closeChannel s c

theorem Moves.channelTeardown (s : State) (c : Nat) :
    Moves [.channels, .roster, .booklets, .seats, .flags, .notices] s (s.channelTeardown c).state := by
  unfold State.channelTeardown
  split
  · exact .refl s
  · split
    · exact .freeChannel s c
    · exact ((Moves.enterPhase s c _).widen).next (.testGate _ c)
    · exact .refl s

theorem Moves.reseat (s : State) (k i : Nat) : Moves [.seats, .roster] s (s.reseat k i).state := by
  unfold State.reseat
  split
  · exact .refl s
  · exact .moveTo s k i _
  · exact .refl s

theorem Moves.deskClear (s : State) (l a : Nat) : Moves [.presence] s (s.deskClear l a).state :=
  .unless _ (.onDeskAddr s l a _ fun _ => AddrState.lawful_become _ _)

theorem Moves.releaseResults (s : State) (upto : Nat) :
    Moves [.log, .channels, .roster, .booklets, .seats, .flags, .notices] s (s.releaseResults upto).state := by
  unfold State.releaseResults
  dsimp only
  exact ((Moves.onLog s _).widen).next (.testGates _)

theorem Intake.canon_abandon (t : Intake) : canon Slot.blank t.abandon.slots = true := rfl

theorem Moves.endSittings (s : State) :
    Moves [.seats, .roster, .channels, .booklets, .intake, .log] s s.endSittings := by
  refine .of_fields rfl (fun p hp hq => ?_) (fun hc => ?_) rfl rfl
  · cases p <;> simp_all [Part.same, State.endSittings]
  · simp only [State.canonical, Bool.and_eq_true] at hc ⊢
    have := Intake.canon_abandon s.intake
    have inner : innerCanonical (tabMap Channel.blank Channel.ended s.channels) s.lines = true := by
      have h := hc.2
      simp only [innerCanonical, Bool.and_eq_true] at h ⊢
      refine ⟨List.all_eq_true.mpr fun p hp => ?_, h.2⟩
      simp only [tabMap, List.mem_filter, List.mem_map] at hp
      obtain ⟨⟨q, _, rfl⟩, _⟩ := hp
      rfl
    simp_all [State.endSittings, canon_tabMap, mapRises]

theorem Moves.resetSittings (s : State) :
    Moves [.seats, .roster, .channels, .booklets, .intake, .log] s s.resetSittings.state := by
  unfold State.resetSittings State.done
  dsimp only
  exact (Moves.endSittings s).next (.fold _ Moves.blankLine _ _)

/-! ## The response queued and the frame counted -/

/-- A change of the office link that keeps the notices and the flags. -/
theorem Moves.onOffice {k : List Part} (s : State) (f : Office → Office) (h : ∀ p, p ∉ k → Part.same s (s.onOffice f) p)
    (hn : (f s.office).notices.length ≤ s.office.notices.length)
    (hf : ∀ c, c ∈ s.office.flags → c ∈ (f s.office).flags) : Moves k s (s.onOffice f) where
  frame := ⟨rfl, h⟩
  canonical := id
  lawful := id
  notices := fun g => Nat.le_trans hn g
  raised := hf

theorem Moves.countFrame (s : State) : Moves [.framesIn] s s.countFrame :=
  .onOffice s _ (fun p hp => Part.same_countFrame s p (by simpa using hp)) (Nat.le_refl _) fun _ => id

theorem Moves.respond (s : State) (r : Response) : Moves [.responses] s (s.respond r) :=
  .onOffice s _ (fun p hp => Part.same_respond s r p (by simpa using hp)) (Nat.le_refl _) fun _ => id

theorem Moves.discard (s : State) : Moves [.badFrames] s s.discard := by
  refine .onOffice s _ (fun p hp => ?_) (Nat.le_refl _) fun _ => id
  cases p <;> simp_all [Part.same, State.presence, State.onOffice, State.line, OfficeStats.bad]

/-- A request from its owner's work. -/
theorem Moves.takeRequest {k : List Part} (s : State) (tag kind : Byte) (f : State → Answer)
    (h : ∀ t, Moves k t (f t).state) :
    Moves (.responses :: .framesIn :: .badFrames :: k) s (s.takeRequest tag kind f) := by
  unfold State.takeRequest
  split
  · exact .refl s
  · dsimp only
    have c := (Moves.countFrame s).widen (k := .responses :: .framesIn :: .badFrames :: k) (by simp)
    split
    · exact c.next (.discard _) (by simp)
    · exact (c.next (h _) (by simp +contextual)).next (.respond _ _) (by simp)

/-- What a request that is taken leaves: its response at the tail of the queue and its frame counted, unless its owner
has changed these. -/
theorem Answered.request {s : State} (tag kind : Byte) (f : State → Answer) (h : s.takesRequest)
    (hr : (f s.countFrame).state.office.responses = s.office.responses)
    (hi : (f s.countFrame).state.office.stats.framesIn = s.countFrame.office.stats.framesIn) :
    Answered s (s.takeRequest tag kind f).settle tag kind (f s.countFrame).code (f s.countFrame).payload := by
  rw [State.takeRequest_taken s tag kind f h]
  constructor
  · simp [State.respond, State.onOffice, hr]
  · have e : s.countFrame.office.stats.framesIn = statUp s.office.stats.framesIn := rfl
    rw [State.settle_framesIn, ← e, ← hi]
    rfl

/-- An owner whose work leaves the responses and the link alone. -/
theorem Answered.of_moves {s : State} {k : List Part} (tag kind : Byte) (f : State → Answer) (h : s.takesRequest)
    (hm : Moves k s.countFrame (f s.countFrame).state) (h1 : .responses ∉ k := by decide)
    (h2 : .framesIn ∉ k := by decide) :
    Answered s (s.takeRequest tag kind f).settle tag kind (f s.countFrame).code (f s.countFrame).payload :=
  .request tag kind f h (hm.frame.2 .responses h1) (hm.frame.2 .framesIn h2)

/-! ## A request taken, in one step -/

/-- A request that is taken, once its owner's answer is known. -/
theorem State.takeRequest_eq {s u : State} {tag kind : Byte} {f : State → Answer} {code : Code} {out : List Byte}
    (h : s.takesRequest) (hf : f s.countFrame = ⟨code, out, u⟩) :
    s.takeRequest tag kind f = u.respond ⟨tag, kind, code, out⟩ := by
  rw [State.takeRequest_taken s tag kind f h, hf]

theorem Answered.taken {s u : State} {k : List Part} (hm : Moves k s.countFrame u) (tag kind : Byte) (code : Code)
    (out : List Byte) (h1 : .responses ∉ k := by decide) (h2 : .framesIn ∉ k := by decide) :
    Answered s (u.respond ⟨tag, kind, code, out⟩).settle tag kind code out := by
  constructor
  · rw [State.settle_responses]
    have : u.office.responses = s.office.responses := hm.frame.2 .responses h1
    simp [State.respond, State.onOffice, this]
  · rw [State.settle_framesIn]
    exact hm.frame.2 .framesIn h2

theorem Unchanged.taken {s u : State} {k : List Part} (hm : Moves k s.countFrame u) (r : Response) :
    Unchanged (.responses :: .framesIn :: k) s (u.respond r).settle := by
  refine Unchanged.settle ⟨hm.frame.1, fun p hp => ?_⟩
  simp only [List.mem_cons, not_or] at hp
  exact Part.same_trans (Part.same_countFrame s p hp.2.1)
    (Part.same_trans (hm.frame.2 p hp.2.2) (Part.same_respond _ _ p hp.1))

section

variable (s : State) (r : Response)

@[simp] theorem State.respond_time : (s.respond r).time = s.time := rfl
@[simp] theorem State.respond_signals : (s.respond r).signals = s.signals := rfl
@[simp] theorem State.respond_hall : (s.respond r).hall = s.hall := rfl
@[simp] theorem State.respond_seats : (s.respond r).seats = s.seats := rfl
@[simp] theorem State.respond_classes : (s.respond r).classes = s.classes := rfl
@[simp] theorem State.respond_roster : (s.respond r).roster = s.roster := rfl
@[simp] theorem State.respond_channels : (s.respond r).channels = s.channels := rfl
@[simp] theorem State.respond_booklets : (s.respond r).booklets = s.booklets := rfl
@[simp] theorem State.respond_bookletStats : (s.respond r).bookletStats = s.bookletStats := rfl
@[simp] theorem State.respond_forms : (s.respond r).forms = s.forms := rfl
@[simp] theorem State.respond_profiles : (s.respond r).profiles = s.profiles := rfl
@[simp] theorem State.respond_messages : (s.respond r).messages = s.messages := rfl
@[simp] theorem State.respond_stations : (s.respond r).stations = s.stations := rfl
@[simp] theorem State.respond_lines : (s.respond r).lines = s.lines := rfl
@[simp] theorem State.respond_intake : (s.respond r).intake = s.intake := rfl
@[simp] theorem State.respond_log : (s.respond r).log = s.log := rfl
@[simp] theorem State.respond_flags : (s.respond r).office.flags = s.office.flags := rfl
@[simp] theorem State.respond_stats : (s.respond r).office.stats = s.office.stats := rfl
@[simp] theorem State.respond_resetPending : (s.respond r).office.resetPending = s.office.resetPending := rfl
@[simp] theorem State.respond_responses :
    (s.respond r).office.responses = s.office.responses ++ [r] := rfl
@[simp] theorem State.seat_respond (i : Nat) : (s.respond r).seat i = s.seat i := rfl
@[simp] theorem State.entry_respond (k : Nat) : (s.respond r).entry k = s.entry k := rfl
@[simp] theorem State.chan_respond (c : Nat) : (s.respond r).chan c = s.chan c := rfl
@[simp] theorem State.line_respond (l : Nat) : (s.respond r).line l = s.line l := rfl
@[simp] theorem State.presence_respond (l a : Nat) : (s.respond r).presence l a = s.presence l a := rfl
@[simp] theorem State.countFrame_time : s.countFrame.time = s.time := rfl
@[simp] theorem State.countFrame_hall : s.countFrame.hall = s.hall := rfl
@[simp] theorem State.countFrame_seats : s.countFrame.seats = s.seats := rfl
@[simp] theorem State.countFrame_roster : s.countFrame.roster = s.roster := rfl
@[simp] theorem State.countFrame_channels : s.countFrame.channels = s.channels := rfl
@[simp] theorem State.countFrame_booklets : s.countFrame.booklets = s.booklets := rfl
@[simp] theorem State.countFrame_intake : s.countFrame.intake = s.intake := rfl
@[simp] theorem State.countFrame_log : s.countFrame.log = s.log := rfl
@[simp] theorem State.countFrame_flags : s.countFrame.office.flags = s.office.flags := rfl
@[simp] theorem State.seat_countFrame (i : Nat) : s.countFrame.seat i = s.seat i := rfl
@[simp] theorem State.entry_countFrame (k : Nat) : s.countFrame.entry k = s.entry k := rfl
@[simp] theorem State.chan_countFrame (c : Nat) : s.countFrame.chan c = s.chan c := rfl
@[simp] theorem State.line_countFrame (l : Nat) : s.countFrame.line l = s.line l := rfl
@[simp] theorem State.form_countFrame (n : Nat) : s.countFrame.form n = s.form n := rfl
@[simp] theorem State.profile_countFrame (n : Nat) : s.countFrame.profile n = s.profile n := rfl
@[simp] theorem State.presence_countFrame (l a : Nat) : s.countFrame.presence l a = s.presence l a := rfl

end

end Sys2Proof.Machine
end

