-- ==== Sys2Proof/Laws/Channels.lean ====
section
/-! SUPPORT. What the operations of one channel leave of the others, and of its own clocks. -/

namespace Sys2Proof.Machine

set_option Elab.async false

/-! ## Folds over numbers -/

/-- A fold over distinct numbers in which one of them does what is wanted, and the others neither hinder it before nor
undo it after. -/
theorem foldl_split {β α : Type} (f : β → α → β) (c : α) (K Q : β → Prop)
    (hK : ∀ t d, d ≠ c → K t → K (f t d)) (hc : ∀ t, K t → Q (f t c)) (hQ : ∀ t d, d ≠ c → Q t → Q (f t d))
    (xs : List α) (nd : xs.Nodup) (hx : c ∈ xs) (s : β) (hs : K s) : Q (xs.foldl f s) := by
  induction xs generalizing s with
  | nil => simp at hx
  | cons x xs ih =>
    rw [List.foldl_cons]
    rw [List.nodup_cons] at nd
    rcases List.mem_cons.1 hx with rfl | hx
    · have : ∀ ys : List α, c ∉ ys → ∀ t, Q t → Q (ys.foldl f t) := by
        intro ys
        induction ys with
        | nil => intro _ t h; exact h
        | cons y ys ihy =>
          intro hy t h
          rw [List.mem_cons, not_or] at hy
          exact ihy hy.2 _ (hQ t y (fun e => hy.1 e.symm) h)
      exact this xs nd.1 _ (hc s hs)
    · have : x ≠ c := fun e => nd.1 (e ▸ hx)
      exact ih nd.2 hx _ (hK s x this hs)

theorem channelNumbers_nodup : channelNumbers.Nodup := List.nodup_range

@[simp] theorem mem_channelNumbers (c : Nat) : c ∈ channelNumbers ↔ c < 16 := by simp [channelNumbers]

/-! ## One channel's operations -/

/-- The fields of a channel that only its clock, its load and its key commits write. -/
def Channel.clocks (c : Channel) : Channel :=
  { c with state := .free, length := 0, closed := false, spent := false, hold := false, amendment := none }

/-- From `s` to `t` no channel but `c` has changed, and no entry its channel. -/
structure OneChannel (c : Nat) (s t : State) : Prop where
  others : ∀ d, d ≠ c → t.chan d = s.chan d
  owners : ∀ k, (t.entry k).map Entry.channel = (s.entry k).map Entry.channel

/-- Moreover channel `c` keeps its configuration, clocks, banks and histogram. -/
structure OnePhase (c : Nat) (s t : State) : Prop extends OneChannel c s t where
  clocks : (t.chan c).clocks = (s.chan c).clocks

theorem OneChannel.refl {c : Nat} (s : State) : OneChannel c s s := ⟨fun _ _ => rfl, fun _ => rfl⟩

theorem OneChannel.next {c : Nat} {s t u : State} (h : OneChannel c s t) (g : OneChannel c t u) : OneChannel c s u :=
  ⟨fun d hd => (g.others d hd).trans (h.others d hd), fun k => (g.owners k).trans (h.owners k)⟩

theorem OnePhase.refl {c : Nat} (s : State) : OnePhase c s s := ⟨.refl s, rfl⟩

theorem OnePhase.next {c : Nat} {s t u : State} (h : OnePhase c s t) (g : OnePhase c t u) : OnePhase c s u :=
  ⟨h.toOneChannel.next g.toOneChannel, g.clocks.trans h.clocks⟩

theorem OnePhase.ite {c : Nat} {s t u : State} {p : Prop} [Decidable p] (h : p → OnePhase c s t)
    (g : ¬p → OnePhase c s u) : OnePhase c s (if p then t else u) := by
  by_cases x : p
  · simpa [x] using h x
  · simpa [x] using g x

theorem OneChannel.ite {c : Nat} {s t u : State} {p : Prop} [Decidable p] (h : p → OneChannel c s t)
    (g : ¬p → OneChannel c s u) : OneChannel c s (if p then t else u) := by
  by_cases x : p
  · simpa [x] using h x
  · simpa [x] using g x

/-- A move that touches neither channels nor entries. -/
theorem OnePhase.of_moves {c : Nat} {k : List Part} {s t : State} (h : Moves k s t)
    (h1 : Part.channels ∉ k := by decide) (h2 : Part.roster ∉ k := by decide) : OnePhase c s t := by
  have e1 : t.channels = s.channels := h.frame.2 .channels h1
  have e2 : t.roster = s.roster := h.frame.2 .roster h2
  have e3 : ∀ d, t.chan d = s.chan d := fun d => by simp [State.chan, e1]
  exact ⟨⟨fun d _ => e3 d, fun k => by simp [State.entry, e2]⟩, by rw [e3]⟩

theorem OneChannel.onChan (s : State) (c : Nat) (f : Channel → Channel) : OneChannel c s (s.onChan c f) :=
  ⟨fun d hd => by simp [Ne.symm hd], fun _ => rfl⟩

theorem OnePhase.onChan (s : State) (c : Nat) (f : Channel → Channel)
    (h : (f (s.chan c)).clocks = (s.chan c).clocks) : OnePhase c s (s.onChan c f) :=
  ⟨.onChan s c f, by simpa using h⟩

theorem OnePhase.onEntry {c : Nat} (s : State) (k : Nat) (f : Entry → Entry) (h : ∀ e, (f e).channel = e.channel) :
    OnePhase c s (s.onEntry k f) := by
  refine ⟨⟨fun d _ => by simp, fun j => ?_⟩, by simp⟩
  rw [State.entry_onEntry]
  split
  · rename_i e; subst e
    cases s.entry k <;> simp [h]
  · rfl

theorem OnePhase.putEntry {c : Nat} (s : State) (k : Nat) (e e' : Entry) (h : s.entry k = some e)
    (h' : e'.channel = e.channel) : OnePhase c s (s.putEntry k e') := by
  refine ⟨⟨fun d _ => rfl, fun j => ?_⟩, rfl⟩
  rw [State.entry_putEntry]
  split
  · rename_i x; subst x; simp [h, h']
  · rfl

theorem OnePhase.fold {c : Nat} {α : Type} (f : State → α → State) (h : ∀ t a, OnePhase c t (f t a)) (xs : List α)
    (s : State) : OnePhase c s (xs.foldl f s) :=
  foldl_invariant (fun t => OnePhase c s t) f (fun t a m => m.next (h t a)) xs s (.refl s)

theorem OnePhase.notify {c : Nat} (s : State) (x : Subject) : OnePhase c s (s.notify x) := .of_moves (Moves.notify s x)

theorem OnePhase.enterPhase (s : State) (c : Nat) (x : ChanState) : OnePhase c s (s.enterPhase c x) :=
  (OnePhase.onChan s c _ rfl).next (.notify _ _)

theorem OnePhase.reconcile (s : State) (c : Nat) : OnePhase c s (s.reconcile c) :=
  .ite (fun _ => .enterPhase s c _) fun _ => .refl s

theorem OnePhase.enterCollecting (s : State) (c : Nat) : OnePhase c s (s.enterCollecting c) :=
  (OnePhase.enterPhase s c _).next (.reconcile _ c)

theorem OnePhase.overtimeTest (s : State) (c : Nat) : OnePhase c s (s.overtimeTest c) :=
  .ite (fun _ => .enterCollecting s c) fun _ => .refl s

/-- The channel of a slot whose channel is known to be `c`, if it is in use. -/
def OwnedBy (s : State) (c k : Nat) : Prop := ∀ e, s.entry k = some e → e.channel = c

theorem OneChannel.owned {c : Nat} {s t : State} (h : OneChannel c s t) {k d : Nat} (o : OwnedBy s d k) :
    OwnedBy t d k := by
  intro e he
  have := h.owners k
  rw [he] at this
  cases hs : s.entry k with
  | none => rw [hs] at this; simp at this
  | some e' => rw [hs] at this; simp only [Option.map_some, Option.some.injEq] at this; rw [this]; exact o e' hs

theorem OnePhase.collectTest (s : State) (k c : Nat) (o : OwnedBy s c k) : OnePhase c s (s.collectTest k) := by
  unfold State.collectTest
  split
  · rename_i e he
    have : e.channel = c := o e he
    rw [this]
    exact .ite (fun _ => (OnePhase.onEntry s k _ (by intro _; rfl)).next (.reconcile _ c)) fun _ => .refl s
  · exact .refl s

theorem OnePhase.depart (s : State) (k c : Nat) (w : ClosingWord) (o : OwnedBy s c k) :
    OnePhase c s (s.depart k w) := by
  unfold State.depart
  split
  · exact .refl s
  · rename_i e he
    have hc : e.channel = c := o e he
    dsimp only
    rw [hc]
    have key : ∀ t, OnePhase c s t → OnePhase c s ((t.collectTest k).overtimeTest c) := fun t h =>
      (h.next (.collectTest t k c (h.owned o))).next (.overtimeTest _ c)
    refine key _ ?_
    have h1 := fun (f : Entry → Entry) (hf : ∀ e, (f e).channel = e.channel) =>
      (OnePhase.onEntry (c := c) s k f hf).next (.of_moves (Moves.dropWarning _ k))
    split
    · exact .ite (fun _ => ((h1 _ (by intro _; rfl)).next (.of_moves (Moves.clearSeat _ _ w))).next
        (.of_moves (Moves.setMark _ _))) fun _ => (h1 _ (by intro _; rfl)).next (.of_moves (Moves.clearSeat _ _ w))
    · exact h1 _ (by intro _; rfl)

theorem OnePhase.exhaust {c : Nat} (s : State) (k : Nat) : OnePhase c s (s.exhaust k) := by
  unfold State.exhaust
  split
  · exact .refl s
  · exact ((OnePhase.onEntry s k _ (by intro _; rfl)).next (.notify _ _)).next (.of_moves (Moves.markEntry _ k))

theorem Entry.count_channel (e : Entry) : e.count.channel = e.channel := by unfold Entry.count; split <;> rfl

theorem OnePhase.countEntry (s : State) (k c : Nat) (o : OwnedBy s c k) : OnePhase c s (s.countEntry k) := by
  unfold State.countEntry
  split
  · exact .refl s
  · rename_i e he
    have h : OnePhase c s (s.putEntry k e.count) := .putEntry s k e _ he (Entry.count_channel e)
    split
    · dsimp only
      exact .ite (fun _ => .ite (fun _ => h.next (.exhaust _ k)) fun _ => h) fun _ =>
        .ite (fun _ => h.next (.depart _ k c _ (h.owned o))) fun _ => h.next (.of_moves (Moves.warnTest _ k))
    · exact .refl s

theorem State.owned_slotsIn {s : State} (hr : mapRises 0 s.roster = true) {c k : Nat} {p : EntryState → Bool}
    (h : k ∈ s.slotsIn c p) : OwnedBy s c k := by
  intro e he
  simp only [State.slotsIn, List.mem_filterMap] at h
  obtain ⟨q, hq, h⟩ := h
  split at h
  · rename_i hc
    simp only [Option.some.injEq] at h
    subst h
    have := mapGet_of_mem hr hq
    unfold State.entry at he
    rw [this] at he
    simp only [Option.some.injEq] at he
    rw [← he]; exact hc.1
  · simp at h

theorem OnePhase.countChannel (s : State) (c : Nat) (hr : mapRises 0 s.roster = true) :
    OnePhase c s (s.countChannel c) := by
  have : ∀ xs : List Nat, (∀ k ∈ xs, OwnedBy s c k) → ∀ t, OnePhase c s t → OnePhase c s (xs.foldl State.countEntry t) := by
    intro xs
    induction xs with
    | nil => intro _ t h; exact h
    | cons k xs ih =>
      intro ho t h
      exact ih (fun j hj => ho j (List.mem_cons_of_mem _ hj)) _
        (h.next (.countEntry t k c (h.owned (ho k List.mem_cons_self))))
  exact this _ (fun k hk => State.owned_slotsIn hr hk) s (.refl s)

theorem OnePhase.startWriters {c : Nat} (s : State) (d : Nat) : OnePhase c s (s.startWriters d) :=
  .fold _ (fun t k => ((OnePhase.onEntry t k _ (by intro _; rfl)).next (.of_moves (Moves.dropWarning _ k))).next
    (.of_moves (Moves.markEntry _ k))) _ s

theorem OnePhase.recomputeAll {c : Nat} (s : State) (d w : Nat) : OnePhase c s (s.recomputeAll d w) :=
  .fold _ (fun t k => .ite (fun _ => ((OnePhase.onEntry t k _ (by intro _; rfl)).next (.of_moves (Moves.markEntry _ k))).next
    (.of_moves (Moves.warnTest _ k))) fun _ => .onEntry t k _ (by intro _; rfl)) _ s

theorem OnePhase.amend (s : State) (c v e : Nat) : OnePhase c s (s.amend c v e) :=
  ((OnePhase.onChan s c _ rfl).next (.recomputeAll _ c _)).next (.notify _ _)

theorem OnePhase.dropAmendment (s : State) (c : Nat) : OnePhase c s (s.dropAmendment c) := by
  unfold State.dropAmendment
  split
  · exact (OnePhase.onChan s c _ rfl).next (.notify _ _)
  · exact .refl s

theorem OnePhase.applyPending (s : State) (c : Nat) : OnePhase c s (s.applyPending c) := by
  unfold State.applyPending
  split
  · exact .ite (fun _ => .dropAmendment s c) fun _ => .amend s c _ _
  · exact .refl s

theorem OnePhase.shutOut {c : Nat} (s : State) (k : Nat) : OnePhase c s (s.shutOut k) := by
  unfold State.shutOut
  split
  · exact .refl s
  · dsimp only
    split
    · exact (OnePhase.ite (fun _ => .of_moves (Moves.releaseHold s _)) fun _ => .refl s).next
        (.onEntry _ k _ (by intro _; rfl))
    · exact .onEntry s k _ (by intro _; rfl)

theorem OnePhase.closeAdmission (s : State) (c : Nat) : OnePhase c s (s.closeAdmission c) :=
  ((OnePhase.onChan s c _ rfl).next (.fold _ OnePhase.shutOut _ _)).next (.notify _ _)

theorem OnePhase.closeOnce (s : State) (c : Nat) : OnePhase c s (s.closeOnce c) :=
  .ite (fun _ => .refl s) fun _ => .closeAdmission s c

theorem OnePhase.endBase (s : State) (c : Nat) : OnePhase c s (s.endBase c) := by
  unfold State.endBase
  have h := (OnePhase.closeOnce s c).next (.dropAmendment _ c)
  exact .ite (fun _ => h.next (.enterPhase _ c _)) fun _ => h.next (.enterCollecting _ c)

theorem OnePhase.secondBase (s : State) (c : Nat) : OnePhase c s (s.secondBase c) :=
  .ite (fun _ => .endBase s c) fun _ => .refl s

/-- A writing second after its count. -/
theorem OnePhase.afterCount (s : State) (c : Nat) (hr : s.canonical = true) :
    OnePhase c s ((((s.secondAmendment c).countChannel c).secondClose c).secondBase c) := by
  have h1 : OnePhase c s (s.secondAmendment c) := .ite (fun _ => .applyPending s c) fun _ => .refl s
  have m1 : Moves [.channels, .roster, .flags, .notices] s (s.secondAmendment c) :=
    .ite (fun _ => .applyPending s c) fun _ => .refl s
  have hc := m1.canonical hr
  simp only [State.canonical, Bool.and_eq_true] at hc
  have h2 : ∀ t : State, OnePhase c t (t.secondClose c) := fun t => .ite (fun _ => .closeOnce t c) fun _ => .refl t
  exact ((h1.next (.countChannel _ c (by tauto))).next (h2 _)).next (.secondBase _ c)

theorem OneChannel.startWriting (s : State) (c : Nat) : OneChannel c s (s.startWriting c) :=
  (((OneChannel.onChan s c _).next (OnePhase.startWriters _ c).toOneChannel).next
    (OnePhase.applyPending _ c).toOneChannel).next (OnePhase.notify _ _).toOneChannel

theorem OneChannel.startChannel (s : State) (c : Nat) : OneChannel c s (s.startChannel c) :=
  .ite (fun _ => ((OneChannel.onChan s c _).next (OnePhase.enterPhase _ c _).toOneChannel).next
    (OnePhase.of_moves (Moves.markEntries _ c _)).toOneChannel) fun _ => .startWriting s c

theorem OneChannel.readingSecond (s : State) (c : Nat) : OneChannel c s (s.readingSecond c) := by
  unfold State.readingSecond
  have h := fun f => (OneChannel.onChan s c f).next (OnePhase.of_moves (Moves.readingMarks _ c)).toOneChannel
  exact .ite (fun _ => (h _).next (.startWriting _ c)) fun _ => h _

theorem OneChannel.tickChannel (s : State) (c : Nat) (hr : s.canonical = true) : OneChannel c s (s.tickChannel c) := by
  have attempt : OneChannel c s (s.timedAttempt c) := by
    unfold State.timedAttempt
    split
    · exact (OnePhase.enterPhase s c _).toOneChannel
    · exact (OneChannel.onChan s c _).next (OnePhase.notify _ _).toOneChannel
  have second : OneChannel c s (s.writingSecond c) :=
    (OneChannel.onChan s c _).next (OnePhase.afterCount _ c ((Moves.onChan s c _).canonical hr)).toOneChannel
  unfold State.tickChannel
  split
  · exact .ite (fun _ => attempt) fun _ => .refl s
  · exact .ite (fun _ => .startChannel s c) fun _ => .refl s
  · exact .ite (fun _ => .onChan s c _) fun _ => .readingSecond s c
  · exact .ite (fun _ => .onChan s c _) fun _ => second
  · exact .ite (fun _ => .onChan s c _) fun _ => second
  · exact .refl s

end Sys2Proof.Machine
end

