-- ==== Sys2Proof/Laws/Payloads.lean ====
section
/-! SUPPORT. The bytes that leave the part, said once by the tables of chapters 4, 11 and 12: notices, status, counters,
result records and the content of CLOCK frames. -/

namespace Sys2Proof.Machine

set_option Elab.async false

theorem flatMap_b1 (l : List Nat) : l.flatMap b1 = l.map (BitVec.ofNat 8) := by
  induction l with
  | nil => rfl
  | cons a l ih => simp_all [b1, be]

/-- A list cut or filled up to sixteen places. -/
theorem take_padded (l : List Nat) :
    (l.flatMap b1 ++ List.replicate 16 0#8).take 16 = (l.take 16).flatMap b1 ++ List.replicate (16 - l.length) 0#8 := by
  rw [flatMap_b1, flatMap_b1, List.take_append, List.map_take, List.take_replicate, List.length_map]
  congr 2
  omega

theorem bitsOf_four (a b c d : Bool) :
    bitsOf [a, b, c, d] =
      (if a then 1 else 0) + (if b then 2 else 0) + (if c then 4 else 0) + (if d then 8 else 0) := by
  revert a b c d; decide

theorem bitsOf_five (a b c d e : Bool) :
    bitsOf [a, b, c, d, e] = (if a then 1 else 0) + (if b then 2 else 0) + (if c then 4 else 0) + (if d then 8 else 0) +
      (if e then 16 else 0) := by
  revert a b c d e; decide

theorem ResultRecord.bytes_eq (r : ResultRecord) : r.bytes = recordPayload r := by
  unfold ResultRecord.bytes recordPayload
  rw [bitsOf_four, bitsOf_five]
  cases r.score with
  | none => rfl
  | some x =>
    simp only [Option.any_some, Option.map_some, Option.getD_some, Score.bytes, take_padded, List.append_assoc]

theorem Subject.bytes_eq (x : Subject) : b1 x.category.code ++ x.fields = noticeBody x := by
  have b1_byte (v : Nat) : b1 v = [BitVec.ofNat 8 v] := by simp [b1, be]
  cases x
  case hallHoldChange h c => cases h <;> cases c <;> rfl
  case overrun m n => cases m <;> simp [Subject.category, Category.code, Subject.fields, noticeBody, b1_byte]
  all_goals simp [Subject.category, Category.code, Subject.fields, noticeBody, b1_byte]

theorem State.statusBytes_eq (s : State) : s.statusBytes = statusPayload s := by
  have hc : s.committingChannels = (List.range 16).filter fun c => decide ((s.chan c).stage ≠ .idle) := rfl
  unfold State.statusBytes statusPayload TimeBase.cause bList
  rw [show s.intake.busy = ([0, 1, 2, 3].filter fun n => decide ((s.intake.slot n).state ≠ .empty)).length from rfl,
    show lineNumbers = [0, 1, 2, 3, 4, 5, 6] from rfl, hc]
  congr 8
  · cases s.office.ready <;> rfl
  · cases s.time.holdPin <;> cases s.time.officeHold <;> rfl
  · cases s.time.refState <;> rfl

theorem State.groupBytes_eq (s : State) (g : Nat) : s.countFrame.groupBytes g = countersAnswered s g := by
  unfold State.groupBytes countersAnswered
  split <;>
    simp [State.countFrame, State.onOffice, SheetStats.bytes, BookletStats.bytes, OfficeStats.bytes, LineStats.bytes,
      State.line]

theorem State.clockContent_follows (s : State) (i : Nat) : ClockFollowsSeat s i := by
  unfold ClockFollowsSeat State.clockContent
  cases h : (s.seat i).occ with
  | free => exact rfl
  | held k n => intro x _ e he; simp [x, ClockContent.plain, he]
  | clearing n => cases (s.seat i).closing <;> exact rfl
  | occupied k =>
    intro x _ e he
    simp only [x, ClockTells, he, Channel.clockFields, TimeBase.held]
    refine ⟨trivial, trivial, trivial, trivial, ?_, ?_, ?_, ?_⟩
    · intro h3 h4; simp [h3, h4]
    · intro h3 h4; simp [h3, h4]
    · intro h3; simp [h3]
    · intro h3
      simp only [h3, if_true, and_true, Option.some.injEq, true_and]
      congr 1
      split <;> split <;> first | rfl | omega

end Sys2Proof.Machine
end

