-- ==== Sys2Proof/Laws/Queue.lean ====
section
/-! SUPPORT. The waiting commands: nothing that follows at once from an event reads or changes them. -/

namespace Sys2Proof.Machine

set_option Elab.async false

/-- The state with other commands waiting. -/
def State.waiting (s : State) (p : List Instr) : State := { s with pending := p }

theorem State.onLine_waiting (s : State) (p : List Instr) (l : Nat) (f : Line → Line) :
    (s.waiting p).onLine l f = (s.onLine l f).waiting p := rfl

theorem State.onStats_waiting (s : State) (p : List Instr) (l : Nat) (f : LineStats → LineStats) :
    (s.waiting p).onStats l f = (s.onStats l f).waiting p := rfl

theorem State.send_waiting (s : State) (p : List Instr) (l : Nat) (x : Exchange) :
    (s.waiting p).send l x = (s.send l x).waiting p := rfl

theorem State.setMark_waiting (s : State) (p : List Instr) (i : Nat) :
    (s.waiting p).setMark i = (s.setMark i).waiting p := rfl

theorem State.notify_waiting (s : State) (p : List Instr) (x : Subject) :
    (s.waiting p).notify x = (s.notify x).waiting p := rfl

theorem State.sendPoll_waiting (s : State) (p : List Instr) (l a : Nat) :
    (s.waiting p).sendPoll l a = (s.sendPoll l a).waiting p := rfl

theorem State.sendDiscovery_waiting (s : State) (p : List Instr) (l a : Nat) :
    (s.waiting p).sendDiscovery l a = (s.sendDiscovery l a).waiting p := rfl

theorem State.restartInterval_waiting (s : State) (p : List Instr) (l : Nat) :
    (s.waiting p).restartInterval l = (s.restartInterval l).waiting p := rfl

theorem State.spendWarning_waiting (s : State) (p : List Instr) (i : Nat) :
    (s.waiting p).spendWarning i = (s.spendWarning i).waiting p := by
  unfold State.spendWarning
  change (match (s.seat i).occ with
    | .occupied k => (s.waiting p).dropWarning k
    | _ => s.waiting p) = _
  generalize (s.seat i).occ = x
  cases x <;> rfl

theorem State.sendClock_waiting (s : State) (p : List Instr) (l a : Nat) :
    (s.waiting p).sendClock l a = (s.sendClock l a).waiting p := by
  unfold State.sendClock
  rw [State.spendWarning_waiting]
  rfl

theorem State.pollStep_waiting (s : State) (p : List Instr) (l : Nat) :
    (s.waiting p).pollStep l = (s.pollStep l).waiting p := by
  unfold State.pollStep
  dsimp only
  change (match (s.line l).mostOwed ((s.presentAddrs l).filter fun a => decide (0 < ((s.line l).addr a).owed)) with
    | some a => (s.waiting p).sendPoll l a
    | none =>
      match (s.configuredAddrs l).find? fun a => ((s.line l).addr a).due with
      | some a => (s.waiting p).sendDiscovery l a
      | none =>
        match (s.line l).leastOwed ((s.presentAddrs l).filter fun a => decide (-8 < ((s.line l).addr a).owed)) with
        | some a => (s.waiting p).sendPoll l a
        | none => s.waiting p) = _
  generalize (s.line l).mostOwed ((s.presentAddrs l).filter fun a => decide (0 < ((s.line l).addr a).owed)) = x
  generalize ((s.configuredAddrs l).find? fun a => ((s.line l).addr a).due) = y
  generalize (s.line l).leastOwed ((s.presentAddrs l).filter fun a => decide (-8 < ((s.line l).addr a).owed)) = z
  cases x
  · cases y
    · cases z <;> rfl
    · rfl
  · rfl

theorem State.noteStep_waiting (s : State) (p : List Instr) (l : Nat) :
    (s.waiting p).noteStep l = (s.noteStep l).waiting p := by
  unfold State.noteStep
  change (match (s.line l).fifo.dropWhile fun n => !s.noteGoes l n with
    | n :: rest =>
      (((s.waiting p).onLine l fun m => { m with fifo := rest }).onStats l LineStats.note).send l n.exchange
    | [] => ((s.waiting p).onLine l fun m => { m with fifo := [] }).pollStep l) = _
  generalize ((s.line l).fifo.dropWhile fun n => !s.noteGoes l n) = x
  cases x
  · dsimp only
    exact State.pollStep_waiting (s.onLine l fun m => { m with fifo := [] }) p l
  · rfl

theorem State.arbitrate_waiting (s : State) (p : List Instr) (l : Nat) :
    (s.waiting p).arbitrate l = (s.arbitrate l).waiting p := by
  unfold State.arbitrate
  change (match (s.presentAddrs l).find? fun a => decide (((s.line l).addr a).owed = 9) with
    | some a => (s.waiting p).sendPoll l a
    | none =>
      match s.markServed l with
      | some a => (s.waiting p).sendClock l a
      | none => (s.waiting p).noteStep l) = _
  generalize ((s.presentAddrs l).find? fun a => decide (((s.line l).addr a).owed = 9)) = x
  generalize s.markServed l = y
  cases x
  · cases y
    · exact State.noteStep_waiting s p l
    · exact State.sendClock_waiting s p l _
  · rfl

theorem State.fold_waiting {α : Type} (f : State → α → State) (p : List Instr)
    (h : ∀ s a, f (s.waiting p) a = (f s a).waiting p) (xs : List α) (s : State) :
    xs.foldl f (s.waiting p) = (xs.foldl f s).waiting p := by
  induction xs generalizing s with
  | nil => rfl
  | cons x xs ih => rw [List.foldl_cons, h, ih, List.foldl_cons]

theorem State.endSweep_waiting (s : State) (p : List Instr) (l : Nat) :
    (s.waiting p).endSweep l = (s.endSweep l).waiting p := by
  unfold State.endSweep
  dsimp only
  rw [State.onLine_waiting, State.restartInterval_waiting]
  by_cases h : (s.line l).resetSweep = true
  · have h' : ((s.waiting p).line l).resetSweep = true := h
    rw [if_pos h, if_pos h', State.onLine_waiting]
    exact State.fold_waiting State.setMark p (fun s i => State.setMark_waiting s p i) _ _
  · have h' : ¬ ((s.waiting p).line l).resetSweep = true := h
    rw [if_neg h, if_neg h']

theorem State.sweepStep_waiting (s : State) (p : List Instr) (l : Nat) :
    (s.waiting p).sweepStep l = (s.sweepStep l).waiting p := by
  unfold State.sweepStep
  change (match (s.configuredAddrs l).find? fun a =>
      decide ((s.line l).cursor ≤ a) && decide (s.presence l a ≠ .faulty) with
    | some a =>
      (((s.waiting p).onLine l fun n => { n with cursor := a + 1 }).onStats l LineStats.poll).send l
        ⟨a, .discover true⟩
    | none => ((s.waiting p).endSweep l).arbitrate l) = _
  generalize ((s.configuredAddrs l).find? fun a =>
    decide ((s.line l).cursor ≤ a) && decide (s.presence l a ≠ .faulty)) = x
  cases x
  · dsimp only
    rw [State.endSweep_waiting, State.arbitrate_waiting]
  · rfl

theorem State.testStep_waiting (s : State) (p : List Instr) (l : Nat) :
    (s.waiting p).testStep l = (s.testStep l).waiting p := by
  unfold State.testStep
  change (match (s.configuredAddrs l).find? fun a => decide ((s.line l).cursor ≤ a) with
    | some a =>
      ((s.waiting p).onLine l fun n => { n with test := (s.line l).test.begin a, cursor := a }).send l
        ⟨a, .test ((s.line l).test.begin a).pattern⟩
    | none => ((s.waiting p).endTest l).arbitrate l) = _
  generalize ((s.configuredAddrs l).find? fun a => decide ((s.line l).cursor ≤ a)) = x
  cases x
  · have e : (s.waiting p).endTest l = (s.endTest l).waiting p := rfl
    dsimp only
    rw [e, State.arbitrate_waiting]
  · rfl

theorem State.quietStep_waiting (s : State) (p : List Instr) (l : Nat) :
    (s.waiting p).quietStep l = (s.quietStep l).waiting p := by
  unfold State.quietStep
  by_cases h : (s.line l).blankDue = true
  · have h' : ((s.waiting p).line l).blankDue = true := h
    rw [if_pos h, if_pos h']; rfl
  · have h' : ¬ ((s.waiting p).line l).blankDue = true := h
    rw [if_neg h, if_neg h']

theorem State.runLine_waiting (s : State) (p : List Instr) (l : Nat) :
    (s.waiting p).runLine l = (s.runLine l).waiting p := by
  unfold State.runLine
  change (if (s.line l).exchange.isSome = true then s.waiting p else
    match (s.line l).state with
    | .active => (s.waiting p).arbitrate l
    | .quiet => (s.waiting p).quietStep l
    | .waking => (s.waiting p).sweepStep l
    | .testing => (s.waiting p).testStep l) = _
  by_cases h : (s.line l).exchange.isSome = true
  · rw [if_pos h, if_pos h]
  · rw [if_neg h, if_neg h]
    generalize (s.line l).state = x
    cases x
    · exact State.arbitrate_waiting s p l
    · exact State.quietStep_waiting s p l
    · exact State.sweepStep_waiting s p l
    · exact State.testStep_waiting s p l

/-- What follows at once is the same whatever commands wait. -/
theorem State.settle_waiting (s : State) (p : List Instr) : (s.waiting p).settle = s.settle.waiting p := by
  have h : (s.waiting p).runLines = s.runLines.waiting p :=
    State.fold_waiting State.runLine p (fun s l => State.runLine_waiting s p l) _ s
  have g : ∀ r : State, ((((r.waiting p).becomeReady.onOffice Office.startTx).onIntake Intake.startTx).driveReady) =
      (((r.becomeReady.onOffice Office.startTx).onIntake Intake.startTx).driveReady).waiting p := fun _ => rfl
  unfold State.settle
  rw [h, g]

theorem State.atPowerOn_settle : State.atPowerOn.settle = State.reset := by decide

/-- The part at power-on, once what follows at once has followed. -/
theorem State.powerUp_settle (s : State) : s.powerUp.settle = { State.reset with pending := s.pending } := by
  have e : s.powerUp = State.atPowerOn.waiting s.pending := rfl
  have h : State.atPowerOn.settle.waiting s.pending = State.reset.waiting s.pending := by rw [State.atPowerOn_settle]
  exact (congrArg State.settle e).trans ((State.settle_waiting _ _).trans h)

end Sys2Proof.Machine
end

