-- ==== Sys2Proof/Tests/Slice0.lean ====
section
/-! SUPPORT. Tests on fixed values: a word refused for each well-formedness check, the worked examples of the spec, small
tests of single commands, and for each statement with hypotheses a state and operands that meet them. -/

namespace Sys2Proof.Tests

set_option Elab.async false

open Sys2Proof Sys2Proof.Machine

/-! ## Builders -/

/-- A seat in service at a row and column. -/
def seatAt (row column : Nat) (o : Occupancy) : Seat := ⟨true, row, column, false, true, o, .none, none⟩

/-- An entry of class 0 in a state on a seat. -/
def person (id c : Nat) (x : EntryState) (i : Option Nat) : Entry :=
  { Entry.written0 id c 0 none with state := x, seat := i, lastSeat := i }

/-- A channel in a state with a paper number. -/
def channel (paper : Nat) (x : ChanState) : Channel :=
  { Channel.blank with config := { ChanConfig.blank with paper := paper }, state := x }

/-- A seat line with its first desks PRESENT. -/
def presentLine (n : Nat) : Line :=
  { Line.fresh with addrs := (List.range n).map fun a => (a + 1, ⟨.present, 0, 0, false⟩) }

/-- READY after reset, with seat 0 at row 4 column 10, the desk of it PRESENT, channel 2 in a state, one candidate of it
with id 51200734 in slot 511, forms and profile 0 defined, and entrance station 1. -/
def hallWith (x : ChanState) (e : EntryState) (i : Option Nat) (o : Occupancy) : State :=
  { State.reset with
    time := { State.reset.time with refState := .good }
    seats := [(0, seatAt 4 10 o)]
    roster := [(511, person 51200734 2 e i)]
    channels := [(2, channel 7 x)]
    forms := [(0, ⟨true, 2, 2, 0⟩)]
    profiles := [(0, { Profile.initial with defined := true })]
    stations := [(1, ⟨true, .entrance⟩)]
    lines := [(0, presentLine 1), (6, { presentLine 1 with interval := 100 })]
    office := { State.reset.office with ready := true, awaitQuiet := false } }

/-- The next state of a command; the state itself if it answers none. -/
def after (i : Instr) (s : State) : State :=
  match exec i s with
  | .next t => t
  | _ => s

/-- Line 0 with a frame in flight to its address 1. -/
def flying (s : State) (x : ExchangeKind) : State :=
  { s with lines := [(0, { presentLine 1 with exchange := some ⟨1, x⟩ }), (6, { Line.fresh with interval := 100 })] }

/-- The next 1 ms tick, or DIVIDER_TICK, makes a second tick of `s`. -/
def owing (s : State) : State := { s with time := { s.time with divider := 1100 } }

/-- The code of the last response. -/
def codeOf (s : State) : Option Code := s.office.responses.getLast?.map Response.code

/-! ## Well-formedness: each check refuses -/

/-- Operands past what the sender of each event or request can express are refused. -/
theorem test_wf_refuses_events :
    ((Instr.tick1ms true 4 .sittingSeatsSignals).wf || (Instr.refsecEdge 20000 .sittingSeatsSignals).wf ||
      (Instr.timedAdmission 16).wf || (Instr.timedStart 16).wf || (Instr.writingStart 16).wf ||
      (Instr.deferredAmendment 16).wf || (Instr.admissionClose 16).wf || (Instr.baseEnd 16).wf ||
      (Instr.timeUp 512).wf || (Instr.budgetExhaustion 512).wf || (Instr.seatingExpiry 384).wf ||
      (Instr.clearingEnd 384).wf || (Instr.sheetChannelResolved 6).wf || (Instr.sheetChannelResolved 13).wf ||
      (Instr.keyCommitEnd 16).wf) = false := by decide +kernel

theorem test_wf_refuses_long_frame : (Instr.officeFrameEnd (List.replicate 1029 0#8)).wf = false := by
  decide +kernel

theorem test_wf_refuses_long_payloads :
    (Instr.undefinedRequest 0 11 (List.replicate 1023 0#8)).wf = false ∧
      (Instr.writeTable 0 1 0 1 (List.replicate 1019 0#8)).wf = false := by
  decide +kernel

theorem test_wf_refuses_kinds_and_fields :
    ((Instr.undefinedRequest 0 4 []).wf || (Instr.readTable 0 256 0 1).wf || (Instr.readTable 0 1 65536 1).wf ||
      (Instr.readTable 0 1 0 256).wf || (Instr.readKeys 0 65536 1).wf || (Instr.readKeys 0 0 256).wf ||
      (Instr.writeTable 0 256 0 1 []).wf || (Instr.writeTable 0 1 65536 1 []).wf || (Instr.writeTable 0 1 0 256 []).wf ||
      (Instr.readStats 0 256 true).wf || (Instr.readResults 0 4294967296 1).wf || (Instr.readResults 0 1 256).wf ||
      (Instr.releaseResults 0 4294967296).wf || (Instr.readHistogram 0 256).wf ||
      (Instr.deskMessage 0 (.seat 65536) 0).wf || (Instr.deskMessage 0 (.channel 256) 0).wf ||
      (Instr.deskMessage 0 (.line 256) 0).wf || (Instr.deskMessage 0 .hall 256).wf) = false := by decide +kernel

theorem test_wf_refuses_commands :
    ((Instr.channelLoad 0 256).wf || (Instr.channelOpen 0 256).wf || (Instr.channelStart 0 256).wf ||
      (Instr.channelHold 0 256).wf || (Instr.channelResume 0 256).wf || (Instr.amendNow 0 256 0).wf ||
      (Instr.amendNow 0 0 65536).wf || (Instr.amendAtMinute 0 256 0).wf || (Instr.amendAtMinute 0 0 65536).wf ||
      (Instr.channelClose 0 256).wf || (Instr.channelTeardown 0 256).wf || (Instr.keyCommit 0 256).wf ||
      (Instr.hallTimeSet 0 16777216).wf || (Instr.reseat 0 65536 0).wf || (Instr.reseat 0 0 65536).wf ||
      (Instr.candidateFinish 0 65536).wf || (Instr.deskClear 0 256 0).wf || (Instr.deskClear 0 0 256).wf ||
      (Instr.lineQuiet 0 256).wf || (Instr.lineWake 0 256).wf || (Instr.lineTest 0 256).wf ||
      (Instr.lineReset 0 256).wf) = false := by decide +kernel

theorem test_wf_refuses_written_entries :
    ((Instr.writeHall 0 0 [⟨[0], 0, 0, 0, 0, 0, List.replicate 16 0⟩]).wf ||
      (Instr.writeHall 0 0 [⟨List.replicate 6 65536, 0, 0, 0, 0, 0, List.replicate 16 0⟩]).wf ||
      (Instr.writeHall 0 0 [⟨List.replicate 6 0, 0, 0, 0, 0, 0, List.replicate 15 0⟩]).wf ||
      (Instr.writeHall 0 0 [⟨List.replicate 6 0, 0, 0, 0, 0, 256, List.replicate 16 0⟩]).wf ||
      (Instr.writeSeats 0 65536 [⟨1, 0, 0, 0, 0⟩]).wf || (Instr.writeSeats 0 0 [⟨1, 256, 0, 0, 0⟩]).wf ||
      (Instr.writeStations 0 1 [⟨1, 256⟩]).wf || (Instr.writeRoster 0 0 [.use 100000001 0 0 none]).wf ||
      (Instr.writeRoster 0 0 [.use 0 0 0 (some 65536)]).wf || (Instr.writeClasses 0 0 [⟨256, 0, 0⟩]).wf ||
      (Instr.writeForms 0 0 [⟨256, 1, 2, 0⟩]).wf || (Instr.writeProfiles 0 0 [⟨1, 20, 45, 25, 0, 0, 256⟩]).wf ||
      (Instr.writeKeys 0 0 [⟨[256], 0, 0, 0⟩]).wf || (Instr.writeSignals 0 0 [⟨0, 1, 0, 0, 0⟩]).wf ||
      (Instr.writeSignals 0 0 [⟨1, 256, 0, 0, 0⟩]).wf) = false := by decide +kernel

theorem test_wf_refuses_written_channel :
    (Instr.writeChannels 0 0 [⟨10001, 0, 0, [⟨0, 63, 0, 63⟩], 0, 0, 0, none, none, 0, 600, 0, 0, 0, []⟩]).wf = false := by
  decide +kernel

theorem test_wf_refuses_long_text : (Instr.writeMessages 0 0 [List.replicate 256 0#8]).wf = false := by
  decide +kernel

/-! ## The worked examples of the spec -/

/-- 12.1: the nine bytes of the text 123456789 give 0x29B1. -/
theorem test_crc_of_the_nine_digits :
    crc16 [0x31#8, 0x32#8, 0x33#8, 0x34#8, 0x35#8, 0x36#8, 0x37#8, 0x38#8, 0x39#8] = 0x29B1#16 := by decide +kernel

/-- 6.9: the echoes of address 5. -/
theorem test_echoes_of_address_5 :
    testEcho 5 0x0000#16 = 0x0500#16 ∧ testEcho 5 0xFFFF#16 = 0xFA00#16 ∧ testEcho 5 0x5AA5#16 = 0xA011#16 ∧
      testEcho 5 (BitVec.ofNat 16 (testPattern 5 3)) = 0x000F#16 := by decide +kernel

/-- R58: the table of allowed seconds. -/
theorem test_allowed_seconds :
    allowedSeconds 5400 15 = 6240 ∧ allowedSeconds 4200 25 = 5280 ∧ allowedSeconds 3600 33 = 4800 ∧
      allowedSeconds 601 1 = 661 ∧ allowedSeconds 14400 100 = 28800 := by decide +kernel

/-- R158: the table of group classes, at the power-on thresholds. -/
theorem test_group_classes :
    classify Profile.initial [5, 85, 2, 4] = .single 1 ∧ classify Profile.initial [90, 45, 0, 0] = .single 0 ∧
      classify Profile.initial [80, 70, 1, 0] = .multiple ∧ classify Profile.initial [85, 85, 0, 0] = .multiple ∧
      classify Profile.initial [35, 3, 0, 0] = .unclear ∧ classify Profile.initial [60, 30, 0, 0] = .single 0 := by
  decide +kernel

/-- R157: white 30, black 230. -/
theorem test_darkness : darkness 30 230 35 = 2 ∧ darkness 30 230 200 = 85 ∧ darkness 30 230 240 = 100 := by decide +kernel

/-- R196: 51200734 in packed digits. -/
theorem test_packed_digits :
    packed 4 51200734 = [0x51#8, 0x20#8, 0x07#8, 0x34#8] ∧
      unpack [0x51#8, 0x20#8, 0x07#8, 0x34#8] = some 51200734 ∧ unpack [0x5A#8] = none := by decide +kernel

/-- The eight seats of the search example of 5.2, some of them taken. -/
def searchHall (held : List Nat) : State :=
  { State.reset with
    seats := (List.range 8).map fun i =>
      (i, seatAt (4 + i / 4) (10 + i % 4) (if i ∈ held then .held (i + 1) 300 else .free))
    roster := (List.range 9).map fun k => (k, person k 2 (if k = 0 then .expected else .allocated) none)
    channels := [(2, { channel 7 .opened with
      config := { ChanConfig.blank with zones := [⟨4, 5, 10, 13⟩], fill := .serpentine, spacing := .row, relax := true } })]
    lines := [(0, presentLine 8), (6, { Line.fresh with interval := 100 })] }

/-- 5.2: the five check-ins of the search example. -/
theorem test_search_example :
    (searchHall []).search (person 0 2 .expected none) = some ⟨0, false, false⟩ ∧
      (searchHall [0]).search (person 0 2 .expected none) = some ⟨2, false, false⟩ ∧
      (searchHall [0, 2]).search (person 0 2 .expected none) = some ⟨7, false, false⟩ ∧
      (searchHall [0, 2, 7]).search (person 0 2 .expected none) = some ⟨5, false, false⟩ ∧
      (searchHall [0, 2, 7, 5]).search (person 0 2 .expected none) = some ⟨1, true, false⟩ := by decide +kernel

/-! ## Small tests of commands -/

/-- R192: POWER_ON from any state gives the reset. -/
theorem test_power_on_is_reset :
    exec .powerOn { hallWith .writing .writing (some 0) (.occupied 511) with pending := [.powerOn] } =
      .next { State.reset with pending := [.powerOn] } := by rfl

/-- R19: while ACQUIRING the 1000th 1 ms tick makes a second tick. -/
theorem test_tick_makes_a_second :
    (after (.tick1ms false 0 .sittingSeatsSignals)
      { State.reset with time := { State.reset.time with divider := 999, hallTime := 86399 } }).time.hallTime = 0 := by
  decide +kernel

/-- R19: while GOOD the divider waits for the edge until 1100. -/
theorem test_good_divider_waits :
    (after (.tick1ms false 0 .sittingSeatsSignals)
      { State.reset with time := { State.reset.time with divider := 1098, refState := .good } }).time.divider = 1099 := by
  decide +kernel

/-- R26: HOLDIN asserted at the third differing sample in a row sets the hall-held condition, and R28's flag. -/
theorem test_third_sample_holds_the_hall :
    (after (.tick1ms true 3 .seatsSittingSignals)
      { State.reset with time := { State.reset.time with samplePhase := 9, holdCount := 2 } }).office.flags =
        [.hallHoldChange] ∧
      (after (.tick1ms true 3 .seatsSittingSignals)
        { State.reset with time := { State.reset.time with samplePhase := 9, holdCount := 2 } }).time.holdPin = true := by
  decide +kernel

/-- R20 to R22: the first edge judges nothing; a good period after it makes the reference GOOD. -/
theorem test_edges_make_the_reference_good :
    (after (.refsecEdge 0 .sittingSeatsSignals) State.reset).time.refState = .acquiring ∧
      (after (.refsecEdge 10000 .sittingSeatsSignals) { State.reset with
        time := { State.reset.time with openPeriod := some 19990000 } }).time.refState = .good := by decide +kernel

/-- R192: with the reference GOOD and no address configured the part is READY, and SHEET_RDY asserted (R138). -/
theorem test_ready_follows_the_reference :
    (after (.refsecEdge 10000 .sittingSeatsSignals) { State.reset with
      time := { State.reset.time with openPeriod := some 19990000 } }).intake.ready = true := by decide +kernel

/-- R47, R49: at writing elapsed 1000 an amendment to 600 applies 1060 and is answered CLAMPED. -/
theorem test_amend_now_clamps :
    let s := { hallWith .writing .writing (some 0) (.occupied 511) with
      channels := [(2, { channel 7 .writing with writeElapsed := 1000, length := 5400 })] }
    codeOf (after (.amendNow 9 2 600) s) = some .clamped ∧ ((after (.amendNow 9 2 600) s).chan 2).length = 1060 := by
  decide +kernel

/-- R25: HALL_TIME_SET takes 86 399 and refuses 86 400. -/
theorem test_hall_time_set_bounds :
    let s := hallWith .opened .expected none .free
    (after (.hallTimeSet 1 86399) s).time.hallTime = 86399 ∧
      codeOf (after (.hallTimeSet 1 86400) s) = some .range := by decide +kernel

/-- R177: after a reset no request is taken before OL_RX has been quiet. -/
theorem test_no_request_before_quiet :
    (after (.hallTimeSet 1 5) State.reset).time.hallTime = 0 ∧
      codeOf (after (.readStatus 1) State.reset) = none ∧
      codeOf (after (.readStatus 1) (after .officeLinkQuietReached State.reset)) = some .ok := by decide +kernel

/-- R20, R21: a third bad judgement inside the millisecond before the tick is made first, with its immediate tick. -/
theorem test_missing_edge_before_the_tick :
    let t := after (.tick1ms false 0 .sittingSeatsSignals) { State.reset with
      time := { State.reset.time with refState := .good, bad := 2, divider := 1099, missingTimer := 29990000 } }
    t.time.refState = .lost ∧ t.time.hallTime = 1 ∧ t.time.divider = 1 := by decide +kernel

/-- R40: TIMED_ADMISSION does nothing between two second ticks; the tick that reaches the time opens the channel. -/
theorem test_admission_waits_for_the_tick :
    let s := { hallWith .loaded .expected none .free with channels := [(2, { channel 7 .loaded with
      config := { ChanConfig.blank with paper := 7, admission := some 0 } })] }
    ((after (.timedAdmission 2) s).chan 2).state = .loaded ∧
      ((after (.dividerTick .sittingSeatsSignals) (owing s)).chan 2).state = .opened := by decide +kernel

/-- R49, R199: the applied form of AMEND carries channel, W and e. -/
theorem test_amend_applied_fields :
    Subject.fields (.amendApplied 2 1060 1000) = [0x00#8, 0x02#8, 0x04#8, 0x24#8, 0x03#8, 0xE8#8] := by decide +kernel

/-- R107: a sweep's ABSENT leaves a discovery-due mark; R104: PRESENT clears it. -/
theorem test_due_mark_outlives_absent :
    (AddrState.become ⟨.lost, 0, 0, true⟩ .absent).due = true ∧ (AddrState.become ⟨.lost, 0, 0, true⟩ .present).due = false := by
  decide +kernel

/-- R114, R100: with a poll in flight at missed-reply count 2 the miss makes the desk LOST before the test starts. -/
theorem test_line_test_waits_for_the_exchange :
    let s := { hallWith .opened .expected none .free with
      lines := [(0, { presentLine 1 with exchange := some ⟨1, .poll⟩, addrs := [(1, ⟨.present, 2, 0, false⟩)] })] }
    ((after (.lineTest 1 0) s).line 0).state = .testing ∧ (((after (.lineTest 1 0) s).line 0).addr 1).missed = 2 ∧
      (after (.replyWindowClose 0) (after (.lineTest 1 0) s)).office.flags = [.deskLost] := by decide +kernel

/-- R197: bytes after a line frame's end enter no computation. -/
theorem test_bytes_after_a_reply :
    readReply (withCrc (b1 1 ++ b1 0x81 ++ b1 1 ++ b1 0) ++ [0xAA#8]) = some (1, 0x81, b1 0) := by decide +kernel

/-- R91, R70: a time-up departs the candidate, and the seat clears for 120 s. -/
theorem test_time_up_departs :
    let t := after (.timeUp 511) (hallWith .writing .writing (some 0) (.occupied 511))
    (t.entry 511).map Entry.state = some .timeUp ∧ (t.seat 0).occ = .clearing 120 ∧ (t.seat 0).closing = .timeUp := by
  decide +kernel

/-- R44, R45: base end with a writer left goes to OVERTIME, with none to COLLECTING. -/
theorem test_base_end :
    let s := fun x => { hallWith .writing x none .free with
      channels := [(2, { channel 7 .writing with writeElapsed := 600, length := 600, closed := true })] }
    ((after (.baseEnd 2) (s .writing)).chan 2).state = .overtime ∧
      ((after (.baseEnd 2) (s .finished)).chan 2).state = .collecting ∧
      ((after (.baseEnd 2) (s .collected)).chan 2).state = .reconciled := by decide +kernel

/-- R196, 12.4: the same frame by its bytes and by its row. -/
theorem test_frame_is_its_row :
    after (.officeFrameEnd (officeFrame 0x03 7 [13#8, 0x00#8, 0x0E#8, 0x10#8]).tail)
        (hallWith .opened .expected none .free) =
      after (.hallTimeSet 7 3600) (hallWith .opened .expected none .free) := by
  decide +kernel

/-- R196, 12.2: what leaves on a line is the start byte, address, kind, length and CRC. -/
theorem test_poll_frame_bytes :
    (Exchange.bytes ⟨5, .poll⟩).take 4 = [0x96#8, 0x05#8, 0x01#8, 0x00#8] ∧ (Exchange.bytes ⟨5, .poll⟩).length = 6 := by
  decide +kernel

/-- 12.5: a record takes 52 bytes, scored or not. -/
theorem test_record_is_52_bytes :
    (ResultRecord.bytes ⟨1, 2, 3, .accept, .scored, false, some 2, some 51200734, some 511, some 0,
      some ⟨0, 10, 20, 500, 1, 1, 0, 0, 0, 0, [3], false, false, false⟩⟩).length = 52 ∧
      (ResultRecord.bytes ⟨1, 2, 3, .reject, .badFrame, true, none, none, none, none, none⟩).length = 52 := by
  decide +kernel

/-- R156: at count 20 the generation 255 becomes 0. -/
theorem test_generation_wraps :
    ((after (.keyCommitEnd 2) { State.reset with
      channels := [(2, { channel 7 .loaded with stage := .running 20, generation := 255 })] }).chan 2).generation = 0 := by
  decide +kernel

/-- R181: the checks of a write in order. -/
theorem test_write_checks :
    let s := hallWith .opened .expected none .free
    codeOf (after (.writeTable 1 12 0 1 []) s) = some .unknownTable ∧
      codeOf (after (.writeTable 1 2 0 0 []) s) = some .range ∧
      codeOf (after (.writeTable 1 2 0 5 []) s) = some .tooLong ∧
      codeOf (after (.writeTable 1 2 383 2 []) s) = some .range := by decide +kernel

/-- R14: two entries of one write put one id into one channel. -/
theorem test_roster_duplicate :
    codeOf (after (.writeRoster 1 0 [.use 5 2 0 none, .use 5 2 0 none]) (hallWith .loaded .expected none .free)) =
      some .duplicate := by decide +kernel

/-! ## What meets the hypotheses of each statement -/

/-- Ready to take a request. -/
theorem test_hyp_takes_request : (hallWith .opened .expected none .free).takesRequest := by
  unfold State.takesRequest; decide +kernel

theorem test_hyp_step : ∃ (c : Instr) (s : State), s.pending = [c] ∧ ∃ u : State, u.pending = [] :=
  ⟨.powerOn, { State.reset with pending := [.powerOn] }, rfl, State.reset, rfl⟩

/-- Divider 998 so that the tick makes no second, an age at its top, a commit one tick before its last, a busy line one
tick and a free one two ticks before its interval end. -/
theorem test_hyp_tick :
    let s := { State.reset with
      time := { State.reset.time with divider := 998 }
      channels := [(15, { channel 7 .loaded with stage := .running 18 })]
      lines := [(0, { Line.fresh with timer := 249, exchange := some ⟨1, .poll⟩ }), (6, { Line.fresh with timer := 248 })]
      intake := { State.reset.intake with slots := [(3, { Slot.blank with state := .waiting, age := 65535 })] } }
    let b := s.time.toTick.divide.debounce true
    b.dividerDue = false ∧ b.pinDue = false ∧ b.missingTimer < Config.missingEdgeClocks ∧
      (s.intake.slot 3).state = .waiting ∧ (s.chan 15).stage = .running 18 ∧ (s.line 0).exchange ≠ none ∧
      (s.line 0).timer + 1 = (s.line 0).interval ∧ (s.line 6).state = .active ∧
      (s.line 6).timer + 1 < (s.line 6).interval := by decide +kernel

theorem test_hyp_divider_tick :
    ({ State.reset with time := { State.reset.time with divider := 1000 } }).time.dividerDue = true ∧
      State.reset.time.dividerDue = false := by decide +kernel

theorem test_hyp_second_tick :
    let s := { hallWith .reading .seated (some 0) (.occupied 511) with
      time := { State.reset.time with divider := 1000 }
      channels := [(2, { channel 7 .reading with hold := true, holdSeconds := 86399 }), (14, channel 9 .reading),
        (15, channel 8 .overtime)] }
    s.canonical = true ∧ s.time.dividerDue = true ∧ (s.chan 2).state.hasClock = true ∧
      (s.time.held || (s.chan 2).hold) = true ∧ (s.chan 15).state = .overtime ∧
      (s.time.held || (s.chan 15).hold) = false ∧ s.seatsAgree = true ∧ s.holdsSecond 2 = true ∧
      s.readsSecond 14 = true ∧ s.writesSecond 15 = true := by decide +kernel

/-- The three ways to a second tick. -/
theorem test_hyp_second_by :
    let s := hallWith .writing .writing (some 0) (.occupied 511)
    (owing s).secondBy (.dividerTick .sittingSeatsSignals) ∧
      { s with time := { s.time with divider := 1099 } }.secondBy (.tick1ms false 0 .sittingSeatsSignals) ∧
      { s with time := { s.time with divider := 500, openPeriod := some 19990000 } }.secondBy
        (.refsecEdge 10000 .sittingSeatsSignals) := by
  unfold State.secondBy
  exact ⟨by decide +kernel, by decide +kernel, by decide +kernel, by decide +kernel, by decide +kernel, 19990000,
    by decide +kernel⟩

theorem test_hyp_edges :
    State.reset.time.missingTimer + State.reset.clocksTo 19999 < Config.missingEdgeClocks ∧
      State.reset.time.openPeriod = none ∧
      (let s := { State.reset with time := { State.reset.time with openPeriod := some 20000001, divider := 500 } }
      s.time.openPeriod = some 20000001 ∧ periodGood (20000001 + s.clocksTo 19999) = true ∧ s.time.refState ≠ .lost ∧
        s.time.missingTimer + s.clocksTo 19999 < Config.missingEdgeClocks) ∧
      (let s := { State.reset with time := { State.reset.time with
        openPeriod := some 20000002, divider := 499, refState := .lost, good := 4 } }
      periodGood (20000002 + s.clocksTo 19998) = true ∧ periodGood (20000002 + s.clocksTo 19999) = false ∧
        s.time.good + 1 = 5) ∧
      (let s := { State.reset with time := { State.reset.time with
        openPeriod := some 0, divider := 1000, refState := .good, bad := 2 } }
      periodGood (0 + s.clocksTo 0) = false ∧ s.time.bad + 1 = 3 ∧ 1000 ≤ s.time.divider) := by decide +kernel

theorem test_hyp_missing_edge :
    let s := { State.reset with
      time := { State.reset.time with missingTimer := 29999999, prescaler := 19998, bad := 2, divider := 999 } }
    let u := { s with time := { s.time with refState := .good, divider := 1000 } }
    s.time.missingIn = some 1 ∧ s.time.missingTimer ≤ Config.missingEdgeClocks ∧ s.time.refState ≠ .lost ∧
      s.time.divider < 1000 ∧ u.time.missingIn = some 1 ∧ u.time.bad = 2 ∧ u.time.refState = .good ∧
      ({ s with time := { s.time with refState := .lost } }).time.missingIn = some 1 := by decide +kernel

theorem test_hyp_hold_input :
    let s := { State.reset with time := { State.reset.time with holdCount := 3 } }
    let u := { State.reset with time := { State.reset.time with holdCount := 2, samplePhase := 9 } }
    s.time.pinDue = true ∧ s.time.officeHold = false ∧
      ({ s with time := { s.time with officeHold := true } }).time.officeHold = true ∧
      u.time.samplePhase = 9 ∧ 2 ≤ u.time.holdCount ∧ true ≠ u.time.holdPin := by decide +kernel

theorem test_hyp_channel_load :
    let s := { hallWith .writing .seated (some 0) (.occupied 511) with
      channels := [(2, channel 7 .writing), (15, channel 8 .free)] }
    (s.chan 15).state = .free ∧ (s.form (s.chan 15).config.form).defined = true ∧
      (s.profile (s.chan 15).config.profile).defined = true ∧
      ∀ d, d < 16 → d ≠ 15 → (s.chan d).state ≠ .free → (s.chan d).config.paper ≠ (s.chan 15).config.paper := by
  decide +kernel

/-- A LOADED channel at its admission time, with no conflicting slot, and with one. -/
def admissionHall (roster : PMap Entry) : State :=
  { hallWith .loaded .expected none .free with
    time := { State.reset.time with hallTime := 60 }
    roster := roster
    channels := [(1, channel 6 .opened), (2, { channel 7 .loaded with
      config := { ChanConfig.blank with paper := 7, admission := some 60 } })] }

theorem test_hyp_admission :
    let u := { admissionHall [(0, person 5 2 .expected none)] with ticking := some 2 }
    let v := { admissionHall [(0, person 5 2 .expected none), (1, person 5 1 .expected none)] with ticking := some 2 }
    (u.chan 2).state = .loaded ∧ u.admissionDue 2 = true ∧ u.conflictSlot 2 = none ∧
      (v.chan 2).state = .loaded ∧ v.admissionDue 2 = true ∧ v.conflictSlot 2 = some 0 := by decide +kernel

/-- A second tick to hall time 60: channel 2 due alone; and channels 2 and 15 due with one candidate id. -/
theorem test_hyp_admission_at_the_tick :
    let u := owing { admissionHall [(0, person 5 2 .expected none)] with
      time := { State.reset.time with hallTime := 59, refState := .good } }
    let v := { u with
      roster := [(0, person 5 2 .expected none), (1, person 5 15 .expected none)]
      channels := [(2, u.chan 2), (15, { u.chan 2 with config := { (u.chan 2).config with paper := 8 } })] }
    u.secondBy (.dividerTick .sittingSeatsSignals) ∧ u.ticking = none ∧ u.canonical = true ∧ u.admitsSecond 2 = true ∧
      (∀ d, d < 2 → (u.chan d).state ∉ [.loaded, .writing, .overtime]) ∧ u.conflictSlot 2 = none ∧
      v.secondBy (.dividerTick .sittingSeatsSignals) ∧ v.canonical = true ∧ v.admitsSecond 2 = true ∧
      v.admitsSecond 15 = true ∧ (v.channels.map Prod.fst) = [2, 15] ∧ Channel.blank.state = .free ∧
      v.entry 0 = some (person 5 2 .expected none) ∧ v.entry 1 = some (person 5 15 .expected none) := by
  unfold State.secondBy; decide +kernel

theorem test_hyp_starts :
    let u := { hallWith .opened .seated (some 0) (.occupied 511) with
      ticking := some 2
      channels := [(2, { channel 7 .opened with config := { ChanConfig.blank with paper := 7, start := some 0 } })] }
    let v := { hallWith .reading .seated (some 0) (.occupied 511) with
      channels := [(2, { channel 7 .reading with
        config := { ChanConfig.blank with paper := 7, reading := 60 }
        readElapsed := 60 })] }
    u.canonical = true ∧ (u.chan 2).state = .opened ∧ u.startDue 2 = true ∧ v.canonical = true ∧
      (v.chan 2).state = .reading ∧ (v.chan 2).config.reading ≤ (v.chan 2).readElapsed ∧ v.ticking = none ∧
      (owing u).secondBy (.dividerTick .sittingSeatsSignals) ∧ (owing u).seatsAgree = true ∧
      (owing u).startsSecond 2 = true ∧ (owing v).seatsAgree = true ∧ (owing v).readsSecond 2 = true := by
  unfold State.secondBy; decide +kernel

/-- A WRITING channel at writing elapsed `e`, with an amendment accepted at 30. -/
def amendHall (e : Nat) : State :=
  { hallWith .writing .writing (some 0) (.occupied 511) with
    channels := [(2, { channel 7 .writing with writeElapsed := e, length := 14400, amendment := some ⟨5400, 30⟩ })] }

theorem test_hyp_amendments :
    ((hallWith .opened .expected none .free).chan 2).state = .opened ∧
      ((amendHall 14341).chan 2).state = .writing ∧ ((amendHall 14340).chan 2).state = .writing ∧
      (amendHall 14340).canonical = true ∧ (amendHall 14341).canonical = true ∧
      (amendHall 14340).amendmentDue 2 = true ∧ (amendHall 14400).amendmentDue 2 = true ∧
      ((amendHall 14400).chan 2).amendment = some ⟨5400, 30⟩ ∧
      (owing (amendHall 14339)).secondBy (.dividerTick .sittingSeatsSignals) ∧
      (owing (amendHall 14339)).canonical = true ∧ (owing (amendHall 14339)).seatsAgree = true ∧
      (owing (amendHall 14339)).writesSecond 2 = true ∧ (owing (amendHall 14399)).writesSecond 2 = true := by
  unfold State.secondBy; decide +kernel

theorem test_hyp_admission_close :
    let s := { hallWith .writing .allocated (some 0) (.held 511 9) with
      channels := [(2, { channel 7 .writing with writeElapsed := 1 })] }
    let u := owing { s with channels := [(2, channel 7 .writing)] }
    s.canonical = true ∧ s.closeDue 2 = true ∧ (s.chan 2).closed = false ∧
      s.entry 511 = some (person 51200734 2 .allocated (some 0)) ∧
      u.secondBy (.dividerTick .sittingSeatsSignals) ∧ u.canonical = true ∧ u.seatsAgree = true ∧
      u.closesSecond 2 = true := by
  unfold State.secondBy; decide +kernel

theorem test_hyp_base_end :
    let s := { hallWith .writing .writing (some 0) (.occupied 511) with
      channels := [(2, { channel 7 .writing with writeElapsed := 600 })] }
    let u := owing { s with channels := [(2, { channel 7 .writing with writeElapsed := 599 })] }
    s.canonical = true ∧ (s.chan 2).state = .writing ∧ (s.chan 2).length ≤ (s.chan 2).writeElapsed ∧
      u.secondBy (.dividerTick .sittingSeatsSignals) ∧ u.canonical = true ∧ u.seatsAgree = true ∧
      u.endsSecond 2 = true := by
  unfold State.secondBy; decide +kernel

theorem test_hyp_close_and_teardown :
    (hallWith .collecting .timeUp none (.clearing 5)).canonical = true ∧
      ((hallWith .collecting .timeUp none (.clearing 5)).chan 2).state = .collecting ∧
      ((hallWith .loaded .expected none .free).chan 2).state = .loaded ∧
      ((hallWith .reconciled .collected none .free).chan 2).state = .reconciled ∧
      (hallWith .reconciled .collected none .free).gateOpen 2 = true ∧
      ({ hallWith .reconciled .collected none .free with
        log := ⟨[⟨1, 1, 0, .reject, .notOnRoster, false, some 2, none, none, none, none⟩], 2, true⟩ }).gateOpen 2 = false := by
  decide +kernel

theorem test_hyp_departure :
    ∃ e, (hallWith .writing .onBreak (some 0) (.occupied 511)).entry 511 = some e ∧ e.state = .onBreak ∧
      e.allowed ≤ e.written := ⟨person 51200734 2 .onBreak (some 0), by decide +kernel⟩

/-- The last writer of an OVERTIME channel under a hold, one of two, and one whose second is its last. -/
theorem test_hyp_overtime :
    let e := { person 51200734 2 .writing (some 0) with allowed := 60, written := 59 }
    let s := { hallWith .overtime .writing (some 0) (.occupied 511) with roster := [(511, e)] }
    let u := { s with channels := [(2, { channel 7 .overtime with hold := true })] }
    (u.chan 2).state = .overtime ∧ s.entry 511 = some e ∧ (owing s).secondBy (.dividerTick .sittingSeatsSignals) ∧
      (owing s).canonical = true ∧ (owing s).rosterLawful = true ∧ (owing s).writesSecond 2 = true ∧
      (owing s).hasWriter 2 = true ∧
      ((after (.candidateFinish 1 511) u).chan 2) = { channel 7 .collecting with hold := false } ∧
      ((after (.dividerTick .sittingSeatsSignals) (owing s)).chan 2).state = .collecting ∧
      (after (.candidateFinish 1 511) { s with roster := [(9, person 7 2 .onBreak none), (511, e)] }).chan 2 = s.chan 2 := by
  unfold State.secondBy; decide +kernel

/-- A reply frame's bytes after the start byte (12.2). -/
def replyBytes (a kind : Nat) (body : List Byte) : List Byte := withCrc (b1 a ++ b1 kind ++ b1 body.length ++ body)

/-- A press of FINISH, BREAK or HELP at the desk of seat 0, whatever stands on the seat. -/
theorem test_hyp_press (x : ChanState) (e : EntryState) (i : Option Nat) (o : Occupancy) :
    let s := flying (hallWith x e i o) .poll
    s.hears 0 1 (replyBytes 1 0x81 [2#8]) .finish ∧ s.hears 0 1 (replyBytes 1 0x81 [3#8]) .takeBreak ∧
      s.hears 0 1 (replyBytes 1 0x81 [4#8]) .help ∧ (s.seat (seatIndex 0 1)).occ = o :=
  ⟨⟨rfl, [2#8], by decide +kernel, by decide +kernel⟩, ⟨rfl, [3#8], by decide +kernel, by decide +kernel⟩,
    ⟨rfl, [4#8], by decide +kernel, by decide +kernel⟩, by cases o <;> rfl⟩

/-- The bars of a FINISH press at their bounds, the closing words, and a desk that a note reaches. -/
theorem test_hyp_finish_bars :
    let s := fun n => { flying (hallWith .writing .writing (some 0) (.occupied 511)) .poll with
      roster := [(511, { person 51200734 2 .writing (some 0) with allowed := n })]
      channels := [(2, { channel 7 .writing with
        config := { ChanConfig.blank with paper := 7, barStart := 60, barEnd := 60 }
        writeElapsed := 60 })] }
    let c := fun n => (s n).chan 2
    (c 0).config.barStart ≤ (c 0).writeElapsed ∧
      ((s 61).entry 511).any (fun e => decide ((c 61).config.barEnd < e.allowed - e.written)) = true ∧
      ((s 60).entry 511).any (fun e => decide (e.state ≠ .seated ∧ e.allowed - e.written ≤ (c 60).config.barEnd)) = true ∧
      (flying (hallWith .opened .seated (some 0) (.occupied 511)) .poll).entry 511 =
        some (person 51200734 2 .seated (some 0)) ∧
      ({ s 0 with seats := [(0, { seatAt 4 10 (.clearing 5) with closing := .timeUp })] }.seat 0).closing = .timeUp ∧
      ({ s 0 with seats := [(0, { seatAt 4 10 (.clearing 5) with closing := .finished })] }.seat 0).closing = .finished ∧
      (s 0).reaches 0 1 := by
  unfold State.reaches; decide +kernel

theorem test_hyp_counts :
    (∃ e, (hallWith .writing .onBreak (some 0) (.occupied 511)).entry 511 = some e ∧ e.state = .onBreak ∧
      e.remaining = 0 ∧ e.budgetOut = false) ∧
      ((hallWith .opened .allocated (some 0) (.held 511 0)).seat 0).occ = .held 511 0 ∧
      ((hallWith .opened .timeUp none (.clearing 0)).seat 0).occ = .clearing 0 :=
  ⟨⟨person 51200734 2 .onBreak (some 0), by decide +kernel⟩, by decide +kernel⟩

/-- A writing second with the line of the desk busy: a writer at the warning offset 60, at its last second, and one on its
last second of break. -/
theorem test_hyp_counted_second :
    let s := fun e => owing { flying (hallWith .writing .writing (some 0) (.occupied 511)) .poll with
      roster := [(511, e)]
      channels := [(2, { channel 7 .writing with config := { ChanConfig.blank with paper := 7, warnings := [60] } })] }
    let e := { person 51200734 2 .writing (some 0) with allowed := 121, written := 60 }
    (s e).secondBy (.dividerTick .sittingSeatsSignals) ∧ (s e).canonical = true ∧ (s e).seatsAgree = true ∧
      (s e).linesLawful = true ∧
      (s e).entry 511 = some e ∧ e.channel ≤ 15 ∧ (s e).writesSecond 2 = true ∧ (s e).amendsSecond 2 = false ∧
      ((s e).line (seatLine 0)).exchange ≠ none ∧ ((s e).line (seatLine 0)).state ≠ .quiet ∧
      e.allowed - (e.written + 1) ∈ ((s e).chan 2).config.warnings ∧
      (s { e with written := 120 }).seatsAgree = true ∧
      (s { e with state := .onBreak, remaining := 1 }).seatsAgree = true ∧
      (owing (hallWith .opened .allocated (some 0) (.held 511 1))).seatsAgree = true := by
  unfold State.secondBy; decide +kernel

/-- Two seats with desks, the candidate at seat 0, seat 1 eligible. -/
def reseatHall (x : EntryState) (o : Occupancy) : State :=
  { hallWith .writing x (some 0) o with
    seats := [(0, seatAt 4 10 o), (1, seatAt 4 11 .free)]
    lines := [(0, presentLine 2), (6, { Line.fresh with interval := 100 })] }

theorem test_hyp_reseat :
    (reseatHall .expected .free).entry 510 = none ∧
      (reseatHall .writing (.occupied 511)).entry 511 = some (person 51200734 2 .writing (some 0)) ∧
      (reseatHall .writing (.occupied 511)).eligible 1 = true ∧ (reseatHall .writing (.occupied 511)).eligible 0 = false ∧
      (reseatHall .allocated (.held 511 1)).entry 511 = some (person 51200734 2 .allocated (some 0)) ∧
      (reseatHall .allocated (.held 511 1)).eligible 1 = true ∧ ((reseatHall .allocated (.held 511 1)).seat 0).occ = .held 511 1 ∧
      (hallWith .opened .expected none .free).entry 511 = some (person 51200734 2 .expected none) := by decide +kernel

theorem test_hyp_tap :
    let s := flying (hallWith .writing .allocated (some 0) (.held 511 1)) .poll
    (s.line 0).exchange = some ⟨1, .poll⟩ ∧
      readReply (replyBytes 1 0x81 (b1 1 ++ packed 4 51200734)) = some (1, 0x81, b1 1 ++ packed 4 51200734) ∧
      readEvent (b1 1 ++ packed 4 51200734) = some (.tap 51200734) ∧
      s.activeLookup 51200734 = some (511, person 51200734 2 .allocated (some 0)) ∧
      s.entry 511 = some (person 51200734 2 .allocated (some 0)) ∧ seatIndex 0 1 = 0 := by decide +kernel

/-- A tap answered otherwise: an id that no active channel holds, the entry in each other state, a candidate of seat 3, and
one at its own seat. -/
theorem test_hyp_tap_turned :
    let s := fun x i o => flying (hallWith .writing x i o) .poll
    (∀ x i o, (s x i o).hears 0 1 (replyBytes 1 0x81 (b1 1 ++ packed 4 51200734)) (.tap 51200734)) ∧
      ({ s .expected none .free with roster := [] }).activeLookup 51200734 = none ∧
      (∀ x ∈ [EntryState.expected, .finished, .timeUp, .collected, .absent, .missing],
        (s x none .free).activeLookup 51200734 = some (511, person 51200734 2 x none)) ∧
      (s .allocated (some 3) .free).activeLookup 51200734 = some (511, person 51200734 2 .allocated (some 3)) ∧
      3 ≠ seatIndex 0 1 ∧
      (s .writing (some 0) (.occupied 511)).activeLookup 51200734 = some (511, person 51200734 2 .writing (some 0)) :=
  ⟨fun _ _ _ => ⟨rfl, b1 1 ++ packed 4 51200734, by decide +kernel, by decide +kernel⟩, by decide +kernel, by decide +kernel,
    by decide +kernel, by decide +kernel, by decide +kernel⟩

theorem test_hyp_check_in :
    let s := { hallWith .opened .expected none .free with
      lines := [(0, presentLine 1), (6, { presentLine 1 with interval := 100, exchange := some ⟨1, .poll⟩ })] }
    (s.line 6).exchange = some ⟨1, .poll⟩ ∧
      readReply (replyBytes 1 0x81 (b1 5 ++ packed 4 51200734 ++ packed 3 0)) =
        some (1, 0x81, b1 5 ++ packed 4 51200734 ++ packed 3 0) ∧
      readEvent (b1 5 ++ packed 4 51200734 ++ packed 3 0) = some (.checkin 51200734 0) ∧
      (s.station 1).role = .entrance ∧ s.office.ready = true ∧ s.time.held = false ∧
      s.activeLookup 51200734 = some (511, person 51200734 2 .expected none) ∧
      s.entry 511 = some (person 51200734 2 .expected none) ∧ (s.chan 2).admitting = true ∧
      s.search (person 51200734 2 .expected none) = some ⟨0, false, false⟩ := by decide +kernel

/-- The entrance station, a candidate of channel 2 with a booklet list, and a booklet table. -/
def entranceHall (c : Channel) (x : EntryState) (list : List Nat) (table : PMap Booklet) : State :=
  { hallWith c.state x none .free with
    channels := [(2, c)]
    roster := [(511, { person 51200734 2 x none with booklets := list })]
    booklets := table
    lines := [(0, presentLine 1), (6, { presentLine 1 with interval := 100, exchange := some ⟨1, .poll⟩ })] }

/-- A check-in turned away: an id of a LOADED channel, and of none; an entry not EXPECTED; admission closed; the serial 34 on
another candidate, the list full, the table full; and no seat. -/
theorem test_hyp_check_in_turned :
    let e := fun list => { person 51200734 2 .expected none with booklets := list }
    let s := entranceHall (channel 7 .opened) .expected
    let full := (List.range 2048).map fun k => (k + 100, (⟨511, false⟩ : Booklet))
    (entranceHall (channel 7 .loaded) .expected [] []).awaitsAdmission 51200734 ∧
      (entranceHall (channel 7 .loaded) .expected [] []).activeLookup 51200734 = none ∧
      ¬State.awaitsAdmission { s [] [] with roster := [] } 51200734 ∧
      (entranceHall (channel 7 .opened) .allocated [] []).activeLookup 51200734 =
        some (511, person 51200734 2 .allocated none) ∧
      ((entranceHall { channel 7 .writing with closed := true } .expected [] []).chan 2).admitting = false ∧
      (s [] [(34, ⟨9, false⟩)]).activeLookup 51200734 = some (511, e []) ∧
      mapGet (s [] [(34, ⟨9, false⟩)]).booklets 34 = some ⟨9, false⟩ ∧
      mapGet (s [1, 2, 3, 4, 5, 6, 7, 8] []).booklets 34 = none ∧ 8 ≤ (e [1, 2, 3, 4, 5, 6, 7, 8]).booklets.length ∧
      mapGet full 34 = none ∧ 2048 ≤ full.length ∧
      State.search { s [] [] with seats := [] } (e []) = none ∧ (s [] []).search (e []) = some ⟨0, false, false⟩ := by
  refine ⟨⟨511, person 51200734 2 .expected none, ?_⟩, ?_, fun ⟨_, _, h, _⟩ => (by cases h), ?_⟩ <;> decide +kernel

/-- An entry that the close of admission has made ABSENT. -/
theorem test_hyp_check_in_shut :
    let s := entranceHall { channel 7 .writing with closed := true } .absent [] []
    s.activeLookup 51200734 = some (511, person 51200734 2 .absent none) ∧ (s.chan 2).admitting = false := by decide +kernel

/-- R43: the check-in of a candidate whom the close of admission has made ABSENT is answered LATE. -/
theorem test_absent_is_late :
    (entranceHall { channel 7 .writing with closed := true } .absent [] []).notExpected (person 51200734 2 .absent none) =
      .late := by decide +kernel

/-- A serial passes: a new one, and one on the list already. -/
theorem test_hyp_passes_booklet :
    (entranceHall (channel 7 .opened) .expected [] []).passesBooklet 511 (person 51200734 2 .expected none) 34 ∧
      (entranceHall (channel 7 .opened) .expected [34] [(34, ⟨511, false⟩)]).passesBooklet 511
        { person 51200734 2 .expected none with booklets := [34] } 34 := by
  constructor
  · exact ⟨fun r h => (by cases h), by decide +kernel⟩
  · exact ⟨fun r h => (by cases h; rfl), by decide +kernel⟩

/-- The search hall with seat 0 taken: seat 1 is crowded, seat 2 is not; a fixed seat eligible, and one that is not; and
with all but seat 1 taken, every seat left crowded. -/
theorem test_hyp_search :
    let s := searchHall [0]
    s.canonical = true ∧ sharesPosition s.seats = false ∧ s.zoneSeats 2 = [1] ++ 2 :: [3, 7, 6, 5, 4] ∧
      s.crowded 1 2 none = true ∧ s.crowded 2 2 none = false ∧ s.eligible 1 = true ∧ s.eligible 0 = false ∧
      (searchHall [0, 2, 7, 5]).zoneSeats 2 = [1, 3, 6, 4] ∧
      ([1, 3, 6, 4].all fun i => (searchHall [0, 2, 7, 5]).crowded i 2 none) = true := by decide +kernel

/-- Station 1 in a role, a candidate holding the booklet 34. -/
def stationHall (r : Role) (c : ChanState) (e : EntryState) : State :=
  let x := { person 51200734 2 e (some 0) with booklets := [34] }
  { hallWith c e (some 0) (.occupied 511) with
    roster := [(511, x)]
    booklets := [(34, ⟨511, false⟩)]
    stations := [(1, ⟨true, r⟩)]
    lines := [(0, presentLine 1), (6, { presentLine 1 with interval := 100, exchange := some ⟨1, .poll⟩ })] }

theorem test_hyp_issue :
    let s := stationHall .issue .writing .onBreak
    let e := { person 51200734 2 .onBreak (some 0) with booklets := [34] }
    let body := b1 6 ++ packed 4 51200734 ++ packed 3 999999
    (s.line 6).exchange = some ⟨1, .poll⟩ ∧ readReply (replyBytes 1 0x81 body) = some (1, 0x81, body) ∧
      readEvent body = some (.issue 51200734 999999) ∧ (s.station 1).role = .issue ∧
      s.activeLookup 51200734 = some (511, e) ∧ s.entry 511 = some e ∧ e.state.isSeated = true ∧
      mapGet s.booklets 999999 = none ∧ 999999 ∉ e.booklets ∧ e.booklets.length < 8 ∧ s.booklets.length < 2048 := by
  decide +kernel

/-- An ISSUE turned away: a station of another role, serial 000000, no candidate, one not seated, and the tests of the
serial. -/
theorem test_hyp_issue_turned :
    let s := stationHall .issue .writing
    (∀ b, b ≤ 1 → (s .writing).hears 6 1 (replyBytes 1 0x81 (b1 6 ++ packed 4 51200734 ++ packed 3 b))
      (.issue 51200734 b)) ∧
      (DeskEvent.issue 51200734 1).sender = some .issue ∧ ((stationHall .collect .writing .writing).station 1).role ≠ .issue ∧
      ((s .writing).station 1).role = .issue ∧ ({ s .writing with roster := [] }).activeLookup 51200734 = none ∧
      (s .timeUp).activeLookup 51200734 =
        some (511, { person 51200734 2 .timeUp (some 0) with booklets := [34] }) ∧
      mapGet ({ s .writing with booklets := [(1, ⟨9, false⟩)] }).booklets 1 = some ⟨9, false⟩ := by
  refine ⟨fun b h => ⟨rfl, b1 6 ++ packed 4 51200734 ++ packed 3 b, ?_⟩, by decide +kernel⟩
  match b, h with
  | 0, _ => decide +kernel
  | 1, _ => decide +kernel

theorem test_hyp_return :
    let s := stationHall .collect .collecting .timeUp
    let e := { person 51200734 2 .timeUp (some 0) with booklets := [34] }
    let body := b1 7 ++ packed 3 34
    (s.line 6).exchange = some ⟨1, .poll⟩ ∧ readReply (replyBytes 1 0x81 body) = some (1, 0x81, body) ∧
      readEvent body = some (.hand 34) ∧ (s.station 1).role = .collect ∧ mapGet s.booklets 34 = some ⟨511, false⟩ ∧
      s.entry 511 = some e ∧ 34 ∈ e.booklets ∧ e.state = .timeUp ∧ (s.chan e.channel).state ≠ .releasing := by
  decide +kernel

/-- A RETURN turned away: serial 000000, one not in the table, one returned, a candidate still writing, a RELEASING channel.
-/
theorem test_hyp_return_turned :
    let s := stationHall .collect
    (∀ b, b ≤ 1 → (s .writing .writing).hears 6 1 (replyBytes 1 0x81 (b1 7 ++ packed 3 b)) (.hand b)) ∧
      mapGet (s .writing .writing).booklets 1 = none ∧
      mapGet ({ s .writing .writing with booklets := [(34, ⟨511, true⟩)] }).booklets 34 = some ⟨511, true⟩ ∧
      mapGet (s .writing .writing).booklets 34 = some ⟨511, false⟩ ∧
      ((s .writing .writing).entry 511).any (fun e => e.state.isSeated) = true ∧
      ((s .releasing .collected).entry 511).any (fun e => e.state.isSeated) = false ∧
      ((s .releasing .collected).chan 2).state = .releasing := by
  refine ⟨fun b h => ⟨rfl, b1 7 ++ packed 3 b, ?_⟩, by decide +kernel⟩
  match b, h with
  | 0, _ => decide +kernel
  | 1, _ => decide +kernel

/-- R128, R135: the second return of a serial is counted, and the first counts its owner in. -/
theorem test_return_twice :
    let s := stationHall .collect .collecting .timeUp
    let bytes := replyBytes 1 0x81 (b1 7 ++ packed 3 34)
    let t := after (.lineReplyReceived 6 bytes) s
    (t.entry 511).map Entry.state = some .collected ∧ (t.chan 2).state = .reconciled ∧
      (after (.lineReplyReceived 6 bytes) { s with booklets := [(34, ⟨511, true⟩)] }).bookletStats = ⟨0, 0, 1⟩ := by
  decide +kernel

theorem test_hyp_poll_outcomes :
    let s := fun n => { hallWith .opened .expected none .free with
      lines := [(0, { presentLine 1 with exchange := some ⟨1, .poll⟩, addrs := [(1, ⟨.present, n, 0, false⟩)] })] }
    ((s 1).line 0).exchange = some ⟨1, .poll⟩ ∧ (s 1).presence 0 1 = .present ∧ (((s 1).line 0).addr 1).missed = 1 ∧
      (((s 2).line 0).addr 1).missed = 2 ∧ readReply (replyBytes 1 0x81 (b1 0)) = some (1, 0x81, b1 0) ∧
      readEvent (b1 0) = some .idle := by decide +kernel

/-- The other exchanges: a sweep under an OCCUPIED seat, a discovery of a LOST desk, a CLOCK frame and a NOTE. -/
theorem test_hyp_other_outcomes :
    let s := hallWith .writing .writing (some 0) (.occupied 511)
    let x := .clock (s.clockContent 0) true
    ((flying s (.discover true)).line 0).exchange = some ⟨1, .discover true⟩ ∧ s.configured 0 1 = true ∧
      s.presence 0 1 = .present ∧ (s.seat (seatIndex 0 1)).occ.slot ≠ none ∧
      (let u := { s with lines := [(0, { Line.fresh with
        exchange := some ⟨1, .discover false⟩
        addrs := [(1, ⟨.lost, 0, 0, false⟩)] })] }
      u.presence 0 1 ≠ .present ∧ u.configured 0 1 = true ∧ (u.line 0).exchange = some ⟨1, .discover false⟩) ∧
      ((flying s x).line 0).exchange = some ⟨1, x⟩ ∧ ((flying s x).line 0).state = .active ∧
      readReply (replyBytes 1 0x82 []) = some (1, 0x82, []) ∧
      ((flying s (.note .blank)).line 0).exchange = some ⟨1, .note .blank⟩ := by decide +kernel

/-- The three outcomes of each exchange: no good reply in an empty frame, a good one to each. -/
theorem test_hyp_three_outcomes (a : Nat) (k : ExchangeKind) :
    Exchange.endsBy ⟨a, k⟩ 0 (.lineReplyReceived 0 []) .badCheck ∧ Exchange.endsBy ⟨a, k⟩ 0 (.replyWindowClose 0) .silent ∧
      (∀ again, Exchange.endsBy ⟨1, .discover again⟩ 0 (.lineReplyReceived 0 (replyBytes 1 0x81 [0#8])) .good) ∧
      (∀ c again, Exchange.endsBy ⟨1, .clock c again⟩ 0 (.lineReplyReceived 0 (replyBytes 1 0x82 [])) .good) ∧
      (∀ c, Exchange.endsBy ⟨1, .note c⟩ 0 (.lineReplyReceived 0 (replyBytes 1 0x82 [])) .good) ∧
      ∀ i, Exchange.endsBy ⟨1, .test i⟩ 0 (.lineReplyReceived 0 (replyBytes 1 0x85 [0#8, 0#8])) .good := by
  have idle : readReply (replyBytes 1 0x81 [0#8]) = some (1, 0x81, [0#8]) := by decide +kernel
  have ack : readReply (replyBytes 1 0x82 []) = some (1, 0x82, []) := by decide +kernel
  have echo : readReply (replyBytes 1 0x85 [0#8, 0#8]) = some (1, 0x85, [0#8, 0#8]) := by decide +kernel
  exact ⟨⟨[], rfl, fun ⟨_, _, h, _⟩ => by cases h⟩, rfl, fun _ => ⟨_, rfl, 0x81, [0#8], idle, rfl, by decide +kernel⟩,
    fun _ _ => ⟨_, rfl, 0x82, [], ack, rfl, rfl⟩, fun _ => ⟨_, rfl, 0x82, [], ack, rfl, rfl⟩,
    fun _ => ⟨_, rfl, 0x85, [0#8, 0#8], echo, rfl, rfl⟩⟩

/-- R100, R121: the third bad check in a row makes a desk LOST. -/
theorem test_bad_check_counts :
    let s := fun n => { hallWith .opened .expected none .free with
      lines := [(0, { presentLine 1 with exchange := some ⟨1, .poll⟩, addrs := [(1, ⟨.present, n, 0, false⟩)] })] }
    let t := fun n => after (.lineReplyReceived 0 (replyBytes 1 0x81 [9#8])) (s n)
    ((t 1).line 0).stats.badCheck = 1 ∧ (((t 1).line 0).addr 1).missed = 2 ∧ (t 2).presence 0 1 = .lost := by decide +kernel

/-- R99, R100: a sweep's DISCOVER and a TEST frame count too. The third miss makes the address LOST: by a sweep with
DESK_LOST, and ABSENT then by R104; by a wiring test with none. -/
theorem test_every_exchange_counts :
    let s := fun (x : LineState) (k : ExchangeKind) (n : Nat) => { hallWith .opened .expected none .free with
      lines := [(0, { presentLine 1 with
        state := x
        exchange := some ⟨1, k⟩
        cursor := if x = .testing then 1 else 2
        test := { TestProgress.blank with addr := 1, pattern := 2 }
        addrs := [(1, ⟨.present, n, 0, false⟩)] })] }
    let t := fun x k n => after (.replyWindowClose 0) (s x k n)
    (t .waking (.discover true) 1).office.flags = [] ∧ (t .waking (.discover true) 2).office.flags = [.deskLost] ∧
      (t .waking (.discover true) 2).presence 0 1 = .absent ∧ (((t .testing (.test 2) 1).line 0).addr 1).missed = 2 ∧
      (t .testing (.test 2) 2).presence 0 1 = .lost ∧ (t .testing (.test 2) 2).office.flags = [] := by decide +kernel

theorem test_hyp_broadcast_and_interval :
    let s := { State.reset with lines := [(0, { Line.fresh with
      state := .quiet
      exchange := some ⟨0, .broadcast .blank⟩ }), (5, { Line.fresh with timer := 250, discovery := 15 })] }
    let u := flying (hallWith .writing .writing (some 0) (.occupied 511)) (.broadcast .blank)
    (s.line 0).exchange = some ⟨0, .broadcast .blank⟩ ∧ (s.line 0).state = .quiet ∧ (s.line 0).blankDue = false ∧
      s.intervalDue 5 = true ∧ (s.line 5).state = .active ∧ u.canonical = true ∧ u.seatsAgree = true ∧
      u.linesLawful = true ∧ (u.line 0).state = .active := by decide +kernel

/-- R72's table, row by row: the desk of a candidate with 1440 s left and a warning pending, and of the other seats. -/
theorem test_clock_content :
    let s := fun (x : ChanState) (e : EntryState) (budget : Nat) (hold : Bool) => { hallWith x e (some 0) (.occupied 511) with
      time := { State.reset.time with holdPin := hold }
      warnings := [(511, 600)]
      channels := [(2, { channel 7 x with
        config := { (channel 7 x).config with reading := 300 }
        readElapsed := 120 })]
      roster := [(511, { person 51200734 2 e (some 0) with allowed := 4800, written := 3360, remaining := budget })] }
    (s .opened .seated 30 false).clockContent 0 =
        ⟨.clock, some .waiting, some 300, some .none, none, some false, some 600, some 734⟩ ∧
      (s .reading .seated 30 false).clockContent 0 =
        ⟨.clock, some .reading, some 180, some .remaining, none, some false, some 600, some 734⟩ ∧
      (s .writing .writing 30 true).clockContent 0 =
        ⟨.clock, some .writing, some 1440, some .none, none, some true, some 600, some 734⟩ ∧
      (s .overtime .onBreak 30 false).clockContent 0 =
        ⟨.clock, some .onBreak, some 1440, some .budget, some 30, some false, some 600, some 734⟩ ∧
      (s .overtime .onBreak 0 false).clockContent 0 =
        ⟨.clock, some .onBreak, some 1440, some .remaining, some 0, some false, some 600, some 734⟩ ∧
      (hallWith .opened .allocated (some 0) (.held 511 9)).clockContent 0 =
        ⟨.reserved, none, none, none, none, none, none, some 734⟩ ∧
      (hallWith .opened .expected none (.clearing 9)).clockContent 0 =
        ⟨.blank, none, none, none, none, none, none, none⟩ := by decide +kernel

/-- R191: NOT_READY, no hold, ACQUIRING, hall time 0, every line ACTIVE, every channel FREE, no record, slot or commit. -/
theorem test_status_at_reset : State.reset.statusBytes = 1#8 :: List.replicate 32 0#8 := by decide +kernel

/-- 12.4: the response to READ_TABLE has kind 0x81. -/
theorem test_response_kind : responseKind 0x01#8 = 0x81#8 ∧ responseKind 0x7F#8 = 0xFF#8 := by decide +kernel

/-- The rungs of the arbiter, each with a line on which the ones before it have nothing to send. -/
theorem test_hyp_arbiter :
    let s := hallWith .writing .writing (some 0) (.occupied 511)
    let n := fun (w : Int) (due : Bool) => { Line.fresh with
      exchange := some ⟨0, .broadcast .blank⟩
      addrs := [(1, ⟨.present, 0, w, due⟩)] }
    let u := fun (x : Line) => { s with lines := [(0, x)] }
    1 ∈ (u (n 9 false)).configuredAddrs 0 ∧ (u (n 9 false)).presence 0 1 = .present ∧
      (u { n 8 false with marks := [1] }).markServed 0 = some 1 ∧
      (u { n 8 false with fifo := [⟨2, .blank⟩, ⟨1, .unknown⟩] }).noteGoes 0 ⟨2, .blank⟩ = false ∧
      (u { n 8 false with fifo := [⟨2, .blank⟩, ⟨1, .unknown⟩] }).noteGoes 0 ⟨1, .unknown⟩ = true ∧
      ((u (n 1 false)).line 0).fifo = [] ∧ (((u (n 0 true)).line 0).addr 1).due = true ∧
      (((u (n (-7) false)).line 0).addr 1).owed = -7 ∧ (((u (n (-8) false)).line 0).addr 1).owed = -8 := by
  decide +kernel

theorem test_hyp_line_commands :
    let s := hallWith .opened .expected none .free
    (s.line 6).state = .active ∧ s.lineInUse 6 = false ∧ s.lineInUse 0 = false ∧ (s.line 0).exchange = none ∧
      0 + 1 ∈ s.configuredAddrs 0 ∧ s.presence 0 1 ≠ .faulty ∧
      (({ s with lines := [(0, { presentLine 1 with state := .quiet })] }).line 0).state = .quiet ∧
      ((flying s .poll).line 0).exchange ≠ none := by decide +kernel

/-- A wiring test at its first and at its fourth pattern, the fourth echo correct, with one and with two addresses. -/
theorem test_hyp_wiring_test :
    let s := fun (i : Nat) => { reseatHall .writing (.occupied 511) with lines := [(0, { presentLine 2 with
      state := .testing
      exchange := some ⟨1, .test i⟩
      cursor := 1
      test := { TestProgress.blank with addr := 1, pattern := i, correct := i, replies := i } })] }
    let n := (s 3).line 0
    n.state = .testing ∧ n.exchange = some ⟨1, .test 3⟩ ∧ n.test.addr = 1 ∧ n.test.pattern = 3 ∧ n.cursor = 1 ∧
      1 ∈ (s 3).configuredAddrs 0 ∧ 2 ∈ (s 3).configuredAddrs 0 ∧ n.test.correct = 3 ∧
      ((s 0).line 0).exchange = some ⟨1, .test 0⟩ ∧
      (let echo := be 2 (testEcho 1 (BitVec.ofNat 16 (testPattern 1 3))).toNat
      readReply (replyBytes 1 0x85 echo) = some (1, 0x85, echo)) ∧
      (hallWith .opened .expected none .free).configuredAddrs 0 = [1] := by decide +kernel

theorem test_hyp_desk_clear :
    let s := { hallWith .opened .expected none .free with lines := [(0, { Line.fresh with addrs := [(1, ⟨.faulty, 0, 0, false⟩)] })] }
    s.configured 0 1 = true ∧ s.presence 0 1 = .faulty ∧ s.configured 0 64 = false ∧
      (hallWith .opened .expected none .free).presence 0 1 = .present := by decide +kernel

theorem test_hyp_sheet_start :
    let s := { hallWith .opened .expected none .free with intake := { State.reset.intake with rx := .outside } }
    s.intake.rx = .outside ∧ (if s.office.ready then s.intake.emptySlot else none) = some 0 := by decide +kernel

/-- A whole sheet frame with two values, its CRC good. -/
def sheetBytes : List Byte := withCrc (be 2 513 ++ b1 0 ++ b1 30 ++ b1 230 ++ be 2 2 ++ [35#8, 200#8])

theorem test_hyp_frame_end :
    let s := { hallWith .opened .expected none .free with intake := { State.reset.intake with
      rx := .receiving 3
      slots := [(3, { Slot.blank with state := .receiving })] } }
    s.intake.rx = .receiving 3 ∧ sheetWhole sheetBytes = true ∧ sheetGood sheetBytes = true ∧
      sheetGood (sheetBytes.take 10 ++ [0#8]) = false := by decide +kernel

/-- R139, R140, R188: of 1721 values that arrive 1720 stand, and the mid-sheet overrun is counted and raised. -/
theorem test_mid_sheet_overrun :
    let s := fun n => after (.sheetGapLimit (be 2 513 ++ b1 0 ++ b1 30 ++ b1 230 ++ be 2 1721 ++ List.replicate n 35#8))
      { hallWith .opened .expected none .free with intake := { State.reset.intake with
        rx := .receiving 3
        slots := [(3, { Slot.blank with state := .receiving })] } }
    ((s 1720).intake.slot 3).overrun = false ∧ (s 1720).office.notices = [] ∧ ((s 1721).intake.slot 3).overrun = true ∧
      (s 1721).intake.stats.midOverruns = 1 ∧ (s 1721).office.notices = [⟨.overrun true 513, 0⟩] := by decide +kernel

theorem test_hyp_receivers :
    ({ State.reset.intake with rx := .overrun true }).rx = .overrun true ∧ State.reset.intake.rx = .awaitQuiet ∧
      ({ State.reset.intake with rx := .abandoned }).rx = .abandoned := by decide +kernel

/-- The marking unit at a sheet of slot 3, its work `m`. -/
def markingHall (m : Marking) : State :=
  { hallWith .collecting .collected none .free with intake := { State.reset.intake with
      rx := .outside
      slots := [(3, { Slot.blank with state := .scoring, good := true })]
      marking := some m } }

/-- A column of a grid with digit `d` marked. -/
def gridColumn (d : Nat) : List Byte := (List.range 10).map fun i => if i = d then 230#8 else 30#8

/-- The marking unit has just taken the sheet of candidate 51200734, paper 7, form 0, with two questions of two options. -/
def takenHall : State :=
  { hallWith .collecting .collected none .free with intake := { State.reset.intake with
      rx := .outside
      slots := [(3, { Slot.blank with
        state := .scoring
        good := true
        white := 30
        black := 230
        declared := 124
        values := [5, 1, 2, 0, 0, 7, 3, 4, 0, 0, 0, 7].flatMap gridColumn ++ [230#8, 30#8, 30#8, 30#8] })]
      marking := some (Marking.take 3 ⟨true, 2, 2, 0⟩) } }

theorem test_hyp_check7 :
    takenHall.intake.marking = some (Marking.take 3 ⟨true, 2, 2, 0⟩) ∧
      takenHall.readsSheet (takenHall.intake.slot 3) ⟨true, 2, 2, 0⟩ 51200734 7 ∧ takenHall.papers 7 2 ∧
      ∀ c, c < 16 → ({ takenHall with channels := [(2, channel 8 .collecting)] }.chan c).state = .free ∨
        ({ takenHall with channels := [(2, channel 8 .collecting)] }.chan c).config.paper ≠ 7 := by
  unfold State.readsSheet State.papers; decide +kernel

/-- R159: the row at check 7 resolves the channel, and with no channel of the paper number fails NO_CHANNEL. -/
theorem test_sheet_channel_resolved :
    ((after (.sheetChannelResolved 7) takenHall).intake.slot 3).resolved = some 2 ∧
      (after (.sheetChannelResolved 12) { takenHall with channels := [] }).intake.marking.bind Marking.failed =
        some .noChannel := by decide +kernel

theorem test_hyp_completion :
    let m := { Marking.take 3 ⟨true, 2, 2, 0⟩ with made := 14, paper := 7, channel := some 2, entry := some 511 }
    let n := { Marking.take 3 ⟨true, 2, 2, 0⟩ with failed := some .badFrame }
    (markingHall m).intake.marking = some m ∧ m.willPlace = true ∧ m.slot ∉ (markingHall m).intake.arrivals ∧
      (markingHall m).canonical = true ∧ n.willPlace = true ∧ (markingHall n).intake.marking = some n ∧
      (markingHall n).canonical = true := by decide +kernel

/-- R155: a PENDING commit begins when the sheet resolved to its channel completes. -/
theorem test_pending_commit_begins :
    let m := { Marking.take 3 ⟨true, 2, 2, 0⟩ with made := 14, paper := 7, channel := some 2, entry := some 511 }
    let s := { markingHall m with channels := [(2, { channel 7 .collecting with stage := .pending })] }
    s.canonical = true ∧ (s.chan 2).stage = .pending ∧ ((after .sheetCompletion s).chan 2).stage = .running 0 := by
  decide +kernel

/-- The sheet of `takenHall` passes every check at its completion. -/
theorem test_hyp_whole_completion :
    3 ∉ takenHall.intake.arrivals ∧ takenHall.canonical = true ∧
      (takenHall.chan 2).config.form = (takenHall.intake.slot 3).form ∧
      takenHall.channelLookup 51200734 2 = some (511, person 51200734 2 .collected none) ∧
      (takenHall.chan 2).state ≠ .releasing ∧ (takenHall.chan 2).stage = .idle ∧
      takenHall.log.records.length < 256 := by decide +kernel

/-- The sheet of `takenHall` with its slot record changed by `g`, its candidate's entry `e`, and channel 2 `c`. -/
def rejectHall (g : Slot → Slot) (e : Entry) (c : Channel) : State :=
  { takenHall with
    roster := [(511, e)]
    channels := [(2, c)]
    intake := { takenHall.intake with slots := [(3, g (takenHall.intake.slot 3))] } }

/-- A sheet for each check that can fail, and one that finds the log full. -/
theorem test_hyp_rejects :
    let f : Form := ⟨true, 2, 2, 0⟩
    let e := person 51200734 2 .collected none
    let c := channel 7 .collecting
    let s := fun g => rejectHall g e c
    let u := fun s : State => s.intake.slot 3
    let r := fun s : State => s.Rejects (u s)
    let full := { s id with
      log := ⟨List.replicate 256 ⟨1, 1, 0, .reject, .badFrame, false, none, none, none, none, none⟩, 257, true⟩ }
    let other := { c with config := { c.config with form := 1 } }
    r (s fun t => { t with good := false }) f .badFrame none none none ∧
      r (s id) { f with defined := false } .formUnknown none none none ∧
      r (s fun t => { t with overrun := true }) f .overrun none none none ∧
      r (s fun t => { t with declared := 125 }) f .formMismatch none none none ∧
      r (s fun t => { t with black := 30 }) f .calFault none none none ∧
      r (s fun t => { t with values := t.values.set 0 230#8 }) f .idUnreadable none none none ∧
      r (s fun t => { t with values := t.values.set 81 230#8 }) f .paperUnreadable (some 51200734) none none ∧
      r (rejectHall id e (channel 8 .collecting)) f .noChannel (some 51200734) none none ∧
      r (rejectHall id e other) f .formMismatch (some 51200734) (some 2) none ∧
      r (rejectHall id (person 5 2 .collected none) c) f .notOnRoster (some 51200734) (some 2) none ∧
      r (rejectHall id e (channel 7 .releasing)) f .channelClosed (some 51200734) (some 2) (some 511) ∧
      r (rejectHall id (person 51200734 2 .timeUp none) c) f .notCollected (some 51200734) (some 2) (some 511) ∧
      r (rejectHall id { e with result := .scored } c) f .duplicateSheet (some 51200734) (some 2) (some 511) ∧
      r full f .logFull (some 51200734) (some 2) (some 511) := by
  refine ⟨.badFrame ?_, .formUnknown ?_ ?_, .overrun ?_ ?_, .wrongSize ?_ ?_ ?_, .calFault ?_ ?_, .idUnreadable ?_ ?_ ?_,
    .paperUnreadable _ ?_ ?_ ?_ ?_, .noChannel _ 7 ?_ ?_, .wrongForm _ 7 _ ?_ ?_, .notOnRoster _ 7 _ ?_ ?_ ?_,
    .channelClosed _ 7 _ _ (person 51200734 2 .collected none) ?_ ?_,
    .notCollected _ 7 _ _ (person 51200734 2 .timeUp none) ?_ ?_ ?_,
    .duplicateSheet _ 7 _ _ { person 51200734 2 .collected none with result := .scored } ?_ ?_ ?_ ?_,
    .logFull _ 7 _ _ (person 51200734 2 .collected none) ?_ ?_ ?_ ?_ ?_ ?_⟩ <;>
  first
  | (intro j; exact CommitStage.noConfusion)
  | (unfold State.finds State.resolves State.readsSheet State.papers; decide +kernel)
  | (unfold State.resolves State.readsSheet State.papers; decide +kernel)
  | (unfold State.readsSheet; decide +kernel)
  | (unfold Slot.sized Slot.formed; decide +kernel)
  | (unfold Slot.formed; decide +kernel)
  | (unfold State.calibrates; decide +kernel)
  | decide +kernel

/-- The status and the roster slot of the records that the completion of a sheet of `rejectHall` leaves. -/
def rejection (g : Slot → Slot) (e : Entry) : List (Status × Option Nat) :=
  (after .sheetCompletion (rejectHall g e (channel 7 .collecting))).log.records.map fun x => (x.status, x.slot)

/-- R159, R166: the statuses of three rejections, and the slot that each record carries. -/
theorem test_rejections :
    let e := person 51200734 2 .collected none
    rejection (fun t => { t with black := 30 }) e = [(.calFault, none)] ∧
      rejection id (person 5 2 .collected none) = [(.notOnRoster, none)] ∧
      rejection id { e with result := .scored } = [(.duplicateSheet, some 511)] := by decide +kernel

/-- A full log, and a sheet that has failed, or whose frame was bad. -/
theorem test_hyp_log_full :
    let s := { markingHall { Marking.take 3 ⟨true, 2, 2, 0⟩ with failed := some .logFull } with
      log := ⟨List.replicate 256 ⟨1, 1, 0, .reject, .badFrame, false, none, none, none, none, none⟩, 257, true⟩ }
    let u := { s with intake := { takenHall.intake with slots := [(3, { Slot.blank with state := .scoring })] } }
    s.canonical = true ∧ s.intake.marking.bind Marking.failed = some .logFull ∧ s.log.armed = true ∧
      256 ≤ u.log.records.length ∧ u.canonical = true ∧ (u.intake.slot 3).good = false := by decide +kernel

theorem test_hyp_key_commit :
    ((hallWith .loaded .expected none .free).chan 2).stage = .idle ∧
      ((hallWith .loaded .expected none .free).chan 2).state ≠ .free ∧
      (({ State.reset with channels := [(15, { channel 7 .loaded with stage := .running 20 })] }).chan 15).stage =
        .running 20 ∧
      (({ State.reset with channels := [(15, { channel 7 .loaded with stage := .running 19 })] }).chan 15).stage =
        .running 19 := by decide +kernel

theorem test_hyp_frames_sent :
    ({ State.reset.intake with tx := .head }).tx = .head ∧ ({ State.reset.office with tx := .notice }).tx = .notice ∧
      ({ State.reset.office with tx := .response }).tx = .response := by decide +kernel

theorem test_hyp_darkness : (30 : Nat) < 230 := by decide

theorem test_hyp_group_class :
    let ds := [85, 85, 0]
    ds[0]? = some 85 ∧ (∀ i, i < 3 → ∀ d ∈ ds[i]?, d ≤ 85) ∧ (1 ≠ 0 ∧ ds[1]? = some 85) := by decide +kernel

theorem test_hyp_bad_office_frames :
    (hallWith .opened .expected none .free).office.awaitQuiet = false ∧ beVal ([0#8, 1#8].take 2) < 2 ∧
      1024 < beVal ([4#8, 1#8].take 2) ∧
      (let bytes := [0#8, 2#8, 4#8, 9#8, 0#8, 0#8]
      beVal (bytes.take 2) + 4 ≤ bytes.length ∧
        (bytes.drop (beVal (bytes.take 2) + 2)).take 2 ≠
          be 2 (crc16 (bytes.take (beVal (bytes.take 2) + 2))).toNat) := by decide +kernel

theorem test_hyp_request_bytes :
    (Instr.hallTimeSet 7 3600).wf = true ∧
      (Instr.hallTimeSet 7 3600).request = some (7#8, 0x03#8, [13#8, 0x00#8, 0x0E#8, 0x10#8]) := by decide +kernel

theorem test_hyp_discarded_requests :
    ({ State.reset.office with resetPending := true }).resetPending = true ∧ State.reset.office.resetPending = false ∧
      State.reset.office.awaitQuiet = true ∧ (hallWith .opened .expected none .free).office.awaitQuiet = false ∧
      (Instr.readKeys 7 0 1).request = some (7#8, 0x01#8, tableHead 9 0 1) ∧
      8 ≤ (List.replicate 8 (⟨0, 4, .ok, []⟩ : Response)).length := by decide +kernel

theorem test_hyp_read_table :
    tableSpan 12 = some (0, 392) ∧ (State.reset.entriesBytes 12 376 16 392).length ≤ 1021 ∧ 376 + 16 ≤ 392 ∧
      tableSpan 13 = none ∧ tableSpan 3 = some (1, 9) ∧ 0 < 1 ∧ 392 < 377 + 16 ∧ tableSpan 9 = some (0, 3200) ∧
      3200 < 3185 + 16 := by decide +kernel

/-- More bytes than one response carries: sixteen roster entries with a seat, a fixed seat and eight booklets each. -/
theorem test_hyp_read_too_long :
    let s := { State.reset with roster := (List.range 16).map fun k =>
      (k, { person k 2 .writing (some 0) with fixed := some 0, booklets := List.replicate 8 1 }) }
    1021 < (s.entriesBytes 4 0 16 512).length := by decide +kernel

theorem test_hyp_write_hall :
    let w : HallWrite := ⟨List.replicate 6 149, 50, 60, 0, 100, 1, List.replicate 16 1⟩
    w.seatPoll.length = 6 ∧ w.masks.length = 16 := by decide +kernel

theorem test_hyp_write_seats :
    let s := hallWith .opened .expected none .free
    let ws : List SeatWrite := [⟨1, 63, 63, 0, 0⟩, ⟨1, 63, 62, 1, 1⟩]
    (∀ w ∈ ws, w.configured ≤ 1 ∧ w.row ≤ 63 ∧ w.column ≤ 63 ∧ w.accessible ≤ 1 ∧ w.service ≤ 1) ∧
      (∀ j, j < ws.length → (s.seat (382 + j)).occ.slot = none) ∧ 382 + ws.length ≤ 384 ∧
      sharesPosition (s.seatsAfter 382 ws) = false := by decide +kernel

theorem test_hyp_write_roster :
    let s := hallWith .loaded .expected none .free
    (∀ e ∈ s.entry 511, e.state = .expected ∧ e.booklets = [] ∧
      ((s.chan e.channel).state = .loaded ∨ (s.chan e.channel).state = .opened)) ∧
      (s.chan 2).state = .loaded ∧ s.duplicates 511 99999999 2 = false ∧ s.conflicts 511 99999999 2 = false ∧
      s.entry 510 = none ∧ s.entry 509 = none ∧ s.duplicates 509 5 2 = false := by decide +kernel

theorem test_hyp_write_channels :
    let w : ChannelWrite := ⟨9999, 0, 0, [⟨0, 63, 0, 63⟩], 1, 2, 1, some 86399, none, 1800, 14400, 3600, 0, 0, [3600, 60]⟩
    let s := hallWith .loaded .expected none .free
    w.inRange = true ∧ (s.chan 2).state = .loaded ∧ (s.form w.form).defined = true ∧
      (s.profile w.profile).defined = true ∧ s.paperTaken 2 w.paper = false ∧ (s.chan 15).state = .free := by
  decide +kernel

theorem test_hyp_write_forms_and_profiles :
    let s := hallWith .free .expected none .free
    s.formUsed 3 = false ∧ (s.profile 0).defined = true ∧ s.profileUsed 3 = false ∧ s.gridUsed 3 = false ∧
      ProfileWrite.inRange ⟨1, 99, 100, 100, 1, 200, 255⟩ = true ∧ ProfileWrite.inRange ⟨0, 0, 1, 1, 0, 0, 10⟩ = true := by
  decide +kernel

theorem test_hyp_write_keys :
    let s := hallWith .loaded .expected none .free
    let w : KeyWrite := ⟨[1, 0], 60, 60, 0⟩
    (s.chan 2).state ≠ .free ∧ (s.chan 2).stage = .idle ∧
      w.inRange 2 (s.form (s.chan 2).config.form).questions (s.form (s.chan 2).config.form).options = true := by
  decide +kernel

/-- A busy line with room, one without, and one QUIET; a desk occupied by the channel; nothing past seat 383. -/
theorem test_hyp_desk_message :
    let s := flying (hallWith .writing .writing (some 0) (.occupied 511)) .poll
    let n := { Line.fresh with fifo := List.replicate 16 ⟨1, .blank⟩ }
    s.canonical = true ∧ s.seats.all (fun p => decide (p.1 < 384)) = true ∧ s.occupiedBy 0 2 = true ∧
      (s.line 0).exchange ≠ none ∧ (s.line 0).takesNote = true ∧ n.takesNote = false ∧
      { n with state := .quiet, fifo := [] }.takesNote = false ∧ (s.seat 0).configured = true ∧
      (s.seat 383).configured = false := by decide +kernel

/-- A busy ACTIVE line and a busy QUIET one, with a mark and a warning listed. -/
theorem test_hyp_reset_sittings :
    let n := { presentLine 1 with exchange := some ⟨1, .poll⟩, marks := [1] }
    let s := { hallWith .writing .writing (some 0) (.occupied 511) with
      warnings := [(511, 600)]
      lines := [(0, n), (1, { n with state := .quiet, marks := [] }), (6, { Line.fresh with interval := 100 })] }
    s.canonical = true ∧ (s.line 0).exchange ≠ none ∧ (s.line 0).state = .active ∧ (s.line 1).exchange ≠ none ∧
      (s.line 1).state = .quiet ∧ mapGet s.warnings 511 = some 600 := by decide +kernel

theorem test_hyp_outputs : ∃ t, exec .powerOn State.reset = .next t := ⟨_, rfl⟩

/-- A READY part and a command that leaves it so; READY falls with the end of the last response after RESET_ALL. -/
theorem test_hyp_ready_stands :
    let s := hallWith .opened .expected none .free
    let u := { s with office := { s.office with
      resetPending := true, responses := [⟨0#8, 4#8, .ok, []⟩], tx := .response } }
    s.office.ready = true ∧ (after .officeLinkQuietReached s).office.ready = true ∧
      (after .officeFrameSent u).office.ready = false := by decide +kernel

/-- A state past reset that meets every law, with a command waiting. -/
theorem test_hyp_laws :
    let s := { hallWith .writing .writing (some 0) (.occupied 511) with pending := [.timeUp 511] }
    s.canonical = true ∧ s.linesLawful = true ∧ s.queuesFit = true ∧ s.logFits = true ∧ s.rosterLawful = true := by
  decide +kernel

end Sys2Proof.Tests
end

