-- ==== Sys2Proof/Proofs/HallTimeSet.lean ====
section
/-! PROOF. HALL_TIME_SET (R25): its answer in each of its two ranges, and the request built on that answer. -/

namespace Sys2Proof.Machine

/-- A request whose answer is known before it is taken: the request answers it and leaves what its owner leaves. -/
theorem State.takeCommand_leaves {s u : State} {k : List Part} {code : Code} {out : List Byte} (tag : Byte)
    (f : State → Answer) (h : s.takesRequest) (hf : f s.countFrame = ⟨code, out, u⟩) (hm : Moves k s.countFrame u)
    (h1 : .responses ∉ k := by decide) (h2 : .framesIn ∉ k := by decide) :
    Answered s (s.takeCommand tag f).settle tag 0x03#8 code out ∧
      Unchanged (.responses :: .framesIn :: k) s (s.takeCommand tag f).settle ∧
      (s.takeCommand tag f).settle.time = u.time := by
  have taken : s.takeCommand tag f = u.respond ⟨tag, 0x03#8, code, out⟩ := State.takeRequest_eq h hf
  rw [taken]
  exact ⟨.taken hm tag 0x03#8 code out h1 h2, .taken hm _, by simp⟩

/-- The wrap of hall time at midnight, said as the statements say it (R24). -/
theorem TimeBase.second_hallTime (t : TimeBase) : t.second.hallTime = nextHallTime t.hallTime := by
  rw [TimeBase.second, nextHallTime, Config.lastHallSecond]
  by_cases last : t.hallTime < 86399
  · rw [if_pos last, if_neg (Nat.not_le_of_lt last)]
  · rw [if_neg last, if_pos (Nat.le_of_not_lt last)]

theorem State.hallTimeSet_of_lt (s : State) {v : Nat} (h : v < 86400) :
    s.hallTimeSet v = (s.onTime fun t => { t with hallTime := v }).done := by
  have inDay : ¬Config.lastHallSecond < v := by rw [Config.lastHallSecond]; omega
  rw [State.hallTimeSet, if_neg inDay, State.unless]

theorem State.hallTimeSet_of_le (s : State) {v : Nat} (h : 86400 ≤ v) : s.hallTimeSet v = s.refuse .range := by
  have pastDay : Config.lastHallSecond < v := by rw [Config.lastHallSecond]; omega
  rw [State.hallTimeSet, if_pos pastDay, State.unless]

theorem exec_hallTimeSet (tag : Byte) (v : Nat) (s : State) :
    exec (.hallTimeSet tag v) s = .next (s.takeCommand tag fun t => t.hallTimeSet v).settle := rfl

/-- Settles O8: in range the owner only writes hall time, past it the owner refuses; either answer goes through the
request as it stands. -/
theorem hallTimeSetReplacesHallTime : Obligations.HallTimeSetReplacesHallTime := by
  intro tag v s h
  refine ⟨_, exec_hallTimeSet tag v s, ?_⟩
  by_cases inDay : v < 86400
  · rw [if_pos inDay]
    obtain ⟨answered, unchanged, time⟩ :=
      State.takeCommand_leaves tag (·.hallTimeSet v) h (State.hallTimeSet_of_lt s.countFrame inDay)
        (.onTime s.countFrame _)
    rw [State.onTime_time, State.countFrame_time] at time
    refine ⟨answered, time, ?_, unchanged.weaken (by decide)⟩
    rw [TimeBase.second_hallTime, time, nextHallTime]
  · rw [if_neg inDay]
    obtain ⟨answered, unchanged, -⟩ :=
      State.takeCommand_leaves tag (·.hallTimeSet v) h
        (State.hallTimeSet_of_le s.countFrame (Nat.le_of_not_lt inDay)) (.refl (k := []) s.countFrame)
    exact ⟨answered, unchanged⟩

end Sys2Proof.Machine
end

