-- ==== Sys2Proof/Proofs/Darkness.lean ====
section
/-! PROOF. Calibration and darkness (R157): the darkness in each of its three ranges, its bound, and its rise. -/

namespace Sys2Proof.Machine

theorem State.makeCheck_calibration (s : State) (t : Slot) (m : Marking) :
    s.makeCheck t m 4 =
      if t.white < t.black ∧ (s.profile m.grid).span ≤ t.black - t.white then .inl m else .inr .calFault := rfl

theorem darkness_of_le_white {w k v : Nat} (h : v ≤ w) : darkness w k v = 0 := by
  rw [darkness, if_pos h]

theorem darkness_of_black_le {w k v : Nat} (hw : w < v) (hk : k ≤ v) : darkness w k v = 100 := by
  rw [darkness, if_neg (Nat.not_le_of_lt hw), if_pos hk]

theorem darkness_between {w k v : Nat} (hw : w < v) (hk : v < k) : darkness w k v = (v - w) * 100 / (k - w) := by
  rw [darkness, if_neg (Nat.not_le_of_lt hw), if_neg (Nat.not_le_of_lt hk)]

/-- Between the levels the bound is that of a share: `v - w` is at most the span `k - w`. -/
theorem darkness_le_hundred (w k v : Nat) : darkness w k v ≤ 100 := by
  rcases Nat.lt_or_ge w v with aboveWhite | atWhite
  · rcases Nat.lt_or_ge v k with belowBlack | atBlack
    · rw [darkness_between aboveWhite belowBlack]
      have inSpan : v - w ≤ k - w := Nat.sub_le_sub_right (Nat.le_of_lt belowBlack) w
      exact Nat.div_le_of_le_mul (Nat.mul_le_mul_right 100 inSpan)
    · rw [darkness_of_black_le aboveWhite atBlack]
  · rw [darkness_of_le_white atWhite]
    exact Nat.zero_le 100

/-- The lower value at white has the least darkness and the higher at black the greatest; otherwise both lie between
the levels, where the rounded share rises with its numerator. -/
theorem darkness_mono (w k : Nat) {v v' : Nat} (h : v ≤ v') : darkness w k v ≤ darkness w k v' := by
  rcases Nat.lt_or_ge w v with aboveWhite | atWhite
  · have aboveWhite' : w < v' := Nat.lt_of_lt_of_le aboveWhite h
    rcases Nat.lt_or_ge v' k with belowBlack' | atBlack'
    · have belowBlack : v < k := Nat.lt_of_le_of_lt h belowBlack'
      rw [darkness_between aboveWhite belowBlack, darkness_between aboveWhite' belowBlack']
      exact Nat.div_le_div_right (Nat.mul_le_mul_right 100 (Nat.sub_le_sub_right h w))
    · rw [darkness_of_black_le aboveWhite' atBlack']
      exact darkness_le_hundred w k v
  · rw [darkness_of_le_white atWhite]
    exact Nat.zero_le _

/-- Settles O37: check 4 is the test itself, and the three ranges of darkness give its bound and its rise. A value at
black is above white because black is. -/
theorem darknessRisesFromWhiteToBlack : Obligations.DarknessRisesFromWhiteToBlack := by
  refine ⟨fun t m s => s.makeCheck_calibration t m, fun w k calibrated => ?_⟩
  exact ⟨darkness_le_hundred w k, fun _ => darkness_of_le_white,
    fun _ atBlack => darkness_of_black_le (Nat.lt_of_lt_of_le calibrated atBlack) atBlack,
    fun _ => darkness_between, fun _ _ => darkness_mono w k⟩

end Sys2Proof.Machine
end

section
/-! PROOF. What one step can do, said once: the answer of each request's owner, and the event of each command. The laws that
every step keeps are proved from these two lists. -/

namespace Sys2Proof.Machine

set_option Elab.async false

/-! ## Requests -/

/-- The answers that the owners of requests give on part `s`. -/
inductive State.Serves (s : State) : Answer → Prop where
  | refuse (c : Code) : s.Serves (s.refuse c)
  | read (t first n : Nat) : s.Serves (s.read t first n)
  | writeHall (first : Nat) (ws : List HallWrite) : s.Serves (s.writeHall first ws)
  | writeSeats (first : Nat) (ws : List SeatWrite) : s.Serves (s.writeSeats first ws)
  | writeStations (first : Nat) (ws : List StationWrite) : s.Serves (s.writeStations first ws)
  | writeRoster (first : Nat) (ws : List RosterWrite) : s.Serves (s.writeRoster first ws)
  | writeChannels (first : Nat) (ws : List ChannelWrite) : s.Serves (s.writeChannels first ws)
  | writeClasses (first : Nat) (ws : List ClassWrite) : s.Serves (s.writeClasses first ws)
  | writeForms (first : Nat) (ws : List FormWrite) : s.Serves (s.writeForms first ws)
  | writeProfiles (first : Nat) (ws : List ProfileWrite) : s.Serves (s.writeProfiles first ws)
  | writeKeys (first : Nat) (ws : List KeyWrite) : s.Serves (s.writeKeys first ws)
  | writeMessages (first : Nat) (ws : List (List Byte)) : s.Serves (s.writeMessages first ws)
  | writeSignals (first : Nat) (ws : List SignalWrite) : s.Serves (s.writeSignals first ws)
  | status : s.Serves s.status
  | readFlags : s.Serves s.readFlags
  | readStats (g : Nat) (clear : Bool) : s.Serves (s.readStats g clear)
  | readResults (start most : Nat) : s.Serves (s.readResults start most)
  | releaseResults (upto : Nat) : s.Serves (s.releaseResults upto)
  | readHistogram (c : Nat) : s.Serves (s.readHistogram c)
  | deskMessage (x : DeskTarget) (m : Nat) : s.Serves (s.deskMessage x m)
  | channelLoad (c : Nat) : s.Serves (s.channelLoad c)
  | channelOpen (c : Nat) : s.Serves (s.channelOpen c)
  | channelStart (c : Nat) : s.Serves (s.channelStart c)
  | channelHold (c : Nat) (h : Bool) : s.Serves (s.channelHold c h)
  | amendNow (c v : Nat) : s.Serves (s.amendNow c v)
  | amendAtMinute (c v : Nat) : s.Serves (s.amendAtMinute c v)
  | channelClose (c : Nat) : s.Serves (s.channelClose c)
  | channelTeardown (c : Nat) : s.Serves (s.channelTeardown c)
  | keyCommit (c : Nat) : s.Serves (s.keyCommit c)
  | hallHold (h : Bool) : s.Serves (s.hallHold h)
  | hallTimeSet (v : Nat) : s.Serves (s.hallTimeSet v)
  | reseat (k i : Nat) : s.Serves (s.reseat k i)
  | candidateFinish (k : Nat) : s.Serves (s.candidateFinish k)
  | deskClear (l a : Nat) : s.Serves (s.deskClear l a)
  | lineQuiet (l : Nat) : s.Serves (s.lineQuiet l)
  | lineWake (l : Nat) : s.Serves (s.lineWake l)
  | lineTest (l : Nat) : s.Serves (s.lineTest l)
  | lineReset (l : Nat) : s.Serves (s.lineReset l)
  | statsClear : s.Serves s.statsClear
  | resetSittings : s.Serves s.resetSittings
  | resetAll : s.Serves s.resetAll

theorem State.Serves.withEntries {α : Type} {s : State} (ws : Option (List α)) {f : List α → Answer}
    (h : ∀ w, s.Serves (f w)) : s.Serves (s.withEntries ws f) := by
  cases ws with
  | none => exact .refuse _
  | some w => exact h w

theorem State.Serves.withArgs {α : Type} {s : State} (p : Parse α) (bs : List Byte) {f : α → Answer}
    (h : ∀ a, s.Serves (f a)) : s.Serves (s.withArgs p bs f) := by
  unfold State.withArgs
  split
  · exact h _
  · exact .refuse _

theorem State.serves_writeEntries (s : State) (t first n : Nat) (bs : List Byte) :
    s.Serves (s.writeEntries t first n bs) := by
  unfold State.writeEntries
  split
  · exact .withEntries _ (.writeHall first)
  · exact .withEntries _ (.writeSeats first)
  · exact .withEntries _ (.writeStations first)
  · exact .withEntries _ (.writeRoster first)
  · exact .withEntries _ (.writeChannels first)
  · exact .withEntries _ (.writeClasses first)
  · exact .withEntries _ (.writeForms first)
  · exact .withEntries _ (.writeProfiles first)
  · exact .withEntries _ (.writeKeys first)
  · exact .withEntries _ (.writeMessages first)
  · exact .withEntries _ (.writeSignals first)
  · exact .refuse _

theorem State.serves_write (s : State) (t first n : Nat) (bs : List Byte) : s.Serves (s.write t first n bs) := by
  unfold State.write
  split
  · exact .refuse _
  · split
    · exact .refuse _
    · exact s.serves_writeEntries t first n bs

theorem State.serves_command (s : State) (n : Nat) (bs : List Byte) : s.Serves (s.command n bs) := by
  unfold State.command
  split
  · exact .withArgs _ bs .channelLoad
  · exact .withArgs _ bs .channelOpen
  · exact .withArgs _ bs .channelStart
  · exact .withArgs _ bs fun c => .channelHold c true
  · exact .withArgs _ bs fun c => .channelHold c false
  · exact .withArgs _ bs fun a => .amendNow a.1 a.2
  · exact .withArgs _ bs fun a => .amendAtMinute a.1 a.2
  · exact .withArgs _ bs .channelClose
  · exact .withArgs _ bs .channelTeardown
  · exact .withArgs _ bs .keyCommit
  · exact .withArgs _ bs fun _ => .hallHold true
  · exact .withArgs _ bs fun _ => .hallHold false
  · exact .withArgs _ bs .hallTimeSet
  · exact .withArgs _ bs fun a => .reseat a.1 a.2
  · exact .withArgs _ bs .candidateFinish
  · exact .withArgs _ bs fun a => .deskClear a.1 a.2
  · exact .withArgs _ bs .lineQuiet
  · exact .withArgs _ bs .lineWake
  · exact .withArgs _ bs .lineTest
  · exact .withArgs _ bs .lineReset
  · exact .withArgs _ bs fun _ => .statsClear
  · exact .withArgs _ bs fun _ => .resetSittings
  · exact .withArgs _ bs fun _ => .resetAll
  · exact .refuse _

/-- Whatever bytes a request carries, its answer is one of the owners'. -/
theorem State.serves_serve (s : State) (kind : Nat) (bs : List Byte) : s.Serves (s.serve kind bs) := by
  unfold State.serve
  split
  · exact .withArgs _ bs fun a => .read a.1 a.2.1 a.2.2
  · split
    · exact s.serves_write _ _ _ _
    · exact .refuse _
  · split
    · exact s.serves_command _ _
    · exact .refuse _
  · exact .withArgs _ bs fun _ => .status
  · exact .withArgs _ bs fun _ => .readFlags
  · refine .withArgs _ bs fun a => ?_
    split
    · exact .refuse _
    · exact .readStats _ _
  · exact .withArgs _ bs fun a => .readResults a.1 a.2
  · exact .withArgs _ bs .releaseResults
  · exact .withArgs _ bs .readHistogram
  · exact .withArgs _ bs fun a => .deskMessage a.1 a.2
  · exact .refuse _

/-! ## Events -/

/-- The time base takes the clocks to the 1 ms tick, with the HOLDIN sample, before the other consumers of the tick. -/
def State.tickTime (s : State) (low : Bool) (o : TickOrder) : State :=
  (s.missingFirst o).onTime fun b => b.toTick.divide.debounce low

/-- TICK_1MS without what follows at once. -/
def State.tick (s : State) (low : Bool) (n : Nat) (o : TickOrder) : State :=
  (((s.tickTime low o).tickLines.onIntake Intake.tick).tickCommits.tickTail n o).missingTest o

/-- What a command other than POWER_ON and OFFICE_FRAME_SENT does to part `s` before what follows at once. -/
inductive State.Work (s : State) : State → Prop where
  | idle : s.Work s
  | tick (low : Bool) (n : Nat) (o : TickOrder) : s.Work (s.tick low n o)
  | secondTick (o : TickOrder) : s.Work (s.secondTick o)
  | edgeAt (phase : Nat) (o : TickOrder) : s.Work (s.edgeAt phase o)
  | missingFirst (o : TickOrder) : s.Work (s.missingFirst o)
  | timedAttempt (c : Nat) : s.admissionDue c = true → s.Work ((s.timedAttempt c).giveTick none)
  | timedStart (c : Nat) : s.startDue c = true → s.Work ((s.startChannel c).giveTick none)
  | writingStart (c : Nat) : s.readingOver c = true → s.Work (s.startWriting c)
  | applyPending (c : Nat) : s.amendmentDue c = true → s.Work (s.applyPending c)
  | closeOnce (c : Nat) : s.closeDue c = true → s.Work (s.closeOnce c)
  | secondBase (c : Nat) : s.Work (s.secondBase c)
  | timeUp (k : Nat) : s.timeUpDue k = true → s.Work (s.depart k .timeUp)
  | exhaust (k : Nat) : s.budgetDue k = true → s.Work (s.exhaust k)
  | expire (i k : Nat) : (s.seat i).occ = .held k 0 → s.Work (s.expire i k)
  | endClearing (i : Nat) : (s.seat i).occ = .clearing 0 → s.Work (s.endClearing i)
  | changePin : s.Work s.changePin
  | endInterval (l : Nat) : s.Work (s.endInterval l)
  | lineReply (l : Nat) (bytes : List Byte) : s.Work (s.lineReply l bytes)
  | windowClose (l : Nat) : s.Work (s.windowClose l)
  | broadcastEnd (l : Nat) : s.Work (s.broadcastEnd l)
  | sheetStart : s.Work s.sheetStart
  | sheetEnd (bytes : List Byte) : s.Work (s.sheetEnd bytes)
  | sheetGap (bytes : List Byte) : s.Work (s.sheetGap bytes)
  | endOverrun (bytes : List Byte) : s.Work (s.endOverrun bytes)
  | advance (reach : Nat) : s.Work (s.advance reach)
  | complete : s.Work s.complete
  | endCommit (c n : Nat) : (s.chan c).stage = .running n → s.Work (s.endCommit c)
  | verdictSent : s.Work (s.onIntake Intake.sent)
  | discard : s.Work s.discard
  | request (tag kind : Byte) (f : State → Answer) : (∀ t : State, t.Serves (f t)) → s.Work (s.takeRequest tag kind f)
  | sheetQuiet : s.Work s.sheetQuiet
  | officeQuiet : s.Work s.officeQuiet
  | endAbandoned : s.Work s.endAbandoned

theorem State.Work.ite {s t : State} {c : Prop} [Decidable c] (h : c → s.Work t) : s.Work (if c then t else s) := by
  by_cases x : c
  · simpa [x] using h x
  · simpa [x] using State.Work.idle

theorem State.work_officeEnd (s : State) (bytes : List Byte) : s.Work (s.officeEnd bytes) := by
  unfold State.officeEnd
  split
  · exact .idle
  · dsimp only
    split
    · exact .discard
    · split
      · exact .idle
      · split
        · split
          · exact .request _ _ _ fun t => t.serves_serve _ _
          · exact .idle
        · exact .discard

/-- The next state is what the part's own work leaves, once what follows at once has followed. -/
def State.Works (s : State) (x : Host.Outcome State Fault Refusal) : Prop := ∃ u, s.Work u ∧ x = .next u.settle

theorem State.Work.works {s u : State} (h : s.Work u) : s.Works (.next u.settle) := ⟨u, h, rfl⟩

/-- Every command but two is work followed by what follows at once. -/
theorem exec_works (i : Instr) (s : State) (up : i ≠ .powerOn) (sent : i ≠ .officeFrameSent) : s.Works (exec i s) := by
  cases i with
  | powerOn => exact absurd rfl up
  | tick1ms low n o => exact (State.Work.tick low n o).works
  | dividerTick o => exact (State.Work.ite fun _ => .secondTick o).works
  | refsecEdge phase o => exact (State.Work.edgeAt phase o).works
  | missingEdgeJudgement o => exact (State.Work.missingFirst o).works
  | timedAdmission c => exact (State.Work.ite (.timedAttempt c)).works
  | timedStart c => exact (State.Work.ite (.timedStart c)).works
  | writingStart c => exact (State.Work.ite (.writingStart c)).works
  | deferredAmendment c => exact (State.Work.ite (.applyPending c)).works
  | admissionClose c => exact (State.Work.ite (.closeOnce c)).works
  | baseEnd c => exact (State.Work.secondBase c).works
  | timeUp k => exact (State.Work.ite (.timeUp k)).works
  | budgetExhaustion k => exact (State.Work.ite (.exhaust k)).works
  | seatingExpiry i =>
    refine State.Work.works (s := s) ?_
    split
    · exact .expire i _ ‹_›
    · exact .idle
  | clearingEnd i =>
    refine State.Work.works (s := s) ?_
    split
    · exact .endClearing i ‹_›
    · exact .idle
  | holdinChange => exact (State.Work.ite fun _ => .changePin).works
  | intervalEnd l => exact (State.Work.ite fun _ => .endInterval l).works
  | lineReplyReceived l bytes => exact (State.Work.lineReply l bytes).works
  | replyWindowClose l => exact (State.Work.windowClose l).works
  | broadcastEnd l => exact (State.Work.broadcastEnd l).works
  | sheetFrameStart => exact State.Work.sheetStart.works
  | sheetFrameEnd bytes => exact (State.Work.sheetEnd bytes).works
  | sheetGapLimit bytes => exact (State.Work.sheetGap bytes).works
  | overrunFrameEnd bytes => exact (State.Work.endOverrun bytes).works
  | sheetChannelResolved reach => exact (State.Work.advance _).works
  | sheetCompletion => exact State.Work.complete.works
  | keyCommitEnd c =>
    refine State.Work.works (s := s) ?_
    split
    · exact .ite fun _ => .endCommit c _ ‹_›
    · exact .idle
  | verdictSent => exact State.Work.verdictSent.works
  | officeFrameEnd bytes => exact (s.work_officeEnd bytes).works
  | officeGapLimit =>
    refine State.Work.works (s := s) ?_
    unfold State.officeGap
    split
    · exact .idle
    · exact .discard
  | officeFrameSent => exact absurd rfl sent
  | undefinedRequest tag kind payload => exact (State.Work.request tag _ _ fun t => t.serves_serve _ _).works
  | readTable tag t first n => exact (State.Work.request tag _ _ fun _ => .read t first n).works
  | readKeys tag first n => exact (State.Work.request tag _ _ fun _ => .read 9 first n).works
  | writeTable tag t first n payload => exact (State.Work.request tag _ _ fun u => u.serves_write t first n payload).works
  | writeHall tag first ws => exact (State.Work.request tag _ _ fun _ => .writeHall first ws).works
  | writeSeats tag first ws => exact (State.Work.request tag _ _ fun _ => .writeSeats first ws).works
  | writeStations tag first ws => exact (State.Work.request tag _ _ fun _ => .writeStations first ws).works
  | writeRoster tag first ws => exact (State.Work.request tag _ _ fun _ => .writeRoster first ws).works
  | writeChannels tag first ws => exact (State.Work.request tag _ _ fun _ => .writeChannels first ws).works
  | writeClasses tag first ws => exact (State.Work.request tag _ _ fun _ => .writeClasses first ws).works
  | writeForms tag first ws => exact (State.Work.request tag _ _ fun _ => .writeForms first ws).works
  | writeProfiles tag first ws => exact (State.Work.request tag _ _ fun _ => .writeProfiles first ws).works
  | writeKeys tag first ws => exact (State.Work.request tag _ _ fun _ => .writeKeys first ws).works
  | writeMessages tag first ws => exact (State.Work.request tag _ _ fun _ => .writeMessages first ws).works
  | writeSignals tag first ws => exact (State.Work.request tag _ _ fun _ => .writeSignals first ws).works
  | readStatus tag => exact (State.Work.request tag _ _ fun _ => .status).works
  | readFlags tag => exact (State.Work.request tag _ _ fun _ => .readFlags).works
  | readStats tag g clear => exact (State.Work.request tag _ _ fun _ => .readStats g clear).works
  | readResults tag start most => exact (State.Work.request tag _ _ fun _ => .readResults start most).works
  | releaseResults tag upto => exact (State.Work.request tag _ _ fun _ => .releaseResults upto).works
  | readHistogram tag c => exact (State.Work.request tag _ _ fun _ => .readHistogram c).works
  | deskMessage tag x m => exact (State.Work.request tag _ _ fun _ => .deskMessage x m).works
  | channelLoad tag c => exact (State.Work.request tag _ _ fun _ => .channelLoad c).works
  | channelOpen tag c => exact (State.Work.request tag _ _ fun _ => .channelOpen c).works
  | channelStart tag c => exact (State.Work.request tag _ _ fun _ => .channelStart c).works
  | channelHold tag c => exact (State.Work.request tag _ _ fun _ => .channelHold c true).works
  | channelResume tag c => exact (State.Work.request tag _ _ fun _ => .channelHold c false).works
  | amendNow tag c v => exact (State.Work.request tag _ _ fun _ => .amendNow c v).works
  | amendAtMinute tag c v => exact (State.Work.request tag _ _ fun _ => .amendAtMinute c v).works
  | channelClose tag c => exact (State.Work.request tag _ _ fun _ => .channelClose c).works
  | channelTeardown tag c => exact (State.Work.request tag _ _ fun _ => .channelTeardown c).works
  | keyCommit tag c => exact (State.Work.request tag _ _ fun _ => .keyCommit c).works
  | hallHold tag => exact (State.Work.request tag _ _ fun _ => .hallHold true).works
  | hallResume tag => exact (State.Work.request tag _ _ fun _ => .hallHold false).works
  | hallTimeSet tag v => exact (State.Work.request tag _ _ fun _ => .hallTimeSet v).works
  | reseat tag k i => exact (State.Work.request tag _ _ fun _ => .reseat k i).works
  | candidateFinish tag k => exact (State.Work.request tag _ _ fun _ => .candidateFinish k).works
  | deskClear tag l a => exact (State.Work.request tag _ _ fun _ => .deskClear l a).works
  | lineQuiet tag l => exact (State.Work.request tag _ _ fun _ => .lineQuiet l).works
  | lineWake tag l => exact (State.Work.request tag _ _ fun _ => .lineWake l).works
  | lineTest tag l => exact (State.Work.request tag _ _ fun _ => .lineTest l).works
  | lineReset tag l => exact (State.Work.request tag _ _ fun _ => .lineReset l).works
  | statsClear tag => exact (State.Work.request tag _ _ fun _ => .statsClear).works
  | resetSittings tag => exact (State.Work.request tag _ _ fun _ => .resetSittings).works
  | resetAll tag => exact (State.Work.request tag _ _ fun _ => .resetAll).works
  | sheetPortQuietReached => exact State.Work.sheetQuiet.works
  | officeLinkQuietReached => exact State.Work.officeQuiet.works
  | abandonedFrameEnd => exact State.Work.endAbandoned.works

/-- What a command does to part `s` before what follows at once. -/
inductive State.Event (s : State) : State → Prop where
  | powerUp : s.Event s.powerUp
  | officeSent : s.Event s.officeSent
  | work {u : State} : s.Work u → s.Event u

/-- The next state is what an event leaves, once what follows at once has followed. -/
def State.Leaves (s : State) (x : Host.Outcome State Fault Refusal) : Prop := ∃ u, s.Event u ∧ x = .next u.settle

/-- Every command is an event followed by what follows at once. -/
theorem exec_leaves (i : Instr) (s : State) : s.Leaves (exec i s) := by
  by_cases up : i = .powerOn
  · subst up; exact ⟨_, .powerUp, rfl⟩
  · by_cases sent : i = .officeFrameSent
    · subst sent; exact ⟨_, .officeSent, rfl⟩
    · obtain ⟨u, work, next⟩ := exec_works i s up sent
      exact ⟨u, .work work, next⟩

/-- A step idles, or is an event of the part with the rest of its queue, and what follows at once. -/
theorem step_cases {s t : State} (h : step s = .next t) :
    t = s ∨ ∃ p u, (s.waiting p).Event u ∧ t = u.settle := by
  unfold step at h
  split at h
  · exact .inl (Host.Outcome.next.inj h).symm
  · obtain ⟨u, event, leaves⟩ := exec_leaves _ _
    rw [leaves] at h
    exact .inr ⟨_, u, event, (Host.Outcome.next.inj h).symm⟩

end Sys2Proof.Machine
end

section
/-! PROOF. Every step keeps canonical tables, lawful lines and the capacities of the queues and the log. -/

namespace Sys2Proof.Machine

set_option Elab.async false

/-! ## Canonical tables and lawful lines -/

/-- From `s` to `t` the tables keep their canonical form and the lines their laws. -/
structure FormKept (s t : State) : Prop where
  canonical : s.canonical = true → t.canonical = true
  lawful : s.linesLawful = true → t.linesLawful = true

theorem FormKept.refl (s : State) : FormKept s s := ⟨id, id⟩

theorem FormKept.trans {s t u : State} (h : FormKept s t) (g : FormKept t u) : FormKept s u :=
  ⟨fun x => g.canonical (h.canonical x), fun x => g.lawful (h.lawful x)⟩

theorem Moves.form {k : List Part} {s t : State} (h : Moves k s t) : FormKept s t := ⟨h.canonical, h.lawful⟩

theorem FormKept.onOffice (s : State) (f : Office → Office) : FormKept s (s.onOffice f) := ⟨id, id⟩

theorem FormKept.onStats (s : State) (l : Nat) (f : LineStats → LineStats) : FormKept s (s.onStats l f) :=
  (Moves.onStats s l f).form

theorem FormKept.clearGroup (s : State) (g : Nat) : FormKept s (s.clearGroup g) := by
  unfold State.clearGroup
  split
  · exact ⟨id, id⟩
  · exact ⟨id, id⟩
  · exact .onOffice s _
  · exact .onStats s _ _

theorem FormKept.read (s : State) (t first n : Nat) : FormKept s (s.read t first n).state := by
  unfold State.read
  split
  · exact .refl s
  · dsimp only
    split
    · exact .refl s
    · split
      · exact .refl s
      · split
        · exact .refl s
        · split
          · exact ⟨id, id⟩
          · exact .refl s

theorem FormKept.readStats (s : State) (g : Nat) (clear : Bool) : FormKept s (s.readStats g clear).state := by
  unfold State.readStats
  split
  · exact .refl s
  · cases clear
    · exact .refl s
    · exact .clearGroup s g

theorem State.readResults_state (s : State) (start most : Nat) : (s.readResults start most).state = s := by
  unfold State.readResults
  dsimp only
  split
  · rfl
  · split <;> rfl

theorem State.readHistogram_state (s : State) (c : Nat) : (s.readHistogram c).state = s := by
  unfold State.readHistogram
  split <;> rfl

theorem Moves.lineQuiet (s : State) (l : Nat) : Moves [] s (s.lineQuiet l).state :=
  .unless _ (.ite (fun _ => .refl s) fun _ => .goQuiet s l)

theorem Moves.channelLoad (s : State) (c : Nat) : Moves [.channels, .flags, .notices] s (s.channelLoad c).state :=
  .unless _ (((Moves.onChan s c _ fun _ => rfl).widen).next (.enterPhase _ c _))

/-- What the owner of a request leaves keeps the form of the part. -/
theorem State.Serves.form {s : State} {a : Answer} (h : s.Serves a) : FormKept s a.state := by
  cases h with
  | refuse c => exact .refl s
  | read t first n => exact .read s t first n
  | writeHall first ws => exact (Moves.writeHall s first ws).form
  | writeSeats first ws => exact (Moves.writeAll s _ _ first ws _ _ Moves.putSeat).form
  | writeStations first ws => exact (Moves.writeAll s _ _ first ws _ _ Moves.putStation).form
  | writeRoster first ws => exact (Moves.writeEach s _ _ first ws _ _ Moves.putRoster).form
  | writeChannels first ws => exact (Moves.writeEach s _ _ first ws _ _ Moves.putChannel).form
  | writeClasses first ws => exact (Moves.writeAll s _ _ first ws _ _ Moves.putClass).form
  | writeForms first ws => exact (Moves.writeAll s _ _ first ws _ _ Moves.putForm).form
  | writeProfiles first ws => exact (Moves.writeAll s _ _ first ws _ _ Moves.putProfile).form
  | writeKeys first ws => exact (Moves.writeKeys s first ws).form
  | writeMessages first ws => exact (Moves.writeAll s _ _ first ws _ _ Moves.putMessage).form
  | writeSignals first ws => exact (Moves.writeAll s _ _ first ws _ _ Moves.putSignal).form
  | status => exact .refl s
  | readFlags => exact ⟨id, id⟩
  | readStats g clear => exact .readStats s g clear
  | readResults start most => rw [State.readResults_state]; exact .refl s
  | releaseResults upto => exact (Moves.releaseResults s upto).form
  | readHistogram c => rw [State.readHistogram_state]; exact .refl s
  | deskMessage x m => exact (Moves.deskMessage s x m).form
  | channelLoad c => exact (Moves.channelLoad s c).form
  | channelOpen c => exact (Moves.channelOpen s c).form
  | channelStart c => exact (Moves.unless _ (.startChannel s c)).form
  | channelHold c h => exact (Moves.unless _ (.setHold s c h)).form
  | amendNow c v => exact (Moves.amendNow s c v).form
  | amendAtMinute c v => exact (Moves.amendAtMinute s c v).form
  | channelClose c => exact (Moves.channelClose s c).form
  | channelTeardown c => exact (Moves.channelTeardown s c).form
  | keyCommit c => exact (Moves.unless _ (.onChan s c _)).form
  | hallHold h => exact (Moves.changeHoldAnswer s h).form
  | hallTimeSet v => exact (Moves.unless _ (.onTime s _)).form
  | reseat k i => exact (Moves.reseat s k i).form
  | candidateFinish k => exact (Moves.unless _ (.depart s k _)).form
  | deskClear l a => exact (Moves.deskClear s l a).form
  | lineQuiet l => exact (Moves.lineQuiet s l).form
  | lineWake l => exact (Moves.unless _ (.goWaking s l)).form
  | lineTest l => exact (Moves.unless _ (.goTesting s l)).form
  | lineReset l => exact (Moves.unless _ (.restartLine s l)).form
  | statsClear => exact foldl_invariant (FormKept s) _ (fun t g h => h.trans (.clearGroup t g)) _ s (.refl s)
  | resetSittings => exact (Moves.resetSittings s).form
  | resetAll => exact ⟨id, id⟩

theorem FormKept.takeRequest (s : State) (tag kind : Byte) (f : State → Answer) (h : ∀ t : State, t.Serves (f t)) :
    FormKept s (s.takeRequest tag kind f) := by
  unfold State.takeRequest
  split
  · exact .refl s
  · dsimp only
    split
    · exact ⟨id, id⟩
    · exact FormKept.trans (t := (f s.countFrame).state)
        (FormKept.trans (t := s.countFrame) (.onOffice s _) (h _).form) (.onOffice _ _)

theorem FormKept.powerUp (s : State) : FormKept s s.powerUp :=
  ⟨fun _ => by show State.atPowerOn.canonical = true; decide, fun _ => by show State.atPowerOn.linesLawful = true; decide⟩

theorem FormKept.officeSent (s : State) : FormKept s s.officeSent := by
  unfold State.officeSent
  split
  · exact .refl s
  · exact .onOffice s _
  · dsimp only
    split
    · exact .powerUp _
    · exact .onOffice s _

theorem Moves.missingFirst (s : State) (o : TickOrder) :
    Moves [.time, .signals, .channels, .roster, .seats, .flags, .notices] s (s.missingFirst o) := by
  unfold State.missingFirst
  split
  · exact ((Moves.onTime s _).widen).next (.judgeMissing _ o)
  · exact .refl s

theorem Moves.tick (s : State) (low : Bool) (n : Nat) (o : TickOrder) :
    Moves [.intake, .time, .signals, .channels, .roster, .seats, .flags, .notices] s (s.tick low n o) := by
  have clock : Moves [.intake, .time, .signals, .channels, .roster, .seats, .flags, .notices] s (s.tickTime low o) :=
    ((Moves.missingFirst s o).widen).next (.onTime _ _)
  exact ((((clock.next (.tickLines _)).next (.intakeTick _)).next (.tickCommits _)).next (.tickTail _ n o)).next
    (.missingTest _ o)

theorem State.Event.form {s u : State} (h : s.Event u) : FormKept s u := by
  rcases h with _ | _ | work
  · exact .powerUp s
  · exact .officeSent s
  cases work with
  | idle => exact .refl s
  | tick low n o => exact (Moves.tick s low n o).form
  | secondTick o => exact (Moves.secondTick s o).form
  | edgeAt phase o => exact (Moves.edgeAt s phase o).form
  | missingFirst o => exact (Moves.missingFirst s o).form
  | timedAttempt c _ => exact ((Moves.timedAttempt s c).next (.giveTick _ _)).form
  | timedStart c _ => exact ((Moves.startChannel s c).next (.giveTick _ _)).form
  | writingStart c _ => exact (Moves.startWriting s c).form
  | applyPending c _ => exact (Moves.applyPending s c).form
  | closeOnce c _ => exact (Moves.closeOnce s c).form
  | secondBase c => exact (Moves.secondBase s c).form
  | timeUp k _ => exact (Moves.depart s k _).form
  | exhaust k _ => exact (Moves.exhaust s k).form
  | expire i k _ => exact (Moves.expire s i k).form
  | endClearing i _ => exact (Moves.endClearing s i).form
  | changePin => exact (Moves.changePin s).form
  | endInterval l => exact (Moves.endInterval s l).form
  | lineReply l bytes => exact (Moves.lineReply s l bytes).form
  | windowClose l => exact (Moves.windowClose s l).form
  | broadcastEnd l => exact (Moves.broadcastEnd s l).form
  | sheetStart => exact (Moves.sheetStart s).form
  | sheetEnd bytes => exact (Moves.sheetEnd s bytes).form
  | sheetGap bytes => exact (Moves.sheetGap s bytes).form
  | endOverrun bytes => exact (Moves.endOverrun s bytes).form
  | advance reach => exact (Moves.advance s reach).form
  | complete => exact (Moves.complete s).form
  | endCommit c n _ => exact (Moves.endCommit s c).form
  | verdictSent => exact (Moves.sent s).form
  | discard => exact (Moves.discard s).form
  | request tag kind f hf => exact .takeRequest s tag kind f hf
  | sheetQuiet => exact (Moves.sheetQuiet s).form
  | officeQuiet => exact .onOffice s _
  | endAbandoned => exact (Moves.endAbandoned s).form

theorem FormKept.step {s t : State} (h : step s = .next t) : FormKept s t := by
  rcases step_cases h with rfl | ⟨p, u, event, rfl⟩
  · exact .refl _
  · have waiting : FormKept s (s.waiting p) := ⟨id, id⟩
    exact (waiting.trans event.form).trans (Moves.settle u).form

/-- Settles O57: each event keeps the canonical form, and so does what follows at once. -/
theorem everyStepKeepsTheTablesCanonical : Obligations.EveryStepKeepsTheTablesCanonical :=
  fun _ _ canonical next => (FormKept.step next).canonical canonical

/-- Distinct desks of one line are at most its 64 drop addresses. -/
theorem Line.marks_length_le {n : Line} (h : n.lawful = true) : n.marks.length ≤ 64 := by
  obtain ⟨nodup, inRange, -⟩ := (Line.lawful_iff n).mp h
  have sub : n.marks.toFinset ⊆ Finset.Icc 1 64 := fun a ha => by
    have := inRange a (List.mem_toFinset.mp ha)
    simpa using this
  calc n.marks.length = n.marks.toFinset.card := (List.toFinset_card_of_nodup nodup).symm
    _ ≤ (Finset.Icc 1 64).card := Finset.card_le_card sub
    _ = 64 := by simp

/-- Settles O58: each event keeps the laws of the lines; a line's marks are distinct drop addresses, of which there are 64. -/
theorem everyStepKeepsTheLinesLawful : Obligations.EveryStepKeepsTheLinesLawful :=
  ⟨fun _ _ lawful next => (FormKept.step next).lawful lawful, fun _ => Line.marks_length_le⟩

end Sys2Proof.Machine
end

section
namespace Sys2Proof.Machine

set_option Elab.async false

/-! ## Capacities -/

/-- The log holds at most 256 records, and fewer when the marking work `m` will place one more. -/
def ResultLog.roomFor (g : ResultLog) (m : Option Marking) : Prop :=
  g.records.length ≤ Config.logSize ∧ ∀ x, m = some x → x.willPlace = true → g.records.length < Config.logSize

/-- The overrun verdicts waiting are at most four, and the log has room for what the marking work will place. -/
def State.storeFits (s : State) : Prop :=
  s.intake.overrunsWaiting ≤ 4 ∧ s.log.roomFor s.intake.marking

/-- The queues of the office link keep their capacities. -/
def State.linkFits (s : State) : Prop :=
  s.office.responses.length ≤ Config.responseQueueSize ∧ s.office.notices.length ≤ Config.noticeQueueSize

theorem State.fits_iff (s : State) :
    (s.queuesFit = true ∧ s.logFits = true) ↔ s.linkFits ∧ s.storeFits := by
  have room : s.logFits = true ↔ s.log.roomFor s.intake.marking := by
    unfold State.logFits ResultLog.roomFor
    cases s.intake.marking with
    | none => simp
    | some m => cases h : m.willPlace <;> simp [h]
  rw [room, State.queuesFit, State.linkFits, State.storeFits]
  simp only [Bool.and_eq_true, decide_eq_true_eq, and_assoc]

/-- A part that keeps its verdicts, its marking work and its log keeps its stores. -/
theorem State.storeFits_of_same {s t : State} (h : s.storeFits) (hi : Part.same s t .intake) (hl : t.log = s.log) :
    t.storeFits := by
  obtain ⟨-, -, -, verdicts, marking, -⟩ := hi
  rw [State.storeFits, Intake.overrunsWaiting, verdicts, marking, hl]
  exact h

theorem Moves.storeFits {k : List Part} {s t : State} (h : Moves k s t) (fits : s.storeFits)
    (h1 : Part.intake ∉ k := by decide) (h2 : Part.log ∉ k := by decide) : t.storeFits :=
  State.storeFits_of_same fits (h.frame.2 .intake h1) (h.frame.2 .log h2)

theorem Moves.linkFits {k : List Part} {s t : State} (h : Moves k s t) (fits : s.linkFits)
    (h1 : Part.responses ∉ k := by decide) : t.linkFits := by
  have same : t.office.responses = s.office.responses := h.frame.2 .responses h1
  exact ⟨by rw [same]; exact fits.1, h.notices fits.2⟩

/-! ### The marking unit -/

/-- A check that passes changes nothing of the work but what it has found. -/
theorem State.makeCheck_keeps {s : State} {t : Slot} {m m' : Marking} {i : Nat} (h : s.makeCheck t m i = .inl m') :
    m'.failed = m.failed ∧ m'.slot = m.slot ∧ m'.made = m.made := by
  unfold State.makeCheck at h
  split at h <;> (repeat' split at h) <;> cases h <;> exact ⟨rfl, rfl, rfl⟩

theorem State.makeCheck_last {s : State} {t : Slot} {m m' : Marking} (h : s.makeCheck t m 14 = .inl m') :
    s.log.records.length < Config.logSize := by
  simp only [State.makeCheck] at h
  split at h
  · assumption
  · cases h

theorem State.failure_room {s : State} {x : Status} (h : s.failure x ≠ .logFull) :
    s.log.records.length < Config.logSize := by
  unfold State.failure at h
  split at h
  · assumption
  · exact absurd rfl h

theorem Marking.willPlace_of_failed {m : Marking} {x : Status} (h : m.failed = some x) :
    m.willPlace = true ↔ x ≠ .logFull := by simp [Marking.willPlace, h]

theorem Marking.willPlace_of_working {m : Marking} (h : m.failed = none) : m.willPlace = true ↔ m.made = 14 := by
  simp [Marking.willPlace, h]

/-- A check that ends the work with a record to place has found room for it. -/
theorem State.nextCheck_room {s : State} {t : Slot} {reach i : Nat} {m : Marking}
    (h : m.willPlace = true → s.log.records.length < Config.logSize)
    (placed : (s.nextCheck t reach m i).willPlace = true) : s.log.records.length < Config.logSize := by
  unfold State.nextCheck at placed
  split at placed
  · exact h placed
  · rename_i unmade
    have working : m.failed = none := by
      cases hf : m.failed with
      | none => rfl
      | some x => simp [hf] at unmade
    split at placed
    · rename_i m' made
      have failed : m'.failed = none := (State.makeCheck_keeps made).1.trans working
      have last : i = 14 := (Marking.willPlace_of_working (m := { m' with made := i }) failed).mp placed
      subst last
      exact State.makeCheck_last made
    · exact State.failure_room ((Marking.willPlace_of_failed rfl).mp placed)

theorem State.advance_log (s : State) (reach : Nat) : (s.advance reach).log = s.log :=
  (Moves.advance s reach).frame.2 .log (by decide)

/-- What the checks leave of the marking work. -/
def State.checked (s : State) (reach : Nat) (m : Marking) : Marking :=
  checkNumbers.foldl (s.nextCheck (s.intake.slot m.slot) reach) m

theorem State.advance_of_working {s : State} {m : Marking} (h : s.intake.marking = some m) (reach : Nat) :
    s.advance reach = s.onIntake fun t =>
      { t.onSlot m.slot fun r => { r with resolved := (s.checked reach m).channel } with
        marking := some (s.checked reach m) } := by
  rw [State.advance, h]; rfl

theorem State.advance_of_idle {s : State} (h : s.intake.marking = none) (reach : Nat) : s.advance reach = s := by
  rw [State.advance, h]

theorem State.advance_storeFits {s : State} (h : s.storeFits) (reach : Nat) : (s.advance reach).storeFits := by
  cases hm : s.intake.marking with
  | none => rw [State.advance_of_idle hm]; exact h
  | some m =>
    obtain ⟨overruns, held, room⟩ := h
    rw [State.advance_of_working hm]
    refine ⟨overruns, held, fun x hx placed => ?_⟩
    obtain rfl := Option.some.inj hx
    exact foldl_invariant (fun m : Marking => m.willPlace = true → s.log.records.length < Config.logSize) _
      (fun _ _ => State.nextCheck_room) _ m (room m hm) placed

theorem Intake.take_verdicts (t : Intake) (fs : PMap Form) : (t.take fs).verdicts = t.verdicts := by
  unfold Intake.take; split <;> rfl

/-- The sheet just taken has its checks still to make. -/
theorem Intake.take_marking (t : Intake) (fs : PMap Form) :
    (t.take fs).marking = t.marking ∨ ∃ n f, (t.take fs).marking = some (Marking.take n f) := by
  unfold Intake.take
  split
  · exact .inr ⟨_, _, rfl⟩
  · exact .inl rfl

theorem State.takeSheet_storeFits {s : State} (h : s.storeFits) : s.takeSheet.storeFits := by
  obtain ⟨overruns, held, room⟩ := h
  refine ⟨?_, held, fun x hx placed => ?_⟩
  · show (s.intake.take s.forms).overrunsWaiting ≤ 4
    rw [Intake.overrunsWaiting, Intake.take_verdicts]; exact overruns
  · rcases s.intake.take_marking s.forms with same | ⟨n, f, taken⟩
    · exact room x (same.symm.trans hx) placed
    · have : x = Marking.take n f := Option.some.inj (hx.symm.trans taken)
      rw [this] at placed; exact absurd placed (by simp [Marking.willPlace, Marking.take])

theorem State.records_fullReject (s : State) (sheet : Nat) : (s.fullReject sheet).log.records = s.log.records := by
  unfold State.fullReject; split <;> rfl

theorem State.records_placeRecord (s : State) (r : ResultRecord) :
    (s.placeRecord r).log.records = s.log.records ++ [{ r with number := s.log.next, time := s.time.hallTime }] := by
  have high (u : State) : u.highTest.log = u.log := by unfold State.highTest; split <;> simp
  have band (u : State) : (u.countBand r).log = u.log := by unfold State.countBand; split <;> rfl
  rw [State.placeRecord, high, band]; rfl

/-- The status in which done work ends is LOG_FULL unless a record is to be placed. -/
theorem State.outcome_logFull {s : State} {t : Slot} {m : Marking} (done : m.failed.isSome = true ∨ m.made = 14)
    (h : (s.outcome t m).1 ≠ .logFull) : m.willPlace = true := by
  cases hf : m.failed with
  | none => exact (Marking.willPlace_of_working hf).mpr (by simpa [hf] using done)
  | some x => rw [State.outcome, hf] at h; exact (Marking.willPlace_of_failed hf).mpr h

theorem State.logSheet_length {s : State} {r : ResultRecord} (held : s.log.records.length ≤ Config.logSize)
    (room : r.status ≠ .logFull → s.log.records.length < Config.logSize) :
    (s.logSheet r).log.records.length ≤ Config.logSize := by
  unfold State.logSheet
  split
  · rw [State.records_fullReject]; exact held
  · rw [State.records_placeRecord, List.length_append]; exact room ‹_›

/-- The completion of done work places its record, for which there was room, and leaves no work. -/
theorem State.completeSheet_storeFits {s : State} {m : Marking} (h : s.storeFits) (hm : s.intake.marking = some m)
    (done : m.failed.isSome = true ∨ m.made = 14) : (s.completeSheet m).storeFits := by
  obtain ⟨overruns, held, room⟩ := h
  unfold State.completeSheet
  dsimp only
  apply State.takeSheet_storeFits
  refine (Moves.testGates _).storeFits ?_
  have logged : ∀ late, ((s.setResult m (s.outcome (s.intake.slot m.slot) m).1).logSheet
      (s.recordOf (s.intake.slot m.slot) m (s.outcome (s.intake.slot m.slot) m) late)).log.records.length ≤
        Config.logSize := fun late => by
    have same : (s.setResult m (s.outcome (s.intake.slot m.slot) m).1).log = s.log :=
      (Moves.setResult s m _).frame.2 .log (by decide)
    refine State.logSheet_length (by rw [same]; exact held) fun h => ?_
    rw [same]
    exact room m hm (State.outcome_logFull done h)
  have waits : ∀ u : State, u.intake = s.intake → ∀ v : VerdictFrame, v.startOverrun = false →
      ({ u.intake with verdicts := u.intake.verdicts ++ [v] } : Intake).overrunsWaiting ≤ 4 := fun u hu v hv => by
    rw [Intake.overrunsWaiting] at overruns
    rw [Intake.overrunsWaiting, hu]
    simpa [List.filter_append, hv] using overruns
  have kept (x : Status) (r : ResultRecord) : ((s.setResult m x).logSheet r).intake = s.intake := by
    unfold State.logSheet State.setResult State.fullReject State.placeRecord State.highTest State.countBand
    repeat' split
    all_goals simp
  split
  · refine (Moves.beginCommit _ _).storeFits ⟨?_, logged _, ?_⟩
    · exact waits _ (kept _ _) _ rfl
    · intro x hx; cases hx
  · refine ⟨?_, logged _, ?_⟩
    · exact waits _ (kept _ _) _ rfl
    · intro x hx; cases hx

theorem State.complete_storeFits {s : State} (h : s.storeFits) : s.complete.storeFits := by
  have fits := State.advance_storeFits h 14
  unfold State.complete
  dsimp only
  split
  · split
    · exact State.completeSheet_storeFits fits ‹_› ‹_›
    · exact fits
  · exact fits

theorem State.resumeSheet_storeFits {s : State} (h : s.storeFits) (c : Nat) : (s.resumeSheet c).storeFits := by
  unfold State.resumeSheet
  split
  · split
    · exact State.advance_storeFits h 14
    · exact h
  · exact h

theorem State.endCommit_storeFits {s : State} (h : s.storeFits) (c : Nat) : (s.endCommit c).storeFits :=
  State.resumeSheet_storeFits (s := s.onChan c Channel.commit) h c

theorem State.tickCommit_storeFits {s : State} (h : s.storeFits) (c : Nat) : (s.tickCommit c).storeFits := by
  unfold State.tickCommit
  split
  · dsimp only
    split
    · exact State.endCommit_storeFits (s := s.onChan c _) h c
    · exact h
  · exact h

/-! ### The intake -/

/-- A change of the intake that adds no verdict and leaves the marking work or none. -/
theorem State.onIntake_storeFits {s : State} (h : s.storeFits) (f : Intake → Intake)
    (hv : (f s.intake).overrunsWaiting ≤ 4) (hm : (f s.intake).marking = s.intake.marking ∨ (f s.intake).marking = none) :
    (s.onIntake f).storeFits := by
  refine ⟨hv, h.2.1, fun x hx => ?_⟩
  rcases hm with same | none
  · exact h.2.2 x (same.symm.trans hx)
  · exact absurd (none.symm.trans hx) (by simp)

theorem Intake.tick_keeps (t : Intake) : t.tick.verdicts = t.verdicts ∧ t.tick.marking = t.marking :=
  foldl_invariant (fun u : Intake => u.verdicts = t.verdicts ∧ u.marking = t.marking)
    (fun u n => u.onSlot n fun r =>
      if r.state = .waiting ∨ r.state = .scoring then { r with age := satUp 65535 r.age } else r)
    (fun _ _ h => h) slotNumbers t ⟨rfl, rfl⟩

theorem State.intakeTick_storeFits {s : State} (h : s.storeFits) : (s.onIntake Intake.tick).storeFits := by
  obtain ⟨verdicts, marking⟩ := s.intake.tick_keeps
  exact State.onIntake_storeFits h _ (by rw [Intake.overrunsWaiting, verdicts]; exact h.1) (.inl marking)

theorem State.sheetStart_storeFits {s : State} (h : s.storeFits) : s.sheetStart.storeFits := by
  unfold State.sheetStart
  split
  · split
    · exact State.onIntake_storeFits h _ h.1 (.inl rfl)
    · exact State.onIntake_storeFits h _ h.1 (.inl rfl)
  · exact h

theorem State.endFrame_storeFits {s : State} (h : s.storeFits) (n : Nat) (bytes : List Byte) (good : Bool) :
    (s.endFrame n bytes good).storeFits := by
  unfold State.endFrame
  dsimp only
  apply State.takeSheet_storeFits
  split
  · exact (Moves.notify _ _).storeFits (State.onIntake_storeFits h _ h.1 (.inl rfl))
  · exact State.onIntake_storeFits h _ h.1 (.inl rfl)

/-- An overrun verdict joins the queue only where fewer than four wait. -/
theorem Intake.offerOverrun_waiting {t : Intake} (h : t.overrunsWaiting ≤ 4) (sheet : Nat) :
    (t.offerOverrun sheet).overrunsWaiting ≤ 4 := by
  unfold Intake.offerOverrun
  split
  · rename_i few
    rw [Intake.overrunsWaiting] at few ⊢
    simp only [List.filter_append, List.length_append, List.filter_cons, List.filter_nil, if_true, List.length_singleton]
    omega
  · exact h

theorem Intake.offerOverrun_marking (t : Intake) (sheet : Nat) : (t.offerOverrun sheet).marking = t.marking := by
  unfold Intake.offerOverrun; split <;> rfl

theorem State.endOverrun_storeFits {s : State} (h : s.storeFits) (bytes : List Byte) :
    (s.endOverrun bytes).storeFits := by
  unfold State.endOverrun
  split
  · rename_i offer _
    refine (Moves.notify _ _).storeFits (State.onIntake_storeFits h _ ?_ (.inl ?_))
    · cases offer
      · exact h.1
      · exact Intake.offerOverrun_waiting h.1 _
    · cases offer
      · rfl
      · exact Intake.offerOverrun_marking _ _
  · exact h

theorem State.endAbandoned_storeFits {s : State} (h : s.storeFits) : s.endAbandoned.storeFits := by
  unfold State.endAbandoned
  split
  · exact State.onIntake_storeFits h _ h.1 (.inl rfl)
  · exact h

theorem State.sheetEnd_storeFits {s : State} (h : s.storeFits) (bytes : List Byte) : (s.sheetEnd bytes).storeFits := by
  unfold State.sheetEnd
  split
  · split
    · exact State.endFrame_storeFits h _ _ _
    · exact State.endOverrun_storeFits h _
    · exact State.endAbandoned_storeFits h
    · exact h
  · exact h

theorem State.sheetGap_storeFits {s : State} (h : s.storeFits) (bytes : List Byte) : (s.sheetGap bytes).storeFits := by
  unfold State.sheetGap
  split
  · exact State.endFrame_storeFits h _ _ _
  · exact State.endOverrun_storeFits h _
  · exact State.endAbandoned_storeFits h
  · exact h

theorem State.sheetQuiet_storeFits {s : State} (h : s.storeFits) : s.sheetQuiet.storeFits := by
  unfold State.sheetQuiet
  split
  · exact State.onIntake_storeFits h _ h.1 (.inl rfl)
  · exact h

theorem Intake.sent_waiting (t : Intake) : t.sent.overrunsWaiting ≤ t.overrunsWaiting := by
  unfold Intake.sent Intake.overrunsWaiting
  split
  · exact Nat.le_refl _
  · exact ((List.tail_sublist _).filter _).length_le
  · exact Nat.le_refl _

theorem Intake.sent_marking (t : Intake) : t.sent.marking = t.marking := by
  unfold Intake.sent; split <;> rfl

theorem State.sent_storeFits {s : State} (h : s.storeFits) : (s.onIntake Intake.sent).storeFits :=
  State.onIntake_storeFits h _ (Nat.le_trans s.intake.sent_waiting h.1) (.inl s.intake.sent_marking)

/-! ### Requests -/

theorem State.onLog_storeFits {s : State} (h : s.storeFits) (f : ResultLog → ResultLog)
    (fewer : (f s.log).records.length ≤ s.log.records.length) : (s.onLog f).storeFits :=
  ⟨h.1, Nat.le_trans fewer h.2.1, fun x hx placed => Nat.lt_of_le_of_lt fewer (h.2.2 x hx placed)⟩

theorem State.releaseResults_state (s : State) (upto : Nat) :
    (s.releaseResults upto).state = (s.onLog fun g => g.release upto).testGates := by
  rw [State.releaseResults]

theorem State.resetSittings_state (s : State) :
    s.resetSittings.state = lineNumbers.foldl State.blankLine s.endSittings := by
  rw [State.resetSittings, State.done]

theorem State.releaseResults_storeFits {s : State} (h : s.storeFits) (upto : Nat) :
    (s.releaseResults upto).state.storeFits := by
  have released : (s.onLog fun g => g.release upto).storeFits :=
    State.onLog_storeFits h _ (List.length_filter_le _ _)
  rw [State.releaseResults_state]
  exact (Moves.testGates _).storeFits released

theorem State.resetSittings_storeFits (s : State) : s.resetSittings.state.storeFits := by
  have ended : s.endSittings.storeFits := ⟨Nat.zero_le _, Nat.zero_le _, fun x hx => by cases hx⟩
  rw [State.resetSittings_state]
  exact (Moves.fold (k := []) State.blankLine Moves.blankLine lineNumbers s.endSittings).storeFits ended

/-- What a request's owner does to the capacities: it queues no response, and keeps the notices and the stores. -/
structure Within (s t : State) : Prop where
  store : s.storeFits → t.storeFits
  responses : t.office.responses = s.office.responses
  notices : s.office.notices.length ≤ Config.noticeQueueSize → t.office.notices.length ≤ Config.noticeQueueSize

theorem Within.refl (s : State) : Within s s := ⟨id, rfl, id⟩

theorem Within.trans {s t u : State} (h : Within s t) (g : Within t u) : Within s u :=
  ⟨fun x => g.store (h.store x), g.responses.trans h.responses, fun x => g.notices (h.notices x)⟩

theorem Moves.within {k : List Part} {s t : State} (h : Moves k s t) (h1 : Part.intake ∉ k := by decide)
    (h2 : Part.log ∉ k := by decide) (h3 : Part.responses ∉ k := by decide) : Within s t :=
  ⟨fun x => h.storeFits x h1 h2, h.frame.2 .responses h3, h.notices⟩

theorem Within.of_store {k : List Part} {s t : State} (h : Moves k s t) (store : s.storeFits → t.storeFits)
    (h3 : Part.responses ∉ k := by decide) : Within s t :=
  ⟨store, h.frame.2 .responses h3, h.notices⟩

theorem Within.read (s : State) (t first n : Nat) : Within s (s.read t first n).state := by
  unfold State.read
  split
  · exact .refl s
  · dsimp only
    split
    · exact .refl s
    · split
      · exact .refl s
      · split
        · exact .refl s
        · split
          · exact ⟨id, rfl, id⟩
          · exact .refl s

theorem Within.clearGroup (s : State) (g : Nat) : Within s (s.clearGroup g) := by
  unfold State.clearGroup
  split
  · exact ⟨fun h => State.onIntake_storeFits h _ h.1 (.inl rfl), rfl, id⟩
  · exact ⟨id, rfl, id⟩
  · exact ⟨id, rfl, id⟩
  · exact (Moves.onStats s _ _).within

theorem Within.readStats (s : State) (g : Nat) (clear : Bool) : Within s (s.readStats g clear).state := by
  unfold State.readStats
  split
  · exact .refl s
  · cases clear
    · exact .refl s
    · exact .clearGroup s g

theorem State.Serves.within {s : State} {a : Answer} (h : s.Serves a) : Within s a.state := by
  cases h with
  | refuse c => exact .refl s
  | read t first n => exact .read s t first n
  | writeHall first ws => exact (Moves.writeHall s first ws).within
  | writeSeats first ws => exact (Moves.writeAll s _ _ first ws _ _ Moves.putSeat).within
  | writeStations first ws => exact (Moves.writeAll s _ _ first ws _ _ Moves.putStation).within
  | writeRoster first ws => exact (Moves.writeEach s _ _ first ws _ _ Moves.putRoster).within
  | writeChannels first ws => exact (Moves.writeEach s _ _ first ws _ _ Moves.putChannel).within
  | writeClasses first ws => exact (Moves.writeAll s _ _ first ws _ _ Moves.putClass).within
  | writeForms first ws => exact (Moves.writeAll s _ _ first ws _ _ Moves.putForm).within
  | writeProfiles first ws => exact (Moves.writeAll s _ _ first ws _ _ Moves.putProfile).within
  | writeKeys first ws => exact (Moves.writeKeys s first ws).within
  | writeMessages first ws => exact (Moves.writeAll s _ _ first ws _ _ Moves.putMessage).within
  | writeSignals first ws => exact (Moves.writeAll s _ _ first ws _ _ Moves.putSignal).within
  | status => exact .refl s
  | readFlags => exact ⟨id, rfl, id⟩
  | readStats g clear => exact .readStats s g clear
  | readResults start most => rw [State.readResults_state]; exact .refl s
  | releaseResults upto => exact .of_store (Moves.releaseResults s upto) fun h => State.releaseResults_storeFits h upto
  | readHistogram c => rw [State.readHistogram_state]; exact .refl s
  | deskMessage x m => exact (Moves.deskMessage s x m).within
  | channelLoad c => exact (Moves.channelLoad s c).within
  | channelOpen c => exact (Moves.channelOpen s c).within
  | channelStart c => exact (Moves.unless _ (.startChannel s c)).within
  | channelHold c h => exact (Moves.unless _ (.setHold s c h)).within
  | amendNow c v => exact (Moves.amendNow s c v).within
  | amendAtMinute c v => exact (Moves.amendAtMinute s c v).within
  | channelClose c => exact (Moves.channelClose s c).within
  | channelTeardown c => exact (Moves.channelTeardown s c).within
  | keyCommit c => exact (Moves.unless _ (.onChan s c _)).within
  | hallHold h => exact (Moves.changeHoldAnswer s h).within
  | hallTimeSet v => exact (Moves.unless _ (.onTime s _)).within
  | reseat k i => exact (Moves.reseat s k i).within
  | candidateFinish k => exact (Moves.unless _ (.depart s k _)).within
  | deskClear l a => exact (Moves.deskClear s l a).within
  | lineQuiet l => exact (Moves.lineQuiet s l).within
  | lineWake l => exact (Moves.unless _ (.goWaking s l)).within
  | lineTest l => exact (Moves.unless _ (.goTesting s l)).within
  | lineReset l => exact (Moves.unless _ (.restartLine s l)).within
  | statsClear => exact foldl_invariant (Within s) _ (fun t g h => h.trans (.clearGroup t g)) _ s (.refl s)
  | resetSittings => exact .of_store (Moves.resetSittings s) fun _ => s.resetSittings_storeFits
  | resetAll => exact ⟨id, rfl, id⟩

/-- A response is queued only where fewer than eight wait. -/
theorem State.takeRequest_fits {s : State} (tag kind : Byte) (f : State → Answer) (h : ∀ t : State, t.Serves (f t))
    (link : s.linkFits) (store : s.storeFits) :
    (s.takeRequest tag kind f).linkFits ∧ (s.takeRequest tag kind f).storeFits := by
  unfold State.takeRequest
  split
  · exact ⟨link, store⟩
  · dsimp only
    split
    · exact ⟨link, store⟩
    · rename_i room
      have owner := (h s.countFrame).within
      refine ⟨⟨?_, owner.notices link.2⟩, owner.store store⟩
      show ((f s.countFrame).state.office.responses ++ [_]).length ≤ Config.responseQueueSize
      rw [owner.responses, List.length_append]
      exact Nat.lt_of_not_le room

theorem State.officeSent_fits {s : State} (link : s.linkFits) (store : s.storeFits) :
    s.officeSent.linkFits ∧ s.officeSent.storeFits := by
  have fewer {α : Type} (xs : List α) : xs.tail.length ≤ xs.length := (List.tail_sublist xs).length_le
  unfold State.officeSent
  split
  · exact ⟨link, store⟩
  · exact ⟨⟨link.1, Nat.le_trans (fewer _) link.2⟩, store⟩
  · dsimp only
    split
    · exact ⟨⟨Nat.zero_le _, Nat.zero_le _⟩, Nat.zero_le _, Nat.zero_le _, fun x hx => by cases hx⟩
    · exact ⟨⟨Nat.le_trans (fewer _) link.1, link.2⟩, store⟩

theorem State.tick_storeFits {s : State} (h : s.storeFits) (low : Bool) (n : Nat) (o : TickOrder) :
    (s.tick low n o).storeFits := by
  have clock : (s.tickTime low o).storeFits := (Moves.onTime _ _).storeFits ((Moves.missingFirst s o).storeFits h)
  have commits := foldl_invariant State.storeFits State.tickCommit (fun _ c g => State.tickCommit_storeFits g c)
    channelNumbers _ (State.intakeTick_storeFits ((Moves.tickLines _).storeFits clock))
  exact (Moves.missingTest _ o).storeFits ((Moves.tickTail _ n o).storeFits commits)

theorem State.Event.fits {s u : State} (h : s.Event u) (link : s.linkFits) (store : s.storeFits) :
    u.linkFits ∧ u.storeFits := by
  have moved {k : List Part} {t : State} (m : Moves k s t) (h1 : Part.intake ∉ k := by decide)
      (h2 : Part.log ∉ k := by decide) (h3 : Part.responses ∉ k := by decide) : t.linkFits ∧ t.storeFits :=
    ⟨m.linkFits link h3, m.storeFits store h1 h2⟩
  rcases h with _ | _ | work
  · exact ⟨⟨Nat.zero_le _, Nat.zero_le _⟩, Nat.zero_le _, Nat.zero_le _, fun x hx => by cases hx⟩
  · exact State.officeSent_fits link store
  cases work with
  | idle => exact ⟨link, store⟩
  | tick low n o => exact ⟨(Moves.tick s low n o).linkFits link, State.tick_storeFits store low n o⟩
  | secondTick o => exact moved (Moves.secondTick s o)
  | edgeAt phase o => exact moved (Moves.edgeAt s phase o)
  | missingFirst o => exact moved (Moves.missingFirst s o)
  | timedAttempt c _ => exact moved ((Moves.timedAttempt s c).next (.giveTick _ _))
  | timedStart c _ => exact moved ((Moves.startChannel s c).next (.giveTick _ _))
  | writingStart c _ => exact moved (Moves.startWriting s c)
  | applyPending c _ => exact moved (Moves.applyPending s c)
  | closeOnce c _ => exact moved (Moves.closeOnce s c)
  | secondBase c => exact moved (Moves.secondBase s c)
  | timeUp k _ => exact moved (Moves.depart s k _)
  | exhaust k _ => exact moved (Moves.exhaust s k)
  | expire i k _ => exact moved (Moves.expire s i k)
  | endClearing i _ => exact moved (Moves.endClearing s i)
  | changePin => exact moved (Moves.changePin s)
  | endInterval l => exact moved (Moves.endInterval s l)
  | lineReply l bytes => exact moved (Moves.lineReply s l bytes)
  | windowClose l => exact moved (Moves.windowClose s l)
  | broadcastEnd l => exact moved (Moves.broadcastEnd s l)
  | sheetStart => exact ⟨(Moves.sheetStart s).linkFits link, State.sheetStart_storeFits store⟩
  | sheetEnd bytes => exact ⟨(Moves.sheetEnd s bytes).linkFits link, State.sheetEnd_storeFits store bytes⟩
  | sheetGap bytes => exact ⟨(Moves.sheetGap s bytes).linkFits link, State.sheetGap_storeFits store bytes⟩
  | endOverrun bytes => exact ⟨(Moves.endOverrun s bytes).linkFits link, State.endOverrun_storeFits store bytes⟩
  | advance reach => exact ⟨(Moves.advance s reach).linkFits link, State.advance_storeFits store reach⟩
  | complete => exact ⟨(Moves.complete s).linkFits link, State.complete_storeFits store⟩
  | endCommit c n _ => exact ⟨(Moves.endCommit s c).linkFits link, State.endCommit_storeFits store c⟩
  | verdictSent => exact ⟨(Moves.sent s).linkFits link, State.sent_storeFits store⟩
  | discard => exact ⟨link, store⟩
  | request tag kind f hf => exact State.takeRequest_fits tag kind f hf link store
  | sheetQuiet => exact ⟨(Moves.sheetQuiet s).linkFits link, State.sheetQuiet_storeFits store⟩
  | officeQuiet => exact ⟨link, store⟩
  | endAbandoned => exact ⟨(Moves.endAbandoned s).linkFits link, State.endAbandoned_storeFits store⟩

/-- Settles O59: each event keeps the capacities, and what follows at once queues notices alone. -/
theorem everyStepKeepsTheCapacities : Obligations.EveryStepKeepsTheCapacities := by
  intro s t queues log next
  rw [State.fits_iff]
  obtain ⟨link, store⟩ := (State.fits_iff s).mp ⟨queues, log⟩
  rcases step_cases next with rfl | ⟨p, u, event, rfl⟩
  · exact ⟨link, store⟩
  · obtain ⟨link', store'⟩ := event.fits (s := s.waiting p) link store
    exact ⟨(Moves.settle u).linkFits link', (Moves.settle u).storeFits store'⟩

end Sys2Proof.Machine
end

section
/-! PROOF. A request served: the form in which the requests of this batch are settled, and those whose owner makes one
check and one change: O1, O2, O9, O15, O28, O44, O47, O48, O49. -/

namespace Sys2Proof.Machine

set_option Elab.async false

/-! ## A request served -/

/-- From `s` to `t` a request has been taken, its owner has left `u` but for the parts `k`, and its response has been queued. -/
structure Served (k : List Part) (s u t : State) (tag kind : Byte) (code : Code) (out : List Byte) : Prop where
  eq : t = (u.respond ⟨tag, kind, code, out⟩).settle
  answered : Answered s t tag kind code out
  unchanged : Unchanged (.responses :: .framesIn :: k) s t

section
variable {k : List Part} {s u t : State} {tag kind : Byte} {code : Code} {out : List Byte}
  (h : Served k s u t tag kind code out)
include h

theorem Served.raised {x : Category} (hx : x ∈ u.office.flags) : x ∈ t.office.flags := by
  rw [h.eq]
  exact State.settle_raised _ (by rwa [State.respond_flags])

theorem Served.chan (c : Nat) : t.chan c = u.chan c := by rw [h.eq, State.settle_chan, State.chan_respond]

theorem Served.seat (i : Nat) : t.seat i = u.seat i := by rw [h.eq, State.settle_seat, State.seat_respond]

theorem Served.entry (j : Nat) : t.entry j = u.entry j := by rw [h.eq, State.settle_entry, State.entry_respond]

theorem Served.presence (l a : Nat) : t.presence l a = u.presence l a := by
  rw [h.eq, State.settle_presence, State.presence_respond]

end

/-- A request whose owner answers `code` and `out` and leaves `u`. -/
theorem State.served {k : List Part} {s u : State} {i : Instr} {tag kind : Byte} {f : State → Answer} {code : Code}
    {out : List Byte} (run : exec i s = .next (s.takeRequest tag kind f).settle) (h : s.takesRequest)
    (answer : f s.countFrame = ⟨code, out, u⟩) (moves : Moves k s.countFrame u) (h1 : .responses ∉ k := by decide)
    (h2 : .framesIn ∉ k := by decide) : ∃ t, exec i s = .next t ∧ Served k s u t tag kind code out :=
  ⟨_, run, ⟨by rw [State.takeRequest_eq h answer], by rw [State.takeRequest_eq h answer]; exact .taken moves _ _ _ _ h1 h2,
    by rw [State.takeRequest_eq h answer]; exact .taken moves _⟩⟩

/-- A request that its owner refuses. -/
theorem State.refused {s : State} {i : Instr} {tag kind : Byte} {f : State → Answer} {code : Code}
    (run : exec i s = .next (s.takeRequest tag kind f).settle) (h : s.takesRequest)
    (answer : f s.countFrame = s.countFrame.refuse code) : Refuses s i tag kind code := by
  obtain ⟨t, ran, served⟩ := State.served run h answer (.refl (k := []) _)
  exact ⟨t, ran, served.answered, served.unchanged⟩

theorem State.unless_none (s t : State) : s.unless none t = ⟨.ok, [], t⟩ := rfl

theorem State.unless_some (s t : State) (c : Code) : s.unless (some c) t = s.refuse c := rfl

/-! ## What a frame leaves, read by index -/

section
variable {k : List Part} {s t : State} (h : Unchanged k s t)
include h

theorem Unchanged.time (hk : .time ∉ k := by decide) : t.time = s.time := h.2 .time hk

theorem Unchanged.seat (i : Nat) (hk : .seats ∉ k := by decide) : t.seat i = s.seat i := by
  have seats : t.seats = s.seats := h.2 .seats hk
  rw [State.seat, State.seat, seats]

theorem Unchanged.entry (j : Nat) (hk : .roster ∉ k := by decide) : t.entry j = s.entry j := by
  have roster : t.roster = s.roster := h.2 .roster hk
  rw [State.entry, State.entry, roster]

theorem Unchanged.chan (c : Nat) (hk : .channels ∉ k := by decide) : t.chan c = s.chan c := by
  have channels : t.channels = s.channels := h.2 .channels hk
  rw [State.chan, State.chan, channels]

theorem Unchanged.signal (n : Nat) (hk : .signals ∉ k := by decide) : t.signal n = s.signal n := by
  have signals : t.signals = s.signals := h.2 .signals hk
  rw [State.signal, State.signal, signals]

theorem Unchanged.station (a : Nat) (hk : .stations ∉ k := by decide) : t.station a = s.station a := by
  have stations : t.stations = s.stations := h.2 .stations hk
  rw [State.station, State.station, stations]

end

/-! ## The queue and the reset -/

/-- Settles O1: both clauses are the two cases of a step. -/
theorem stepRunsTheFrontCommand : Obligations.StepRunsTheFrontCommand := by
  refine ⟨fun c rest s h => ?_, fun s h => ?_⟩
  · rw [step, h]
  · rw [step, h]

/-- Settles O2: the part that powers up settles to the reset state, whose values are those the spec gives. -/
theorem powerOnPutsEveryBlockAtItsPowerOnValues : Obligations.PowerOnPutsEveryBlockAtItsPowerOnValues := by
  intro s
  have run : exec .powerOn s = .next s.powerUp.settle := rfl
  rw [run, State.powerUp_settle]
  exact ⟨rfl, rfl, rfl, fun _ => rfl, fun _ => rfl, fun _ => ⟨rfl, rfl⟩, fun l _ => by
    have line : (State.reset.line l).addrs = [] := by
      simp only [State.line, State.reset, tabGet, mapGet]; split <;> rfl
    simp [State.presence, Line.addr, line, tabGet, mapGet, AddrState.blank], rfl, rfl, rfl, rfl, rfl, rfl, rfl, rfl, rfl⟩

/-! ## CHANNEL_LOAD, CHANNEL_HOLD and CHANNEL_RESUME -/

theorem State.paperTaken_eq_false {s : State} {c paper : Nat} :
    s.paperTaken c paper = false ↔
      ∀ d, d < 16 → d ≠ c → (s.chan d).state ≠ .free → (s.chan d).config.paper ≠ paper := by
  simp only [State.paperTaken, channelNumbers, List.any_eq_false, List.mem_range, Bool.and_eq_true, decide_eq_true_eq,
    not_and, and_imp]

theorem State.loadRefusal_eq_none {s : State} {c : Nat} (free : (s.chan c).state = .free)
    (form : (s.form (s.chan c).config.form).defined = true)
    (profile : (s.profile (s.chan c).config.profile).defined = true)
    (paper : s.paperTaken c (s.chan c).config.paper = false) : s.loadRefusal c = none := by
  simp [State.loadRefusal, free, form, profile, paper]

theorem State.chan_enterPhase (s : State) (c d : Nat) (x : ChanState) :
    (s.enterPhase c x).chan d =
      if c = d then { s.chan c with state := x, hold := if x = .collecting then false else (s.chan c).hold } else s.chan d := by
  rw [State.enterPhase, State.chan_notify, State.chan_onChan]

theorem Subject.category_ne_noticeLost (x : Subject) : x.category ≠ .noticeLost := by cases x <;> exact Category.noConfusion

/-- An event raises its flag. -/
theorem State.flag_notify (s : State) (x : Subject) : x.category ∈ (s.notify x).office.flags :=
  (State.notify_flag s x _ x.category_ne_noticeLost).2 (.inl rfl)

theorem State.flag_enterPhase (s : State) (c : Nat) (x : ChanState) :
    Category.channelPhase ∈ (s.enterPhase c x).office.flags :=
  State.flag_notify _ (.channelPhase c x s.time.hallTime)

theorem State.chan_setHold (s : State) (c d : Nat) (h : Bool) :
    (s.setHold c h).chan d = if c = d then { s.chan c with hold := h } else s.chan d := by
  rw [State.setHold]
  split
  · rw [(Moves.markEntries _ c _).frame.chan d, State.chan_onChan]
  · rw [State.chan_onChan]

/-- Settles O9: with no check failing the owner loads the channel and enters the phase. -/
theorem channelLoadMakesLoaded : Obligations.ChannelLoadMakesLoaded := by
  intro tag c s h hc free form profile paper
  have none : (if 15 < c then some Code.range else s.countFrame.loadRefusal c) = .none := by
    rw [if_neg (by omega)]
    exact State.loadRefusal_eq_none free form profile (State.paperTaken_eq_false.2 paper)
  obtain ⟨t, run, served⟩ := State.served (k := [.channels, .flags, .notices]) (i := .channelLoad tag c)
    (f := (·.channelLoad c)) rfl h
    (by rw [State.channelLoad, none, State.unless_none])
    (((Moves.onChan s.countFrame c _ fun _ => rfl).widen).next (.enterPhase _ c .loaded))
  refine ⟨t, run, served.answered, ?_, fun d hd => ?_, ?_, served.unchanged.weaken (by decide)⟩
  · rw [served.chan]
    simp [State.chan_enterPhase, State.chan_onChan, Channel.atLoad, Channel.blank]
  · rw [served.chan]
    simp [State.chan_enterPhase, State.chan_onChan, Ne.symm hd]
  · exact served.raised (State.flag_enterPhase _ _ _)

/-- CHANNEL_HOLD and CHANNEL_RESUME are one request. -/
theorem exec_channelHold (tag : Byte) (h : Bool) (c : Nat) (s : State) :
    exec (if h then .channelHold tag c else .channelResume tag c) s =
      .next (s.takeRequest tag 0x03#8 (·.channelHold c h)).settle := by
  cases h <;> rfl

/-- Settles O15: the owner's one check is that of the state. -/
theorem channelHoldAndResumeSetTheFlag : Obligations.ChannelHoldAndResumeSetTheFlag := by
  intro tag h c s takes hc
  have range : ¬15 < c := by omega
  by_cases active : (s.chan c).state.isActive = true
  · obtain ⟨t, run, served⟩ := State.served (exec_channelHold tag h c s) takes
      (by rw [State.channelHold, if_neg range, State.chan_countFrame, if_pos active, State.unless_none])
      (.setHold _ c h)
    refine ⟨t, run, ?_⟩
    rw [if_pos active]
    refine ⟨served.answered, ?_, fun d hd => ?_, served.unchanged.weaken (by decide)⟩
    · rw [served.chan]; simp [State.chan_setHold]
    · rw [served.chan]; simp [State.chan_setHold, Ne.symm hd]
  · have refused := State.refused (exec_channelHold tag h c s) takes (code := .wrongPhase)
      (by rw [State.channelHold, if_neg range, State.chan_countFrame, if_neg active, State.unless_some])
    obtain ⟨t, run, answered, unchanged⟩ := refused
    refine ⟨t, run, ?_⟩
    rw [if_neg active]
    exact ⟨answered, unchanged⟩

/-! ## DESK_CLEAR -/

theorem State.presence_onAddr (s : State) (l a m b : Nat) (f : AddrState → AddrState) :
    (s.onAddr l a f).presence m b =
      if l = m ∧ a = b then (f ((s.line l).addr a)).presence else s.presence m b := by
  rw [State.presence, State.onAddr, State.line_onLine]
  by_cases line : l = m
  · subst line
    by_cases addr : a = b
    · simp [addr, Line.addr_onAddr]
    · simp [addr, Line.addr_onAddr, State.presence]
  · simp [line, State.presence]

/-- Settles O28: the owner's checks are the chain of the statement. -/
theorem deskClearMakesAFaultyAddressAbsent : Obligations.DeskClearMakesAFaultyAddressAbsent := by
  intro tag l a s h
  have count : addrCount l = if l < 6 then 64 else 8 := by simp [addrCount, isSeatLine]
  have refusal : s.countFrame.clearRefusal l a =
      if 6 < l ∨ a < 1 ∨ (if l < 6 then 64 else 8) < a then some .range
      else if s.configured l a = false then some .notFound
      else if s.presence l a ≠ .faulty then some .wrongPhase else none := by rw [← count]; rfl
  have refused : ∀ code, s.countFrame.clearRefusal l a = some code →
      Refuses s (.deskClear tag l a) tag 0x03#8 code := fun code e =>
    State.refused (f := (·.deskClear l a)) rfl h (by rw [State.deskClear, e, State.unless_some])
  by_cases out : 6 < l ∨ a < 1 ∨ (if l < 6 then 64 else 8) < a
  · simp only [if_pos out]
    exact refused _ (refusal.trans (if_pos out))
  rw [if_neg out] at refusal
  simp only [if_neg out]
  by_cases bare : s.configured l a = false
  · simp only [if_pos bare]
    exact refused _ (refusal.trans (if_pos bare))
  rw [if_neg bare] at refusal
  simp only [if_neg bare]
  by_cases sound : s.presence l a ≠ .faulty
  · simp only [if_pos sound]
    exact refused _ (refusal.trans (if_pos sound))
  rw [if_neg sound] at refusal
  simp only [if_neg sound]
  obtain ⟨t, run, served⟩ := State.served (i := .deskClear tag l a) (f := (·.deskClear l a)) rfl h
    (by rw [State.deskClear, refusal, State.unless_none])
    (.onDeskAddr s.countFrame l a _ fun _ => AddrState.lawful_become _ _)
  refine ⟨t, run, served.answered, ?_, fun m b other => ?_, served.unchanged.weaken (by decide)⟩
  · rw [served.presence]
    simp [State.presence_onAddr, AddrState.become, AddrState.at]
  · rw [served.presence]
    simp [State.presence_onAddr, show ¬(l = m ∧ a = b) by omega]

end Sys2Proof.Machine
end

section
/-! PROOF. Writes of one table entry, and of the HALL entry: O44, O46, O47, O48, O49. -/

namespace Sys2Proof.Machine

set_option Elab.async false

/-! ## A write of one entry -/

theorem writeRefusal_eq_none {lo hi first count : Nat} (some' : count ≠ 0) (few : count ≤ 4) (low : lo ≤ first)
    (high : first + count ≤ hi) : writeRefusal lo hi first count = none := by
  rw [writeRefusal, if_neg some', if_neg (by omega), if_neg (by omega)]

theorem State.writeAll_one {α : Type} {s : State} {lo hi first : Nat} {w : α} {check : Nat → α → Option Code}
    {put : State → Nat → α → State} (low : lo ≤ first) (high : first + 1 ≤ hi) (passes : check first w = none) :
    s.writeAll lo hi first [w] check put = ⟨.ok, [], put s first w⟩ := by
  simp [State.writeAll, writeRefusal_eq_none (count := 1) (by omega) (by omega) low high, indexed, passes, State.done]

theorem State.writeAll_one_refused {α : Type} {s : State} {lo hi first : Nat} {w : α} {check : Nat → α → Option Code}
    {put : State → Nat → α → State} {code : Code} (low : lo ≤ first) (high : first + 1 ≤ hi)
    (fails : check first w = some code) : s.writeAll lo hi first [w] check put = s.refuse code := by
  simp [State.writeAll, writeRefusal_eq_none (count := 1) (by omega) (by omega) low high, indexed, fails]

theorem State.writeEach_one {α : Type} {s : State} {lo hi first : Nat} {w : α} {check : State → Nat → α → Option Code}
    {put : State → Nat → α → State} (low : lo ≤ first) (high : first + 1 ≤ hi) (passes : check s first w = none) :
    s.writeEach lo hi first [w] check put = ⟨.ok, [], put s first w⟩ := by
  simp [State.writeEach, writeRefusal_eq_none (count := 1) (by omega) (by omega) low high, indexed, stepEntry, passes,
    State.done]

/-- A write of two entries of which the second fails once the first has been applied. -/
theorem State.writeEach_two_refused {α : Type} {s : State} {lo hi first : Nat} {v w : α}
    {check : State → Nat → α → Option Code} {put : State → Nat → α → State} {code : Code} (low : lo ≤ first)
    (high : first + 2 ≤ hi) (passes : check s first v = none) (fails : check (put s first v) (first + 1) w = some code) :
    s.writeEach lo hi first [v, w] check put = s.refuse code := by
  simp [State.writeEach, writeRefusal_eq_none (count := 2) (by omega) (by omega) low high, indexed, stepEntry, passes, fails]

/-! ## HALL -/

theorem Category.mem_maskable_zip {masks : List Nat} (len : masks.length = 16) {j : Nat} {c : Category} {m : Nat}
    (hc : Category.all[j]? = some c) (hm : masks[j]? = some m) :
    c ∈ ((Category.maskable.zip masks).filter fun p => decide (0 < p.2)).map Prod.fst ↔ 0 < m := by
  have nodup : Category.all.Nodup := by decide
  have place : ∀ i, Category.maskable[i]? = some c → i = j := fun i hi => by
    rw [Category.maskable, List.getElem?_take] at hi
    split at hi
    · exact (List.getElem?_inj (List.getElem?_eq_some_iff.1 hi).1 nodup).1 (hi.trans hc.symm)
    · cases hi
  have short : j < 16 := len ▸ (List.getElem?_eq_some_iff.1 hm).1
  have here : Category.maskable[j]? = some c := by rw [Category.maskable, List.getElem?_take, if_pos short, hc]
  simp only [List.mem_map, List.mem_filter, decide_eq_true_eq, Prod.exists, exists_and_right, exists_eq_right]
  constructor
  · rintro ⟨n, inZip, above⟩
    obtain ⟨i, hi⟩ := List.mem_iff_getElem?.1 inZip
    rw [List.getElem?_zip_eq_some] at hi
    obtain rfl := place i hi.1
    rw [hm] at hi
    exact Option.some.inj hi.2 ▸ above
  · intro above
    exact ⟨m, List.mem_iff_getElem?.2 ⟨j, List.getElem?_zip_eq_some.2 ⟨here, hm⟩⟩, above⟩

theorem HallWrite.noticeLost_not_masked (w : HallWrite) : Category.noticeLost ∉ w.stored.masks := by
  simp only [HallWrite.stored, List.mem_map, List.mem_filter, Prod.exists, exists_and_right, exists_eq_right, not_exists,
    not_and]
  intro m inZip
  have masked := (List.of_mem_zip inZip).1
  exact absurd masked (by decide)

theorem Moves.setHall (s : State) (x : HallSettings) : Moves [.hall] s { s with hall := x } := by
  refine .of_fields rfl (fun p hp _ => ?_) (fun h => h) rfl rfl
  cases p <;> simp_all [Part.same]

theorem State.writeHall_one (s : State) {w : HallWrite} (whole : w.whole = true) :
    s.writeHall 0 [w] = ⟨if w.exact then .ok else .clamped, [], { s with hall := w.stored }⟩ := by
  have fits : writeRefusal 0 1 0 [w].length = none := writeRefusal_eq_none (by simp) (by simp) (by simp) (by simp)
  rw [State.writeHall, if_pos whole]
  exact fits

/-- Settles O44: a whole entry is stored as `HallWrite.stored` gives it. -/
theorem writeHallClampsAndStores : Obligations.WriteHallClampsAndStores := by
  intro tag w s h six sixteen
  have whole : w.whole = true := by simp [HallWrite.whole, six, sixteen]
  obtain ⟨t, run, served⟩ := State.served (i := .writeHall tag 0 [w]) (f := (·.writeHall 0 [w])) rfl h
    (State.writeHall_one s.countFrame whole)
    (.setHall s.countFrame w.stored)
  have hall : t.hall = w.stored := by rw [served.eq]; simp
  refine ⟨t, run, served.answered, ?_⟩
  rw [hall]
  refine ⟨?_, ?_, ?_, ?_, ?_, ?_, fun j c m hc hm => Category.mem_maskable_zip sixteen hc hm, HallWrite.noticeLost_not_masked w,
    served.unchanged.weaken (by decide)⟩
  · rfl
  · rfl
  · rfl
  · simp [HallWrite.stored, bring]
  · rfl
  · rfl

/-! ## CHANNELS, CLASSES, FORMS and PROFILES -/

theorem State.channelRefusal_eq_none {s : State} {c : Nat} {w : ChannelWrite} (range : w.inRange = true)
    (state : (s.chan c).state = .free ∨ ((s.chan c).state = .loaded ∧ (s.form w.form).defined = true ∧
      (s.profile w.profile).defined = true ∧ s.paperTaken c w.paper = false)) : s.channelRefusal c w = none := by
  rcases state with free | ⟨loaded, form, profile, paper⟩
  · simp [State.channelRefusal, free, range]
  · simp [State.channelRefusal, loaded, range, form, profile, paper]

/-- Settles O47: the one entry passes the checks of R34 and is applied. -/
theorem writeChannelsStoresTheConfiguration : Obligations.WriteChannelsStoresTheConfiguration := by
  intro tag c w s h hc range state
  obtain ⟨t, run, served⟩ := State.served (i := .writeChannels tag c [w]) (f := (·.writeChannels c [w])) rfl h
    (State.writeEach_one (s := s.countFrame) (Nat.zero_le c) (by omega) (State.channelRefusal_eq_none range state))
    (.putChannel s.countFrame c w)
  refine ⟨t, run, served.answered, ?_, fun d hd => ?_, served.unchanged.weaken (by decide)⟩
  · rw [served.chan, State.putChannel, State.chan_onChan, if_pos rfl, State.chan_countFrame, Channel.write]
  · rw [served.chan, State.putChannel, State.chan_onChan, if_neg (Ne.symm hd), State.chan_countFrame]

/-- Settles O48: each of the three writes passes its own checks and is applied. -/
theorem writeClassesFormsAndProfilesStoreTheEntries : Obligations.WriteClassesFormsAndProfilesStoreTheEntries := by
  intro tag n s h
  refine ⟨fun w hn percent budget accessible => ?_, fun w hn d q1 q2 o1 o2 grid unused defined => ?_,
    fun w hn range unused grids => ?_⟩
  · have passes : w.refusal = none := by rw [ClassWrite.refusal, if_pos ⟨percent, budget, accessible⟩]
    obtain ⟨t, run, served⟩ := State.served (i := .writeClasses tag n [w]) (f := (·.writeClasses n [w])) rfl h
      (State.writeAll_one (s := s.countFrame) (Nat.zero_le n) (by omega) passes) (.putClass s.countFrame n w)
    have cls : ∀ m, t.cls m = (s.countFrame.putClass n w).cls m := fun m => by
      rw [served.eq, State.cls, State.settle_classes, State.respond_classes, State.cls]
    refine ⟨t, run, served.answered, ?_, fun m hm => ?_, served.unchanged.weaken (by decide)⟩
    · rw [cls, State.putClass, State.cls, tabGet_tabSet, if_pos rfl]
    · rw [cls, State.putClass, State.cls, tabGet_tabSet, if_neg (Ne.symm hm)]
      rfl
  · have range : w.inRange = true := by simp [FormWrite.inRange, *]
    have passes : s.countFrame.formRefusal n w = none := by
      have unused : s.countFrame.formUsed n = false := unused
      rw [State.formRefusal, if_neg (by simp [range]), if_neg (by simp [unused]), if_neg]
      rintro ⟨one, undefined⟩
      exact Bool.false_ne_true (undefined.symm.trans (defined one))
    obtain ⟨t, run, served⟩ := State.served (i := .writeForms tag n [w]) (f := (·.writeForms n [w])) rfl h
      (State.writeAll_one (s := s.countFrame) (Nat.zero_le n) (by omega) passes) (.putForm s.countFrame n w)
    have form : ∀ m, t.form m = (s.countFrame.putForm n w).form m := fun m => by
      rw [served.eq, State.form, State.settle_forms, State.respond_forms, State.form]
    refine ⟨t, run, served.answered, ?_, fun m hm => ?_, served.unchanged.weaken (by decide)⟩
    · rw [form, State.putForm, State.form, tabGet_tabSet, if_pos rfl]
    · rw [form, State.putForm, State.form, tabGet_tabSet, if_neg (Ne.symm hm)]
      rfl
  · have passes : s.countFrame.profileRefusal n w = none := by
      have unused : s.countFrame.profileUsed n = false := unused
      rw [State.profileRefusal, if_neg (by simp [range]), if_neg (by simp [unused]), if_neg]
      rintro ⟨zero, used⟩
      exact Bool.false_ne_true ((grids zero).symm.trans used)
    obtain ⟨t, run, served⟩ := State.served (i := .writeProfiles tag n [w]) (f := (·.writeProfiles n [w])) rfl h
      (State.writeAll_one (s := s.countFrame) (Nat.zero_le n) (by omega) passes) (.putProfile s.countFrame n w)
    have profile : ∀ m, t.profile m = (s.countFrame.putProfile n w).profile m := fun m => by
      rw [served.eq, State.profile, State.settle_profiles, State.respond_profiles, State.profile]
    refine ⟨t, run, served.answered, ?_, fun m hm => ?_, served.unchanged.weaken (by decide)⟩
    · rw [profile, State.putProfile, State.profile, tabGet_tabSet, if_pos rfl]
    · rw [profile, State.putProfile, State.profile, tabGet_tabSet, if_neg (Ne.symm hm)]
      rfl

/-! ## KEYS -/

/-- The checks of R153 on one entry, that of question `q` of channel `c`, at index `n`. -/
theorem State.keysRefusal_one {s : State} {c q n : Nat} {w : KeyWrite} (index : n = c * 200 + (q - 1)) (hc : c ≤ 15)
    (low : 1 ≤ q) (high : q ≤ 200) (state : (s.chan c).state ≠ .free) (stage : (s.chan c).stage = .idle)
    (range : w.inRange q (s.form (s.chan c).config.form).questions (s.form (s.chan c).config.form).options = true) :
    s.keysRefusal n [w] = none := by
  have chan : n / 200 = c := by omega
  have place : n % 200 + 1 = q := by omega
  have fits : writeRefusal 0 3200 n 1 = none := writeRefusal_eq_none (by omega) (by omega) (by omega) (by omega)
  simp [State.keysRefusal, chan, fits, state, stage, Channel.committing, indexed, place, range]

theorem State.writeKeys_one {s : State} {c q n : Nat} {w : KeyWrite} (index : n = c * 200 + (q - 1)) (low : 1 ≤ q)
    (high : q ≤ 200) (passes : s.keysRefusal n [w] = none) :
    s.writeKeys n [w] = ⟨.ok, [], s.onChan c fun ch => ch.putKey (q - 1) w.entry⟩ := by
  have chan : n / 200 = c := by omega
  have place : n % 200 = q - 1 := by omega
  rw [State.writeKeys, passes, State.unless_none, chan]
  simp only [indexed, List.foldl_cons, List.foldl_nil, place]

/-- Settles O49: the one entry goes into the bank that is not active. -/
theorem writeKeysReachesTheInactiveBank : Obligations.WriteKeysReachesTheInactiveBank := by
  intro tag c q w s h hc low high state stage range
  obtain ⟨n, index⟩ : ∃ n, n = c * 200 + (q - 1) := ⟨_, rfl⟩
  rw [← index]
  have answer := State.writeKeys_one (s := s.countFrame) index low high
    (State.keysRefusal_one index hc low high state stage range)
  have moves := Moves.writeKeys s.countFrame n [w]
  rw [answer] at moves
  obtain ⟨t, run, served⟩ := State.served (i := .writeKeys tag n [w]) (f := (·.writeKeys n [w])) rfl h answer moves
  have here : t.chan c = (s.chan c).putKey (q - 1) w.entry := by
    rw [served.chan, State.chan_onChan, if_pos rfl, State.chan_countFrame]
  refine ⟨t, run, served.answered, fun x => ?_, fun x p hp => ?_, ?_, ?_, fun d hd => ?_,
    served.unchanged.weaken (by decide)⟩
  · rw [here]
    cases active : (s.chan c).active <;> cases x <;> simp [Channel.putKey, active, Channel.bank]
  · rw [here]
    cases active : (s.chan c).active <;> cases x <;> simp [Channel.putKey, active, Channel.bank, Ne.symm hp]
  · rw [here]
    refine ⟨tabSet KeyEntry.zero (match (s.chan c).active with | .a => (s.chan c).bankB | .b => (s.chan c).bankA) (q - 1)
      w.entry, ?_⟩
    cases active : (s.chan c).active <;> simp only [Channel.putKey, active]
  · rw [here]
    cases active : (s.chan c).active <;> simp [Channel.putKey, active, Channel.bank]
  · rw [served.chan, State.chan_onChan, if_neg (Ne.symm hd), State.chan_countFrame]

/-! ## ROSTER -/

theorem State.entry_freeSlot (s : State) (k j : Nat) : (s.freeSlot k).entry j = if k = j then none else s.entry j := by
  simp only [State.freeSlot, State.entry, mapGet_mapErase]

theorem State.entry_putRoster (s : State) (k j : Nat) (w : RosterWrite) :
    (s.putRoster k w).entry j = if k = j
      then match w with
        | .free => none
        | .use id c n fixed => some (Entry.written0 id c n fixed)
      else s.entry j := by
  cases w with
  | free => rw [State.putRoster, State.entry_freeSlot]
  | use id c n fixed =>
    rw [State.putRoster, State.entry_putEntry, State.entry_freeSlot]
    split <;> simp_all

theorem State.slotBound_eq_false {s : State} {k : Nat}
    (h : ∀ e, s.entry k = some e → e.state = .expected ∧ e.booklets = [] ∧
      ((s.chan e.channel).state = .loaded ∨ (s.chan e.channel).state = .opened)) : s.slotBound k = false := by
  rw [State.slotBound]
  cases entry : s.entry k with
  | none => rfl
  | some e =>
    obtain ⟨expected, booklets, phase⟩ := h e entry
    rcases phase with phase | phase <;> simp [expected, booklets, phase]

/-- Settles O46: the entries pass the checks of R13 one by one, the second of a pair on the part with the first applied. -/
theorem writeRosterStoresOrFreesTheSlot : Obligations.WriteRosterStoresOrFreesTheSlot := by
  intro tag k s h hk loose
  have unbound : s.countFrame.slotBound k = false := State.slotBound_eq_false (s := s.countFrame) loose
  refine ⟨fun id c n fixed hid hc hn hf takes duplicates conflicts => ?_, ?_,
    fun id c n n' hk' next hid hc hn hn' loaded duplicates => ?_⟩
  · have range : (RosterWrite.use id c n fixed).inRange = true := by
      cases fixed <;> simp_all [RosterWrite.inRange]
    have takes : (s.chan c).takesEntries = true := by
      rcases takes with loaded | admits
      · simp [Channel.takesEntries, loaded]
      · simp [Channel.takesEntries, admits]
    have duplicates : s.countFrame.duplicates k id c = false := duplicates
    have conflicts : s.countFrame.conflicts k id c = false := conflicts
    have passes : s.countFrame.rosterRefusal k (.use id c n fixed) = none := by
      simp [State.rosterRefusal, range, unbound, takes, duplicates, conflicts]
    obtain ⟨t, run, served⟩ := State.served (i := .writeRoster tag k [.use id c n fixed])
      (f := (·.writeRoster k [.use id c n fixed])) rfl h
      (State.writeEach_one (s := s.countFrame) (Nat.zero_le k) (by omega) passes) (.putRoster s.countFrame k _)
    refine ⟨t, run, served.answered, ?_, fun j hj => ?_, served.unchanged.weaken (by decide)⟩
    · rw [served.entry, State.entry_putRoster, if_pos rfl]
    · rw [served.entry, State.entry_putRoster, if_neg (Ne.symm hj), State.entry_countFrame]
  · have passes : s.countFrame.rosterRefusal k .free = none := by
      simp [State.rosterRefusal, RosterWrite.inRange, unbound]
    obtain ⟨t, run, served⟩ := State.served (i := .writeRoster tag k [.free]) (f := (·.writeRoster k [.free])) rfl h
      (State.writeEach_one (s := s.countFrame) (Nat.zero_le k) (by omega) passes) (.putRoster s.countFrame k _)
    refine ⟨t, run, served.answered, ?_, fun j hj => ?_, served.unchanged.weaken (by decide)⟩
    · rw [served.entry, State.entry_putRoster, if_pos rfl]
    · rw [served.entry, State.entry_putRoster, if_neg (Ne.symm hj), State.entry_countFrame]
  · have range : ∀ m, m ≤ 7 → (RosterWrite.use id c m none).inRange = true := fun m hm => by
      simp [RosterWrite.inRange, hid, hc, hm]
    have takes : (s.chan c).takesEntries = true := by simp [Channel.takesEntries, loaded]
    have duplicates : s.countFrame.duplicates k id c = false := duplicates
    have inactive : s.countFrame.conflicts k id c = false := by simp [State.conflicts, loaded, ChanState.isActive]
    have passes : s.countFrame.rosterRefusal k (.use id c n none) = none := by
      simp [State.rosterRefusal, range n hn, unbound, takes, duplicates, inactive]
    let u := s.countFrame.putRoster k (.use id c n none)
    have chan : u.chan c = s.chan c := rfl
    have free : u.slotBound (k + 1) = false := State.slotBound_eq_false fun e he => by
      rw [State.entry_putRoster, if_neg (by omega), State.entry_countFrame, next] at he
      cases he
    have twice : u.duplicates (k + 1) id c = true := by
      have here : mapGet u.roster k = some (Entry.written0 id c n none) := by
        have := State.entry_putRoster s.countFrame k k (.use id c n none)
        rwa [if_pos rfl] at this
      rw [State.duplicates, List.any_eq_true]
      exact ⟨_, mapGet_mem here, by simp [Entry.written0]⟩
    have fails : u.rosterRefusal (k + 1) (.use id c n' none) = some .duplicate := by
      simp [State.rosterRefusal, range n' hn', free, chan, takes, twice]
    exact State.refused (f := (·.writeRoster k [.use id c n none, .use id c n' none])) rfl h
      (State.writeEach_two_refused (s := s.countFrame) (Nat.zero_le k) (by omega) passes fails)

end Sys2Proof.Machine
end

section
/-! PROOF. Writes of several entries, texts, and the requests taken or discarded: O41, O42, O45, O50. -/

namespace Sys2Proof.Machine

set_option Elab.async false

/-! ## Several entries applied in order -/

section
variable {α β : Type} {put : State → Nat → α → State} {read : State → Nat → β} {out : α → β → β}

/-- What is read outside the entries written stands. -/
theorem foldl_indexed_outside
    (hput : ∀ t i w j, read (put t i w) j = if i = j then out w (read t j) else read t j) (ws : List α) (first : Nat)
    (s : State) (j : Nat) (h : j < first ∨ first + ws.length ≤ j) :
    read ((indexed first ws).foldl (fun t p => put t p.1 p.2) s) j = read s j := by
  induction ws generalizing first s with
  | nil => rfl
  | cons w ws ih =>
    rw [List.length_cons] at h
    rw [indexed, List.foldl_cons, ih _ _ (by omega), hput, if_neg (by omega)]

/-- What is read at an entry written is what that entry makes of it. -/
theorem foldl_indexed_inside
    (hput : ∀ t i w j, read (put t i w) j = if i = j then out w (read t j) else read t j) (ws : List α) (first : Nat)
    (s : State) (j : Nat) (w : α) (h : ws[j]? = some w) :
    read ((indexed first ws).foldl (fun t p => put t p.1 p.2) s) (first + j) = out w (read s (first + j)) := by
  induction ws generalizing first s j with
  | nil => rw [List.getElem?_nil] at h; cases h
  | cons v ws ih =>
    rw [indexed, List.foldl_cons]
    cases j with
    | zero =>
      rw [List.getElem?_cons_zero] at h
      obtain rfl := Option.some.inj h
      rw [foldl_indexed_outside hput ws _ _ _ (by omega), hput, if_pos (by omega)]
    | succ j =>
      rw [List.getElem?_cons_succ] at h
      rw [show first + (j + 1) = first + 1 + j by omega, ih _ _ _ h, hput, if_neg (by omega)]

end

theorem mem_indexed {α : Type} : ∀ {ws : List α} {first : Nat} {p : Nat × α},
    p ∈ indexed first ws → ∃ j, ws[j]? = some p.2 ∧ p.1 = first + j
  | w :: ws, first, p, h => by
    rw [indexed, List.mem_cons] at h
    rcases h with rfl | h
    · exact ⟨0, rfl, rfl⟩
    · obtain ⟨j, place, index⟩ := mem_indexed h
      exact ⟨j + 1, place, by omega⟩

theorem State.writeAll_ok {α : Type} {s : State} {lo hi first : Nat} {ws : List α} {check : Nat → α → Option Code}
    {put : State → Nat → α → State} (some' : ws ≠ []) (few : ws.length ≤ 4) (low : lo ≤ first)
    (high : first + ws.length ≤ hi) (passes : ∀ j w, ws[j]? = some w → check (first + j) w = none) :
    s.writeAll lo hi first ws check put = ⟨.ok, [], (indexed first ws).foldl (fun t p => put t p.1 p.2) s⟩ := by
  have fits : writeRefusal lo hi first ws.length = none :=
    writeRefusal_eq_none (by simpa using some') few low high
  have all : (indexed first ws).findSome? (fun p => check p.1 p.2) = none := by
    rw [List.findSome?_eq_none_iff]
    intro p hp
    obtain ⟨j, place, index⟩ := mem_indexed hp
    rw [index]
    exact passes j p.2 place
  rw [State.writeAll, fits, all]
  rfl

/-! ## SEATS and STATIONS -/

theorem Line.addr_dropMark (n : Line) (a b : Nat) : (n.dropMark a).addr b = n.addr b := rfl

theorem State.presence_newAddress (s : State) (l a m b : Nat) :
    (s.newAddress l a).presence m b = if l = m ∧ a = b then .absent else s.presence m b := by
  rw [State.presence, State.newAddress, State.line_onLine]
  by_cases line : l = m
  · subst line
    by_cases addr : a = b
    · simp [addr, Line.addr_dropMark, Line.addr_onAddr, AddrState.blank]
    · simp [addr, Line.addr_dropMark, Line.addr_onAddr, State.presence]
  · simp [line, State.presence]

theorem seatPlace_inj {i j : Nat} : (seatLine i = seatLine j ∧ seatAddr i = seatAddr j) ↔ i = j := by
  simp only [seatLine, seatAddr]
  omega

/-- A seat's record and its desk's presence, read together. -/
def State.seatAndDesk (s : State) (i : Nat) : Seat × Presence := (s.seat i, s.presence (seatLine i) (seatAddr i))

/-- What a SEATS entry makes of them (R2, R7). -/
def seatMade (w : SeatWrite) (x : Seat × Presence) : Seat × Presence :=
  (x.1.write w, if x.1.configured = decide (w.configured = 1) then x.2 else .absent)

theorem State.seatAndDesk_putSeat (s : State) (i : Nat) (w : SeatWrite) (j : Nat) :
    (s.putSeat i w).seatAndDesk j = if i = j then seatMade w (s.seatAndDesk j) else s.seatAndDesk j := by
  have desks : ∀ l a, (s.onSeat i fun r => r.write w).presence l a = s.presence l a := fun _ _ => rfl
  have written : ((s.onSeat i fun r => r.write w).seat i).configured = decide (w.configured = 1) := by
    rw [State.seat_onSeat, if_pos rfl]; rfl
  rw [State.putSeat]
  simp only [written]
  by_cases same : decide (w.configured = 1) = (s.seat i).configured
  · rw [if_pos same]
    by_cases here : i = j
    · subst here
      simp [State.seatAndDesk, seatMade, desks, same]
    · simp [State.seatAndDesk, desks, here]
  · rw [if_neg same]
    have seat : ∀ t : State, ∀ l a, (t.newAddress l a).seat j = t.seat j := fun _ _ _ => rfl
    by_cases here : i = j
    · subst here
      simp [State.seatAndDesk, seatMade, seat, State.presence_newAddress, Ne.symm same]
    · have apart : ¬(seatLine i = seatLine j ∧ seatAddr i = seatAddr j) := fun h => here (seatPlace_inj.1 h)
      simp [State.seatAndDesk, seat, State.presence_newAddress, desks, here, apart]

/-- A station's record and its presence, read together. -/
def State.stationAndDesk (s : State) (a : Nat) : Station × Presence := (s.station a, s.presence 6 a)

/-- What a STATIONS entry makes of them (R118). -/
def stationMade (w : StationWrite) (x : Station × Presence) : Station × Presence :=
  (⟨decide (w.configured = 1), roleOf w.role⟩, if x.1.configured = decide (w.configured = 1) then x.2 else .absent)

theorem State.stationAndDesk_putStation (s : State) (i : Nat) (w : StationWrite) (j : Nat) :
    (s.putStation i w).stationAndDesk j = if i = j then stationMade w (s.stationAndDesk j) else s.stationAndDesk j := by
  let x : Station := ⟨decide (w.configured = 1), roleOf w.role⟩
  let t : State := { s with stations := tabSet Station.blank s.stations i x }
  have station : ∀ a, t.station a = if i = a then x else s.station a := fun a => tabGet_tabSet _ _ _ _ _
  have desks : ∀ l a, t.presence l a = s.presence l a := fun _ _ => rfl
  have put : s.putStation i w = if (t.station i).configured = (s.station i).configured then t else t.newAddress 6 i := rfl
  have stands : ∀ u : State, ∀ l a, (u.newAddress l a).station j = u.station j := fun _ _ _ => rfl
  rw [put, station, if_pos rfl]
  by_cases same : x.configured = (s.station i).configured
  · rw [if_pos same]
    by_cases here : i = j
    · subst here
      simp [State.stationAndDesk, stationMade, desks, station, ← same, x]
    · simp [State.stationAndDesk, desks, station, here]
  · rw [if_neg same]
    by_cases here : i = j
    · subst here
      have changed : ¬(s.station i).configured = decide (w.configured = 1) := fun e => same e.symm
      simp [State.stationAndDesk, stationMade, stands, State.presence_newAddress, station, changed, x]
    · simp [State.stationAndDesk, stands, State.presence_newAddress, desks, station, here]

/-- Settles O45: the entries, all passing, are applied in order, each on its own record and desk. -/
theorem writeSeatsAndStationsStoreTheRecords : Obligations.WriteSeatsAndStationsStoreTheRecords := by
  intro tag first s h
  refine ⟨fun ws some' few high range free apart => ?_, fun ws some' few low high range => ?_⟩
  · have passes : ∀ j w, ws[j]? = some w →
        s.countFrame.seatRefusal (sharesPosition (s.countFrame.seatsAfter first ws)) (first + j) w = none := by
      intro j w place
      have inRange : w.inRange = true := by
        obtain ⟨h1, h2, h3, h4, h5⟩ := range w (List.mem_of_getElem? place)
        simp [SeatWrite.inRange, *]
      have unbound : (s.seat (first + j)).occ.slot = none := free j (List.getElem?_eq_some_iff.1 place).1
      have clash : sharesPosition (s.countFrame.seatsAfter first ws) = false := apart
      rw [State.seatRefusal, if_neg (by simp [inRange]), State.seat_countFrame, if_neg (by simp [unbound]),
        if_neg (by simp [clash])]
    have answer : s.countFrame.writeSeats first ws = ⟨.ok, [], _⟩ :=
      State.writeAll_ok some' few (Nat.zero_le first) high passes
    have moves := Moves.writeAll (k := [.seats, .presence]) s.countFrame 0 384 first ws
      (s.countFrame.seatRefusal (sharesPosition (s.countFrame.seatsAfter first ws))) _ Moves.putSeat
    rw [show s.countFrame.writeAll .. = _ from answer] at moves
    obtain ⟨t, run, served⟩ := State.served (i := .writeSeats tag first ws) (f := (·.writeSeats first ws)) rfl h answer moves
    have reads : ∀ i, t.seatAndDesk i =
        ((indexed first ws).foldl (fun t p => t.putSeat p.1 p.2) s.countFrame).seatAndDesk i := fun i => by
      rw [State.seatAndDesk, served.seat, served.presence, State.seatAndDesk]
    refine ⟨t, run, served.answered, fun j w place => ?_, fun i outside => ?_, served.unchanged.weaken (by decide)⟩
    · have both := (reads (first + j)).trans (foldl_indexed_inside State.seatAndDesk_putSeat ws first _ j w place)
      exact ⟨congrArg Prod.fst both, congrArg Prod.snd both⟩
    · have both := (reads i).trans (foldl_indexed_outside State.seatAndDesk_putSeat ws first _ i outside)
      exact ⟨congrArg Prod.fst both, congrArg Prod.snd both⟩
  · have passes : ∀ (j : Nat) (w : StationWrite), ws[j]? = some w → w.refusal = none := fun j w place => by
      rw [StationWrite.refusal, if_pos (range w (List.mem_of_getElem? place))]
    have answer : s.countFrame.writeStations first ws = ⟨.ok, [], _⟩ := State.writeAll_ok some' few low high passes
    have moves := Moves.writeAll (k := [.stations, .presence]) s.countFrame 1 9 first ws
      (fun _ (w : StationWrite) => w.refusal) _ Moves.putStation
    rw [show s.countFrame.writeAll .. = _ from answer] at moves
    obtain ⟨t, run, served⟩ :=
      State.served (i := .writeStations tag first ws) (f := (·.writeStations first ws)) rfl h answer moves
    have reads : ∀ a, t.stationAndDesk a =
        ((indexed first ws).foldl (fun t p => t.putStation p.1 p.2) s.countFrame).stationAndDesk a := fun a => by
      have station : t.station a =
          ((indexed first ws).foldl (fun t p => t.putStation p.1 p.2) s.countFrame).station a := by
        rw [served.eq, State.station, State.settle_stations, State.respond_stations, State.station]
      rw [State.stationAndDesk, station, served.presence, State.stationAndDesk]
    refine ⟨t, run, served.answered, fun j w place => ?_, fun a outside => ?_, served.unchanged.weaken (by decide)⟩
    · have both := (reads (first + j)).trans (foldl_indexed_inside State.stationAndDesk_putStation ws first _ j w place)
      refine ⟨(congrArg Prod.fst both).trans ?_, congrArg Prod.snd both⟩
      obtain ⟨-, role⟩ := range w (List.mem_of_getElem? place)
      have roles : roleOf w.role = if w.role = 0 then .entrance else if w.role = 1 then .collect else .issue := by
        rcases (by omega : w.role = 0 ∨ w.role = 1 ∨ w.role = 2) with e | e | e <;> rw [e] <;> rfl
      rw [← roles]
      rfl
    · have both := (reads a).trans (foldl_indexed_outside State.stationAndDesk_putStation ws first _ a outside)
      exact ⟨congrArg Prod.fst both, congrArg Prod.snd both⟩

end Sys2Proof.Machine
end

section
/-! PROOF. The bytes of requests read back: fields, table entries, arguments (R196, R199), as O40 and the typed and untyped
writes of O50 need them. -/

namespace Sys2Proof.Machine

set_option Elab.async false

/-! ## Numbers and packed digits -/

theorem foldl_be (n v acc : Nat) :
    (be n v).foldl (fun a b => a * 256 + b.toNat) acc = acc * 256 ^ n + v % 256 ^ n := by
  induction n generalizing acc with
  | zero => simp [be, Nat.mod_one]
  | succ n ih =>
    rw [be, List.foldl_cons, ih, BitVec.toNat_ofNat, Nat.pow_succ 256 n, Nat.mod_mul, Nat.add_mul]
    have byte : v / 256 ^ n % 2 ^ 8 = v / 256 ^ n % 256 := rfl
    rw [byte, Nat.mul_comm (256 ^ n) 256, ← Nat.mul_assoc, Nat.mul_comm (v / 256 ^ n % 256)]
    omega

theorem length_be (n v : Nat) : (be n v).length = n := by
  induction n with
  | zero => rfl
  | succ n ih => rw [be, List.length_cons, ih]

theorem beVal_be {n v : Nat} (h : v < 256 ^ n) : beVal (be n v) = v := by
  rw [beVal, foldl_be, Nat.zero_mul, Nat.zero_add, Nat.mod_eq_of_lt h]

theorem length_packed (n v : Nat) : (packed n v).length = n := by
  induction n with
  | zero => rfl
  | succ n ih => rw [packed, List.length_cons, ih]

/-- One byte of packed digits read onto what stands before it. -/
def unpackByte (acc : Option Nat) (b : Byte) : Option Nat :=
  match acc with
  | some a => if b.toNat / 16 ≤ 9 ∧ b.toNat % 16 ≤ 9 then some (a * 100 + b.toNat / 16 * 10 + b.toNat % 16) else none
  | none => none

theorem unpack_eq_foldl (bytes : List Byte) : unpack bytes = bytes.foldl unpackByte (some 0) := rfl

theorem unpackByte_digits (a d : Nat) (h : d < 100) :
    unpackByte (some a) (BitVec.ofNat 8 (d / 10 * 16 + d % 10)) = some (a * 100 + d) := by
  have whole : (BitVec.ofNat 8 (d / 10 * 16 + d % 10)).toNat = d / 10 * 16 + d % 10 := by
    rw [BitVec.toNat_ofNat]; omega
  rw [unpackByte, whole, if_pos (by omega)]
  congr 1
  omega

theorem foldl_packed (n v acc : Nat) :
    (packed n v).foldl unpackByte (some acc) = some (acc * 100 ^ n + v % 100 ^ n) := by
  induction n generalizing acc with
  | zero => simp [packed, Nat.mod_one]
  | succ n ih =>
    have ones : v / 100 ^ n % 10 = v / 100 ^ n % 100 % 10 := by omega
    rw [packed, List.foldl_cons, ones, unpackByte_digits _ _ (Nat.mod_lt _ (by omega)), ih, Nat.pow_succ 100 n, Nat.mod_mul,
      Nat.add_mul, Nat.mul_comm (100 ^ n) 100, ← Nat.mul_assoc, Nat.mul_comm (v / 100 ^ n % 100)]
    congr 1
    omega

theorem unpack_packed {n v : Nat} (h : v < 100 ^ n) : unpack (packed n v) = some v := by
  rw [unpack_eq_foldl, foldl_packed, Nat.zero_mul, Nat.zero_add, Nat.mod_eq_of_lt h]

theorem length_packedAny (n v : Nat) : (packedAny n v).length = n := by
  rw [packedAny]
  split
  · exact length_packed n v
  · exact List.length_replicate

/-! ## Fields -/

/-- `p` reads `v` from the bytes given, whatever follows them. -/
def Parses {α : Type} (p : Parse α) (bytes : List Byte) (v : α) : Prop := ∀ rest, p (bytes ++ rest) = some (v, rest)

theorem fitsBytes_iff {n v : Nat} : fits n v = true ↔ v < 256 ^ n := by rw [fits, decide_eq_true_eq]

theorem parses_be {n v : Nat} (h : fits n v = true) : Parses (pNat n) (be n v) v := fun rest => by
  have len := length_be n v
  rw [pNat, if_pos (by rw [List.length_append]; omega), List.take_left' len, List.drop_left' len, beVal_be (fitsBytes_iff.1 h)]

theorem parses_b1 {v : Nat} (h : fits 1 v = true) : Parses (pNat 1) (b1 v) v := parses_be h

/-- Any `n` bytes are read as a number. -/
theorem parses_skip (bytes : List Byte) : Parses (pNat bytes.length) bytes (beVal bytes) := fun rest => by
  rw [pNat, if_pos (by rw [List.length_append]; omega), List.take_left, List.drop_left]

theorem unpack_packedAny {n v : Nat} (pos : n = 2 ∨ n = 4) (h : fitsPacked n v = true) :
    (unpack (packedAny n v)).getD (100 ^ n) = v := by
  rw [fitsPacked, decide_eq_true_eq] at h
  rw [packedAny]
  by_cases below : v < 100 ^ n
  · rw [if_pos below, unpack_packed below]
    rfl
  · rw [if_neg below, Nat.le_antisymm h (Nat.le_of_not_lt below)]
    rcases pos with rfl | rfl <;> rfl

theorem parses_packedAny {n v : Nat} (pos : n = 2 ∨ n = 4) (h : fitsPacked n v = true) :
    Parses (pPacked n) (packedAny n v) v := fun rest => by
  have len := length_packedAny n v
  rw [pPacked, if_pos (by rw [List.length_append]; omega), List.take_left' len, List.drop_left' len, unpack_packedAny pos h]

theorem parses_bOpt {α : Type} {p : Parse α} {f : α → List Byte} {x : Option α} (h : ∀ v, x = some v → Parses p (f v) v) :
    Parses (pOpt p) (bOpt f x) x := fun rest => by
  cases x with
  | none => rfl
  | some v =>
    have one : bOpt f (some v) ++ rest = 1#8 :: (f v ++ rest) := rfl
    rw [one, pOpt, if_neg (by decide), if_pos rfl, h v rfl rest]
    rfl

theorem parses_many {α : Type} {p : Parse α} {f : α → List Byte} {vs : List α} (h : ∀ v ∈ vs, Parses p (f v) v) :
    Parses (pMany vs.length p) (vs.flatMap f) vs := by
  induction vs with
  | nil => exact fun _ => rfl
  | cons v vs ih =>
    intro rest
    have first := h v List.mem_cons_self (vs.flatMap f ++ rest)
    have others := ih (fun w hw => h w (List.mem_cons_of_mem v hw)) rest
    rw [List.flatMap_cons, List.append_assoc, List.length_cons, pMany]
    simp only [first, others, Option.bind_eq_bind, Option.bind_some, Option.pure_def]

theorem parses_bList {α : Type} {p : Parse α} {f : α → List Byte} {vs : List α} (len : fits 1 vs.length = true)
    (h : ∀ v ∈ vs, Parses p (f v) v) : Parses (pList p) (bList f vs) vs := fun rest => by
  rw [bList, List.append_assoc, pList]
  simp only [parses_b1 len _, Option.bind_eq_bind, Option.bind_some]
  exact parses_many h rest

theorem parses_byte (b : Byte) : Parses pByte [b] b := fun _ => rfl

theorem parses_pair {α β : Type} {p : Parse α} {q : Parse β} {xs ys : List Byte} {a : α} {b : β} (hp : Parses p xs a)
    (hq : Parses q ys b) : Parses (pPair p q) (xs ++ ys) (a, b) := fun rest => by
  rw [List.append_assoc, pPair]
  simp only [hp _, hq _, Option.bind_eq_bind, Option.bind_some, Option.pure_def]

theorem Parses.whole {α : Type} {p : Parse α} {bytes : List Byte} {v : α} (h : Parses p bytes v) :
    p bytes = some (v, []) := by
  have := h []
  rwa [List.append_nil] at this

/-! ## Entries -/

theorem entriesIn_flatMap {α : Type} {p : Parse α} {f : α → List Byte} {ws : List α} (h : ∀ w ∈ ws, Parses p (f w) w) :
    entriesIn ws.length p (ws.flatMap f) = some ws := by
  rw [entriesIn, (parses_many h).whole]

theorem parses_seat {w : SeatWrite} (h : w.wf = true) : Parses pSeat w.bytes w := fun rest => by
  simp only [SeatWrite.wf, Bool.and_eq_true] at h
  obtain ⟨⟨⟨⟨h1, h2⟩, h3⟩, h4⟩, h5⟩ := h
  simp only [pSeat, SeatWrite.bytes, List.append_assoc, parses_b1 h1 _, parses_b1 h2 _, parses_b1 h3 _, parses_b1 h4 _,
    parses_b1 h5 _, Option.bind_eq_bind, Option.bind_some, Option.pure_def]

theorem parses_station {w : StationWrite} (h : w.wf = true) : Parses pStation w.bytes w := fun rest => by
  simp only [StationWrite.wf, Bool.and_eq_true] at h
  simp only [pStation, StationWrite.bytes, List.append_assoc, parses_b1 h.1 _, parses_b1 h.2 _, Option.bind_eq_bind,
    Option.bind_some, Option.pure_def]

/-- The four fields of an entry in use (R10, R13). -/
def pUse : Parse RosterWrite := fun bs => do
  let (id, bs) ← pPacked 4 bs
  let (channel, bs) ← pNat 1 bs
  let (cls, bs) ← pNat 1 bs
  let (fixed, bs) ← pOpt (pNat 2) bs
  return (RosterWrite.use id channel cls fixed, bs)

theorem pRoster_eq (bs : List Byte) : pRoster bs = (pOpt pUse bs).bind fun r => some (r.1.getD .free, r.2) := rfl

theorem parses_roster {w : RosterWrite} (h : w.wf = true) : Parses pRoster w.bytes w := fun rest => by
  rw [pRoster_eq]
  cases w with
  | free => rfl
  | use id c n fixed =>
    simp only [RosterWrite.wf, Bool.and_eq_true] at h
    obtain ⟨⟨⟨hid, hc⟩, hn⟩, hf⟩ := h
    have place : Parses (pOpt (pNat 2)) (bOpt (be 2) fixed) fixed :=
      parses_bOpt fun v e => parses_be (by rw [e] at hf; exact hf)
    have fields : Parses pUse (packedAny 4 id ++ b1 c ++ b1 n ++ bOpt (be 2) fixed) (.use id c n fixed) := fun rest => by
      simp only [pUse, List.append_assoc, parses_packedAny (.inr rfl) hid _, parses_b1 hc _, parses_b1 hn _, place _,
        Option.bind_eq_bind, Option.bind_some, Option.pure_def]
    have used := parses_bOpt (f := fun _ : RosterWrite => packedAny 4 id ++ b1 c ++ b1 n ++ bOpt (be 2) fixed)
      (x := some (.use id c n fixed)) (fun v e => by obtain rfl := Option.some.inj e; exact fields) rest
    have bytes : (RosterWrite.use id c n fixed).bytes =
        bOpt (fun _ : RosterWrite => packedAny 4 id ++ b1 c ++ b1 n ++ bOpt (be 2) fixed) (some (.use id c n fixed)) := by
      simp only [RosterWrite.bytes, bOpt, List.append_assoc]
    rw [bytes, used]
    rfl

theorem parses_rect {r : Rect} (h : (fits 1 r.r0 && fits 1 r.r1 && fits 1 r.c0 && fits 1 r.c1) = true) :
    Parses pRect (b1 r.r0 ++ b1 r.r1 ++ b1 r.c0 ++ b1 r.c1) r := fun rest => by
  simp only [Bool.and_eq_true] at h
  obtain ⟨⟨⟨h1, h2⟩, h3⟩, h4⟩ := h
  simp only [pRect, List.append_assoc, parses_b1 h1 _, parses_b1 h2 _, parses_b1 h3 _, parses_b1 h4 _,
    Option.bind_eq_bind, Option.bind_some, Option.pure_def]

theorem parses_runtime : Parses pRuntime (List.replicate 19 0#8) () := fun _ => rfl

/-- One field read, and what follows it. -/
theorem bind_read {α β : Type} {x : Option α} {v : α} (h : x = some v) {k : α → Option β} : (x >>= k) = k v := by
  rw [h]
  rfl

theorem parses_channel {w : ChannelWrite} (h : w.wf = true) : Parses pChannelWhole w.bytes w := fun rest => by
  simp only [ChannelWrite.wf, Bool.and_eq_true] at h
  obtain ⟨⟨⟨⟨⟨⟨⟨⟨⟨⟨⟨⟨⟨⟨⟨⟨paper, form⟩, profile⟩, few⟩, zones⟩, fill⟩, spacing⟩, relax⟩, admission⟩, start⟩, reading⟩, writing⟩,
    late⟩, barStart⟩, barEnd⟩, short⟩, warnings⟩ := h
  have times : ∀ x : Option Nat, x.all (fits 3) = true → Parses (pOpt (pNat 3)) (bOpt (be 3) x) x := fun x hx =>
    parses_bOpt fun v e => parses_be (by rw [e] at hx; exact hx)
  have rects := parses_bList few fun r hr => parses_rect (List.all_eq_true.1 zones r hr)
  have offsets := parses_bList short fun n hn => parses_be (List.all_eq_true.1 warnings n hn)
  have fields : pChannel (w.bytes ++ rest) = some (w, List.replicate 19 0#8 ++ rest) := by
    rw [ChannelWrite.bytes]
    simp only [List.append_assoc]
    exact (bind_read (parses_packedAny (.inl rfl) paper _)).trans <| (bind_read (parses_b1 form _)).trans <|
      (bind_read (parses_b1 profile _)).trans <| (bind_read (rects _)).trans <| (bind_read (parses_b1 fill _)).trans <|
      (bind_read (parses_b1 spacing _)).trans <| (bind_read (parses_b1 relax _)).trans <|
      (bind_read (times _ admission _)).trans <| (bind_read (times _ start _)).trans <|
      (bind_read (parses_be reading _)).trans <| (bind_read (parses_be writing _)).trans <|
      (bind_read (parses_be late _)).trans <| (bind_read (parses_be barStart _)).trans <|
      (bind_read (parses_be barEnd _)).trans <| (bind_read (offsets _)).trans rfl
  exact (bind_read fields).trans <| (bind_read (parses_runtime rest)).trans rfl

theorem parses_class {w : ClassWrite} (h : w.wf = true) : Parses pClass w.bytes w := fun rest => by
  simp only [ClassWrite.wf, Bool.and_eq_true] at h
  simp only [pClass, ClassWrite.bytes, List.append_assoc, parses_b1 h.1.1 _, parses_be h.1.2 _, parses_b1 h.2 _,
    Option.bind_eq_bind, Option.bind_some, Option.pure_def]

theorem parses_form {w : FormWrite} (h : w.wf = true) : Parses pForm w.bytes w := fun rest => by
  simp only [FormWrite.wf, Bool.and_eq_true] at h
  obtain ⟨⟨⟨h1, h2⟩, h3⟩, h4⟩ := h
  simp only [pForm, FormWrite.bytes, List.append_assoc, parses_b1 h1 _, parses_b1 h2 _, parses_b1 h3 _, parses_b1 h4 _,
    Option.bind_eq_bind, Option.bind_some, Option.pure_def]

theorem parses_profile {w : ProfileWrite} (h : w.wf = true) : Parses pProfile w.bytes w := fun rest => by
  simp only [ProfileWrite.wf, Bool.and_eq_true] at h
  obtain ⟨⟨⟨⟨⟨⟨h1, h2⟩, h3⟩, h4⟩, h5⟩, h6⟩, h7⟩ := h
  simp only [pProfile, ProfileWrite.bytes, List.append_assoc, parses_b1 h1 _, parses_b1 h2 _, parses_b1 h3 _,
    parses_b1 h4 _, parses_b1 h5 _, parses_b1 h6 _, parses_b1 h7 _, Option.bind_eq_bind, Option.bind_some, Option.pure_def]

theorem parses_key {w : KeyWrite} (h : w.wf = true) : Parses pKey w.bytes w := fun rest => by
  simp only [KeyWrite.wf, Bool.and_eq_true] at h
  obtain ⟨⟨⟨⟨len, each⟩, h2⟩, h3⟩, h4⟩ := h
  have accepted := parses_bList len fun o ho => parses_b1 (List.all_eq_true.1 each o ho)
  simp only [pKey, KeyWrite.bytes, List.append_assoc, accepted _, parses_b1 h2 _, parses_b1 h3 _, parses_b1 h4 _,
    Option.bind_eq_bind, Option.bind_some, Option.pure_def]

theorem parses_text {t : List Byte} (h : fits 1 t.length = true) : Parses (pList pByte) (bList (fun b => [b]) t) t :=
  parses_bList h fun b _ => parses_byte b

theorem parses_signal {w : SignalWrite} (h : w.wf = true) : Parses pSignal w.bytes w := fun rest => by
  simp only [SignalWrite.wf, Bool.and_eq_true, Bool.or_eq_true, decide_eq_true_eq] at h
  obtain ⟨⟨⟨⟨⟨source, channel⟩, only⟩, condition⟩, mode⟩, polarity⟩ := h
  simp only [pSignal, SignalWrite.bytes, List.append_assoc, parses_b1 source _, Option.bind_eq_bind, Option.bind_some]
  by_cases one : w.source = 1
  · simp only [one, if_true, parses_b1 channel _, parses_b1 condition _, parses_b1 mode _, parses_b1 polarity _,
      Option.bind_some, Option.pure_def]
    rw [← one]
  · have zero : w.channel = 0 := only.resolve_left one
    simp only [one, if_false, List.nil_append, parses_b1 condition _, parses_b1 mode _, parses_b1 polarity _,
      Option.bind_some, Option.pure_def]
    rw [← zero]

theorem parses_hall {w : HallWrite} (h : w.wf = true) : Parses pHallWhole w.bytes w := fun rest => by
  simp only [HallWrite.wf, Bool.and_eq_true, decide_eq_true_eq] at h
  obtain ⟨⟨⟨⟨⟨⟨⟨⟨six, polls⟩, station⟩, limit⟩, clearing⟩, deadline⟩, mark⟩, sixteen⟩, masks⟩ := h
  have seats := parses_many fun n hn => parses_be (n := 2) (List.all_eq_true.1 polls n hn)
  have bits := parses_many fun n hn => parses_b1 (List.all_eq_true.1 masks n hn)
  rw [six] at seats
  rw [sixteen] at bits
  have zeros : Parses (pNat 7) (List.replicate 7 0#8) 0 := fun _ => rfl
  simp only [pHallWhole, pHall, HallWrite.bytes, List.append_assoc, seats _, parses_be station _, parses_be limit _,
    parses_be clearing _, parses_be deadline _, parses_b1 mark _, bits _, zeros _, Option.bind_eq_bind, Option.bind_some,
    Option.pure_def]

theorem parses_target {x : DeskTarget} (h : x.wf = true) : Parses pTarget x.bytes x := fun rest => by
  have kind : ∀ v, v < 4 → fits 1 v = true := fun v hv => fitsBytes_iff.2 (by omega)
  cases x with
  | seat i =>
    simp only [pTarget, DeskTarget.bytes, List.append_assoc, parses_b1 (kind 0 (by omega)) _,
      parses_be (show fits 2 i = true from h) _, Option.bind_eq_bind, Option.bind_some, Option.map_some]
  | channel c =>
    simp only [pTarget, DeskTarget.bytes, List.append_assoc, parses_b1 (kind 1 (by omega)) _,
      parses_b1 (show fits 1 c = true from h) _, Option.bind_eq_bind, Option.bind_some, Option.map_some]
  | line l =>
    simp only [pTarget, DeskTarget.bytes, List.append_assoc, parses_b1 (kind 2 (by omega)) _,
      parses_b1 (show fits 1 l = true from h) _, Option.bind_eq_bind, Option.bind_some, Option.map_some]
  | hall =>
    simp only [pTarget, DeskTarget.bytes, parses_b1 (kind 3 (by omega)) _, Option.bind_eq_bind, Option.bind_some]

end Sys2Proof.Machine
end

section
/-! PROOF. The frame of a request does what the request does: O40; requests discarded, refused and written as bytes: O39,
O41, O42, O50. -/

namespace Sys2Proof.Machine

set_option Elab.async false

/-! ## Requests by their payload -/

theorem State.withArgs_of {α : Type} {s : State} {p : Parse α} {bytes : List Byte} {v : α} {f : α → Answer}
    (h : Parses p bytes v) : s.withArgs p bytes f = f v := by
  rw [State.withArgs, h.whole]

theorem State.serve_command (s : State) {n : Nat} (args : List Byte) (h : n < 256) :
    s.serve (0x03#8).toNat (b1 n ++ args) = s.command n args := by
  have number := parses_b1 (fitsBytes_iff.2 (by omega : n < 256 ^ 1)) args
  have kind : s.serve (0x03#8).toNat (b1 n ++ args) = match pNat 1 (b1 n ++ args) with
    | some (n, rest) => s.command n rest
    | none => s.refuse .range := rfl
  rw [kind, number]

theorem parses_tableHead {t first n : Nat} (ht : fits 1 t = true) (hf : fits 2 first = true) (hn : fits 1 n = true) :
    Parses (pPair (pNat 1) (pPair (pNat 2) (pNat 1))) (tableHead t first n) (t, first, n) := by
  rw [tableHead, List.append_assoc]
  exact parses_pair (parses_b1 ht) (parses_pair (parses_be hf) (parses_b1 hn))

theorem State.serve_read (s : State) {t first n : Nat} (ht : fits 1 t = true) (hf : fits 2 first = true)
    (hn : fits 1 n = true) : s.serve (0x01#8).toNat (tableHead t first n) = s.read t first n := by
  have kind : s.serve (0x01#8).toNat (tableHead t first n) =
    s.withArgs (pPair (pNat 1) (pPair (pNat 2) (pNat 1))) (tableHead t first n) fun a => s.read a.1 a.2.1 a.2.2 := rfl
  rw [kind, State.withArgs_of (parses_tableHead ht hf hn)]

theorem State.serve_write (s : State) {t first n : Nat} (payload : List Byte) (ht : fits 1 t = true)
    (hf : fits 2 first = true) (hn : fits 1 n = true) :
    s.serve (0x02#8).toNat (tableHead t first n ++ payload) = s.write t first n payload := by
  have kind : s.serve (0x02#8).toNat (tableHead t first n ++ payload) =
    match pPair (pNat 1) (pPair (pNat 2) (pNat 1)) (tableHead t first n ++ payload) with
    | some (a, rest) => s.write a.1 a.2.1 a.2.2 rest
    | none => s.refuse .range := rfl
  rw [kind, parses_tableHead ht hf hn payload]

/-- A table's own write, which makes the common checks of R181 itself, is what WRITE_TABLE does with the entries' bytes. -/
theorem State.write_eq {s : State} {t lo hi first n : Nat} {payload : List Byte} {a : Answer}
    (span : (if t = 12 then none else tableSpan t) = some (lo, hi)) (entries : s.writeEntries t first n payload = a)
    (own : ∀ code, writeRefusal lo hi first n = some code → a = s.refuse code) : s.write t first n payload = a := by
  rw [State.write, span]
  cases checks : writeRefusal lo hi first n with
  | none => simpa only [checks] using entries
  | some code => simp only [checks, own code checks]

theorem State.writeAll_refused {α : Type} {s : State} {lo hi first : Nat} {ws : List α} {check : Nat → α → Option Code}
    {put : State → Nat → α → State} (code : Code) (h : writeRefusal lo hi first ws.length = some code) :
    s.writeAll lo hi first ws check put = s.refuse code := by
  rw [State.writeAll, h]
  rfl

theorem State.writeEach_refused {α : Type} {s : State} {lo hi first : Nat} {ws : List α}
    {check : State → Nat → α → Option Code} {put : State → Nat → α → State} (code : Code)
    (h : writeRefusal lo hi first ws.length = some code) : s.writeEach lo hi first ws check put = s.refuse code := by
  rw [State.writeEach, h]

theorem State.writeHall_refused {s : State} {first : Nat} {ws : List HallWrite} (code : Code)
    (h : writeRefusal 0 1 first ws.length = some code) : s.writeHall first ws = s.refuse code := by
  rw [State.writeHall.eq_def, h]

theorem State.writeKeys_refused {s : State} {first : Nat} {ws : List KeyWrite} (code : Code)
    (h : writeRefusal 0 3200 first ws.length = some code) : s.writeKeys first ws = s.refuse code := by
  rw [State.writeKeys, State.keysRefusal, h]
  rfl

/-- The entries of a payload that its entries' bytes fill. -/
theorem State.withEntries_of {α : Type} (s : State) {p : Parse α} {g : α → List Byte} {ws : List α} {f : List α → Answer}
    (h : ∀ w ∈ ws, Parses p (g w) w) : s.withEntries (entriesIn ws.length p (ws.flatMap g)) f = f ws := by
  rw [entriesIn_flatMap h, State.withEntries]

theorem State.withEntries_or {α : Type} (s : State) {p : Parse α} {g : α → List Byte} {ws : List α} {f : List α → Answer}
    {other : Option (List α)} (h : ∀ w ∈ ws, Parses p (g w) w) :
    s.withEntries ((entriesIn ws.length p (ws.flatMap g)).or other) f = f ws := by
  rw [entriesIn_flatMap h, Option.some_or, State.withEntries]

/-- The owner `f` of a request answers what its frame's payload is served with, and the request is taken with `f`. -/
def Carries (i : Instr) (tag kind : Byte) (payload : List Byte) (f : State → Answer) : Prop :=
  (i.wf = true → ∀ t : State, t.serve kind.toNat payload = f t) ∧
    ∀ s : State, exec i s = .next (s.takeRequest tag kind f).settle

section
variable {i : Instr} {tag : Byte} {f : State → Answer}

theorem carries_command {n : Nat} {args : List Byte} (hn : n < 256) (wf : i.wf = true → ∀ t : State, t.command n args = f t)
    (run : ∀ s : State, exec i s = .next (s.takeRequest tag 0x03#8 f).settle) :
    Carries i tag 0x03#8 (b1 n ++ args) f :=
  ⟨fun h t => (t.serve_command args hn).trans (wf h t), run⟩

/-- A command with its arguments, read by `p` and handed to `g`. -/
theorem carries_args {α : Type} {n : Nat} {args : List Byte} {p : Parse α} {v : α} (g : State → α → Answer) (hn : n < 256)
    (parse : i.wf = true → Parses p args v) (command : ∀ t : State, t.command n args = t.withArgs p args (g t))
    (run : ∀ s : State, exec i s = .next (s.takeRequest tag 0x03#8 fun t => g t v).settle) :
    Carries i tag 0x03#8 (b1 n ++ args) fun t => g t v :=
  carries_command hn (fun h t => (command t).trans (State.withArgs_of (parse h))) run

/-- A command with two arguments. -/
theorem carries_two {α β : Type} {n : Nat} {xs ys : List Byte} {p : Parse α} {q : Parse β} {a : α} {b : β}
    (g : State → α → β → Answer) (hn : n < 256) (parse : i.wf = true → Parses p xs a ∧ Parses q ys b)
    (command : ∀ t : State, t.command n (xs ++ ys) = t.withArgs (pPair p q) (xs ++ ys) fun x => g t x.1 x.2)
    (run : ∀ s : State, exec i s = .next (s.takeRequest tag 0x03#8 fun t => g t a b).settle) :
    Carries i tag 0x03#8 (b1 n ++ (xs ++ ys)) fun t => g t a b :=
  carries_command hn
    (fun h t => (command t).trans (State.withArgs_of (parses_pair (parse h).1 (parse h).2))) run

/-- A typed write: its entries read back, and its own checks include the common ones. -/
theorem carries_write {α : Type} {t lo hi first : Nat} {ws : List α} {g : α → List Byte} {ok : α → Bool}
    (ht : t < 12) (span : (if t = 12 then none else tableSpan t) = some (lo, hi))
    (wf : i.wf = true → entriesWf first ok ws = true)
    (entries : (∀ w ∈ ws, ok w = true) → ∀ s : State, s.writeEntries t first ws.length (ws.flatMap g) = f s)
    (own : ∀ (s : State) (code : Code), writeRefusal lo hi first ws.length = some code → f s = s.refuse code)
    (run : ∀ s : State, exec i s = .next (s.takeRequest tag 0x02#8 f).settle) :
    Carries i tag 0x02#8 (tableHead t first ws.length ++ ws.flatMap g) f := by
  refine ⟨fun h s => ?_, run⟩
  have fields := wf h
  simp only [entriesWf, Bool.and_eq_true] at fields
  obtain ⟨⟨hf, hn⟩, all⟩ := fields
  rw [State.serve_write s _ (fitsBytes_iff.2 (by omega)) hf hn]
  exact State.write_eq span (entries (List.all_eq_true.1 all) s) (own s)

end

/-! ### Reads -/

theorem and_of {x y : Bool} (h : (x && y) = true) : x = true ∧ y = true := Bool.and_eq_true _ _ ▸ h

theorem carries_readTable (tag : Byte) (t first n : Nat) :
    Carries (.readTable tag t first n) tag 0x01#8 (tableHead t first n) (·.read t first n) :=
  ⟨fun wf s => s.serve_read (and_of (and_of wf).1).1 (and_of (and_of wf).1).2 (and_of wf).2, fun _ => rfl⟩

theorem carries_readKeys (tag : Byte) (first n : Nat) :
    Carries (.readKeys tag first n) tag 0x01#8 (tableHead 9 first n) (·.read 9 first n) :=
  ⟨fun wf s => s.serve_read rfl (and_of wf).1 (and_of wf).2, fun _ => rfl⟩

theorem carries_readStats (tag : Byte) (g : Nat) (clear : Bool) :
    Carries (.readStats tag g clear) tag 0x06#8 (b1 g ++ bBool clear) (·.readStats g clear) := by
  refine ⟨fun wf s => ?_, fun _ => rfl⟩
  have kind : s.serve (0x06#8).toNat (b1 g ++ bBool clear) =
    s.withArgs (pPair (pNat 1) (pNat 1)) (b1 g ++ bBool clear)
      fun a => if 1 < a.2 then s.refuse .range else s.readStats a.1 (decide (a.2 = 1)) := rfl
  have bit : Parses (pNat 1) (bBool clear) (if clear then 1 else 0) := parses_b1 (by cases clear <;> rfl)
  rw [kind, State.withArgs_of (parses_pair (parses_b1 wf) bit)]
  cases clear <;> rfl

theorem carries_readResults (tag : Byte) (start most : Nat) :
    Carries (.readResults tag start most) tag 0x07#8 (be 4 start ++ b1 most) (·.readResults start most) := by
  refine ⟨fun wf s => ?_, fun _ => rfl⟩
  have kind : s.serve (0x07#8).toNat (be 4 start ++ b1 most) =
    s.withArgs (pPair (pNat 4) (pNat 1)) (be 4 start ++ b1 most) fun a => s.readResults a.1 a.2 := rfl
  rw [kind, State.withArgs_of (parses_pair (parses_be (and_of wf).1) (parses_b1 (and_of wf).2))]

theorem carries_releaseResults (tag : Byte) (upto : Nat) :
    Carries (.releaseResults tag upto) tag 0x08#8 (be 4 upto) (·.releaseResults upto) := by
  refine ⟨fun wf s => ?_, fun _ => rfl⟩
  have kind : s.serve (0x08#8).toNat (be 4 upto) = s.withArgs (pNat 4) (be 4 upto) s.releaseResults := rfl
  rw [kind, State.withArgs_of (parses_be wf)]

theorem carries_readHistogram (tag : Byte) (c : Nat) :
    Carries (.readHistogram tag c) tag 0x09#8 (b1 c) (·.readHistogram c) := by
  refine ⟨fun wf s => ?_, fun _ => rfl⟩
  have kind : s.serve (0x09#8).toNat (b1 c) = s.withArgs (pNat 1) (b1 c) s.readHistogram := rfl
  rw [kind, State.withArgs_of (parses_b1 wf)]

theorem carries_deskMessage (tag : Byte) (target : DeskTarget) (m : Nat) :
    Carries (.deskMessage tag target m) tag 0x0A#8 (target.bytes ++ b1 m) (·.deskMessage target m) := by
  refine ⟨fun wf s => ?_, fun _ => rfl⟩
  have kind : s.serve (0x0A#8).toNat (target.bytes ++ b1 m) =
    s.withArgs (pPair pTarget (pNat 1)) (target.bytes ++ b1 m) fun a => s.deskMessage a.1 a.2 := rfl
  rw [kind, State.withArgs_of (parses_pair (parses_target (and_of wf).1) (parses_b1 (and_of wf).2))]

/-! ### Writes -/

theorem carries_writeTable (tag : Byte) (t first n : Nat) (bytes : List Byte) :
    Carries (.writeTable tag t first n bytes) tag 0x02#8 (tableHead t first n ++ bytes) (·.write t first n bytes) :=
  ⟨fun wf s => s.serve_write bytes (and_of (and_of (and_of wf).1).1).1 (and_of (and_of (and_of wf).1).1).2
    (and_of (and_of wf).1).2, fun _ => rfl⟩

theorem carries_writeHall (tag : Byte) (first : Nat) (ws : List HallWrite) :
    Carries (.writeHall tag first ws) tag 0x02#8 (writeBytes 1 first HallWrite.bytes ws).2 (·.writeHall first ws) :=
  carries_write (by decide) rfl id (fun ok s => s.withEntries_or fun w hw => parses_hall (ok w hw))
    (fun _ => State.writeHall_refused) fun _ => rfl

theorem carries_writeSeats (tag : Byte) (first : Nat) (ws : List SeatWrite) :
    Carries (.writeSeats tag first ws) tag 0x02#8 (writeBytes 2 first SeatWrite.bytes ws).2 (·.writeSeats first ws) :=
  carries_write (by decide) rfl id (fun ok s => s.withEntries_of fun w hw => parses_seat (ok w hw))
    (fun _ => State.writeAll_refused) fun _ => rfl

theorem carries_writeStations (tag : Byte) (first : Nat) (ws : List StationWrite) :
    Carries (.writeStations tag first ws) tag 0x02#8 (writeBytes 3 first StationWrite.bytes ws).2 (·.writeStations first ws) :=
  carries_write (by decide) rfl id (fun ok s => s.withEntries_of fun w hw => parses_station (ok w hw))
    (fun _ => State.writeAll_refused) fun _ => rfl

theorem carries_writeRoster (tag : Byte) (first : Nat) (ws : List RosterWrite) :
    Carries (.writeRoster tag first ws) tag 0x02#8 (writeBytes 4 first RosterWrite.bytes ws).2 (·.writeRoster first ws) :=
  carries_write (by decide) rfl id (fun ok s => s.withEntries_of fun w hw => parses_roster (ok w hw))
    (fun _ => State.writeEach_refused) fun _ => rfl

theorem carries_writeClasses (tag : Byte) (first : Nat) (ws : List ClassWrite) :
    Carries (.writeClasses tag first ws) tag 0x02#8 (writeBytes 6 first ClassWrite.bytes ws).2 (·.writeClasses first ws) :=
  carries_write (by decide) rfl id (fun ok s => s.withEntries_of fun w hw => parses_class (ok w hw))
    (fun _ => State.writeAll_refused) fun _ => rfl

theorem carries_writeForms (tag : Byte) (first : Nat) (ws : List FormWrite) :
    Carries (.writeForms tag first ws) tag 0x02#8 (writeBytes 7 first FormWrite.bytes ws).2 (·.writeForms first ws) :=
  carries_write (by decide) rfl id (fun ok s => s.withEntries_of fun w hw => parses_form (ok w hw))
    (fun _ => State.writeAll_refused) fun _ => rfl

theorem carries_writeProfiles (tag : Byte) (first : Nat) (ws : List ProfileWrite) :
    Carries (.writeProfiles tag first ws) tag 0x02#8 (writeBytes 8 first ProfileWrite.bytes ws).2 (·.writeProfiles first ws) :=
  carries_write (by decide) rfl id (fun ok s => s.withEntries_of fun w hw => parses_profile (ok w hw))
    (fun _ => State.writeAll_refused) fun _ => rfl

theorem carries_writeKeys (tag : Byte) (first : Nat) (ws : List KeyWrite) :
    Carries (.writeKeys tag first ws) tag 0x02#8 (writeBytes 9 first KeyWrite.bytes ws).2 (·.writeKeys first ws) :=
  carries_write (by decide) rfl id (fun ok s => s.withEntries_of fun w hw => parses_key (ok w hw))
    (fun _ => State.writeKeys_refused) fun _ => rfl

theorem carries_writeMessages (tag : Byte) (first : Nat) (ws : List (List Byte)) :
    Carries (.writeMessages tag first ws) tag 0x02#8 (writeBytes 10 first (bList fun b => [b]) ws).2 (·.writeMessages first ws) :=
  carries_write (by decide) rfl id (fun ok s => s.withEntries_of fun w hw => parses_text (ok w hw))
    (fun _ => State.writeAll_refused) fun _ => rfl

theorem carries_writeSignals (tag : Byte) (first : Nat) (ws : List SignalWrite) :
    Carries (.writeSignals tag first ws) tag 0x02#8 (writeBytes 11 first SignalWrite.bytes ws).2 (·.writeSignals first ws) :=
  carries_write (by decide) rfl id (fun ok s => s.withEntries_of fun w hw => parses_signal (ok w hw))
    (fun _ => State.writeAll_refused) fun _ => rfl

theorem carries_writeChannels (tag : Byte) (first : Nat) (ws : List ChannelWrite) :
    Carries (.writeChannels tag first ws) tag 0x02#8 (writeBytes 5 first ChannelWrite.bytes ws).2
      (·.writeChannels first ws) :=
  carries_write (by decide) rfl id (fun ok s => s.withEntries_or fun w hw => parses_channel (ok w hw))
    (fun _ => State.writeEach_refused) fun _ => rfl

/-! ### Commands -/

theorem carries_channelLoad (tag : Byte) (c : Nat) : Carries (.channelLoad tag c) tag 0x03#8 (b1 1 ++ b1 c) (·.channelLoad c) :=
  carries_args (fun t x => t.channelLoad x) (by decide) parses_b1 (fun _ => rfl) fun _ => rfl

theorem carries_channelOpen (tag : Byte) (c : Nat) : Carries (.channelOpen tag c) tag 0x03#8 (b1 2 ++ b1 c) (·.channelOpen c) :=
  carries_args (fun t x => t.channelOpen x) (by decide) parses_b1 (fun _ => rfl) fun _ => rfl

theorem carries_channelStart (tag : Byte) (c : Nat) : Carries (.channelStart tag c) tag 0x03#8 (b1 3 ++ b1 c) (·.channelStart c) :=
  carries_args (fun t x => t.channelStart x) (by decide) parses_b1 (fun _ => rfl) fun _ => rfl

theorem carries_channelHold (tag : Byte) (c : Nat) : Carries (.channelHold tag c) tag 0x03#8 (b1 4 ++ b1 c) (·.channelHold c true) :=
  carries_args (fun t x => t.channelHold x true) (by decide) parses_b1 (fun _ => rfl) fun _ => rfl

theorem carries_channelResume (tag : Byte) (c : Nat) : Carries (.channelResume tag c) tag 0x03#8 (b1 5 ++ b1 c) (·.channelHold c false) :=
  carries_args (fun t x => t.channelHold x false) (by decide) parses_b1 (fun _ => rfl) fun _ => rfl

theorem carries_channelClose (tag : Byte) (c : Nat) : Carries (.channelClose tag c) tag 0x03#8 (b1 8 ++ b1 c) (·.channelClose c) :=
  carries_args (fun t x => t.channelClose x) (by decide) parses_b1 (fun _ => rfl) fun _ => rfl

theorem carries_channelTeardown (tag : Byte) (c : Nat) : Carries (.channelTeardown tag c) tag 0x03#8 (b1 9 ++ b1 c) (·.channelTeardown c) :=
  carries_args (fun t x => t.channelTeardown x) (by decide) parses_b1 (fun _ => rfl) fun _ => rfl

theorem carries_keyCommit (tag : Byte) (c : Nat) : Carries (.keyCommit tag c) tag 0x03#8 (b1 10 ++ b1 c) (·.keyCommit c) :=
  carries_args (fun t x => t.keyCommit x) (by decide) parses_b1 (fun _ => rfl) fun _ => rfl

theorem carries_lineQuiet (tag : Byte) (l : Nat) : Carries (.lineQuiet tag l) tag 0x03#8 (b1 17 ++ b1 l) (·.lineQuiet l) :=
  carries_args (fun t x => t.lineQuiet x) (by decide) parses_b1 (fun _ => rfl) fun _ => rfl

theorem carries_lineWake (tag : Byte) (l : Nat) : Carries (.lineWake tag l) tag 0x03#8 (b1 18 ++ b1 l) (·.lineWake l) :=
  carries_args (fun t x => t.lineWake x) (by decide) parses_b1 (fun _ => rfl) fun _ => rfl

theorem carries_lineTest (tag : Byte) (l : Nat) : Carries (.lineTest tag l) tag 0x03#8 (b1 19 ++ b1 l) (·.lineTest l) :=
  carries_args (fun t x => t.lineTest x) (by decide) parses_b1 (fun _ => rfl) fun _ => rfl

theorem carries_lineReset (tag : Byte) (l : Nat) : Carries (.lineReset tag l) tag 0x03#8 (b1 20 ++ b1 l) (·.lineReset l) :=
  carries_args (fun t x => t.lineReset x) (by decide) parses_b1 (fun _ => rfl) fun _ => rfl

theorem carries_amendNow (tag : Byte) (c v : Nat) :
    Carries (.amendNow tag c v) tag 0x03#8 (b1 6 ++ (b1 c ++ be 2 v)) (·.amendNow c v) :=
  carries_two State.amendNow (by decide) (fun wf => ⟨parses_b1 (and_of wf).1, parses_be (and_of wf).2⟩) (fun _ => rfl) fun _ => rfl

theorem carries_amendAtMinute (tag : Byte) (c v : Nat) :
    Carries (.amendAtMinute tag c v) tag 0x03#8 (b1 7 ++ (b1 c ++ be 2 v)) (·.amendAtMinute c v) :=
  carries_two State.amendAtMinute (by decide) (fun wf => ⟨parses_b1 (and_of wf).1, parses_be (and_of wf).2⟩) (fun _ => rfl) fun _ => rfl

theorem carries_reseat (tag : Byte) (k i : Nat) :
    Carries (.reseat tag k i) tag 0x03#8 (b1 14 ++ (be 2 k ++ be 2 i)) (·.reseat k i) :=
  carries_two State.reseat (by decide) (fun wf => ⟨parses_be (and_of wf).1, parses_be (and_of wf).2⟩) (fun _ => rfl) fun _ => rfl

theorem carries_deskClear (tag : Byte) (l a : Nat) :
    Carries (.deskClear tag l a) tag 0x03#8 (b1 16 ++ (b1 l ++ b1 a)) (·.deskClear l a) :=
  carries_two State.deskClear (by decide) (fun wf => ⟨parses_b1 (and_of wf).1, parses_b1 (and_of wf).2⟩) (fun _ => rfl) fun _ => rfl

theorem carries_hallTimeSet (tag : Byte) (v : Nat) : Carries (.hallTimeSet tag v) tag 0x03#8 (b1 13 ++ be 3 v) (·.hallTimeSet v) :=
  carries_args (fun t x => t.hallTimeSet x) (by decide) parses_be (fun _ => rfl) fun _ => rfl

theorem carries_candidateFinish (tag : Byte) (k : Nat) : Carries (.candidateFinish tag k) tag 0x03#8 (b1 15 ++ be 2 k) (·.candidateFinish k) :=
  carries_args (fun t x => t.candidateFinish x) (by decide) parses_be (fun _ => rfl) fun _ => rfl

theorem carries_hallHold (tag : Byte) : Carries (.hallHold tag) tag 0x03#8 (b1 11 ++ []) (·.hallHold true) :=
  carries_command (by decide) (fun _ _ => rfl) fun _ => rfl

theorem carries_hallResume (tag : Byte) : Carries (.hallResume tag) tag 0x03#8 (b1 12 ++ []) (·.hallHold false) :=
  carries_command (by decide) (fun _ _ => rfl) fun _ => rfl

theorem carries_statsClear (tag : Byte) : Carries (.statsClear tag) tag 0x03#8 (b1 21 ++ []) (·.statsClear) :=
  carries_command (by decide) (fun _ _ => rfl) fun _ => rfl

theorem carries_resetSittings (tag : Byte) : Carries (.resetSittings tag) tag 0x03#8 (b1 22 ++ []) (·.resetSittings) :=
  carries_command (by decide) (fun _ _ => rfl) fun _ => rfl

theorem carries_resetAll (tag : Byte) : Carries (.resetAll tag) tag 0x03#8 (b1 23 ++ []) (·.resetAll) :=
  carries_command (by decide) (fun _ _ => rfl) fun _ => rfl

/-- Every request is taken with its owner, which answers what the bytes of the request ask. -/
theorem request_carries {i : Instr} {tag kind : Byte} {payload : List Byte} (h : i.request = some (tag, kind, payload)) :
    ∃ f, Carries i tag kind payload f := by
  cases i <;> try cases h
  case undefinedRequest => exact ⟨_, fun _ _ => rfl, fun _ => rfl⟩
  case readStatus => exact ⟨fun s => s.status, fun _ _ => rfl, fun _ => rfl⟩
  case readFlags => exact ⟨fun s => s.readFlags, fun _ _ => rfl, fun _ => rfl⟩
  case readTable => exact ⟨_, carries_readTable _ _ _ _⟩
  case readKeys => exact ⟨_, carries_readKeys _ _ _⟩
  case readStats => exact ⟨_, carries_readStats _ _ _⟩
  case readResults => exact ⟨_, carries_readResults _ _ _⟩
  case releaseResults => exact ⟨_, carries_releaseResults _ _⟩
  case readHistogram => exact ⟨_, carries_readHistogram _ _⟩
  case deskMessage => exact ⟨_, carries_deskMessage _ _ _⟩
  case writeTable => exact ⟨_, carries_writeTable _ _ _ _ _⟩
  case writeHall => exact ⟨_, carries_writeHall _ _ _⟩
  case writeSeats => exact ⟨_, carries_writeSeats _ _ _⟩
  case writeStations => exact ⟨_, carries_writeStations _ _ _⟩
  case writeRoster => exact ⟨_, carries_writeRoster _ _ _⟩
  case writeChannels => exact ⟨_, carries_writeChannels _ _ _⟩
  case writeClasses => exact ⟨_, carries_writeClasses _ _ _⟩
  case writeForms => exact ⟨_, carries_writeForms _ _ _⟩
  case writeProfiles => exact ⟨_, carries_writeProfiles _ _ _⟩
  case writeKeys => exact ⟨_, carries_writeKeys _ _ _⟩
  case writeMessages => exact ⟨_, carries_writeMessages _ _ _⟩
  case writeSignals => exact ⟨_, carries_writeSignals _ _ _⟩
  case channelLoad => exact ⟨_, carries_channelLoad _ _⟩
  case channelOpen => exact ⟨_, carries_channelOpen _ _⟩
  case channelStart => exact ⟨_, carries_channelStart _ _⟩
  case channelHold => exact ⟨_, carries_channelHold _ _⟩
  case channelResume => exact ⟨_, carries_channelResume _ _⟩
  case channelClose => exact ⟨_, carries_channelClose _ _⟩
  case channelTeardown => exact ⟨_, carries_channelTeardown _ _⟩
  case keyCommit => exact ⟨_, carries_keyCommit _ _⟩
  case lineQuiet => exact ⟨_, carries_lineQuiet _ _⟩
  case lineWake => exact ⟨_, carries_lineWake _ _⟩
  case lineTest => exact ⟨_, carries_lineTest _ _⟩
  case lineReset => exact ⟨_, carries_lineReset _ _⟩
  case amendNow => exact ⟨_, carries_amendNow _ _ _⟩
  case amendAtMinute => exact ⟨_, carries_amendAtMinute _ _ _⟩
  case reseat => exact ⟨_, carries_reseat _ _ _⟩
  case deskClear => exact ⟨_, carries_deskClear _ _ _⟩
  case hallTimeSet => exact ⟨_, carries_hallTimeSet _ _⟩
  case candidateFinish => exact ⟨_, carries_candidateFinish _ _⟩
  case hallHold => exact ⟨_, carries_hallHold _⟩
  case hallResume => exact ⟨_, carries_hallResume _⟩
  case statsClear => exact ⟨_, carries_statsClear _⟩
  case resetSittings => exact ⟨_, carries_resetSittings _⟩
  case resetAll => exact ⟨_, carries_resetAll _⟩

end Sys2Proof.Machine
end

section
/-! PROOF. Frames on the office link: O39, O40, O41, O42, O50. -/

namespace Sys2Proof.Machine

set_option Elab.async false

/-! ## A frame that ends -/

theorem exec_officeFrameEnd (bytes : List Byte) (s : State) :
    exec (.officeFrameEnd bytes) s = .next (s.officeEnd bytes).settle := rfl

/-- The frame that carries a request is taken as the request (12.4). -/
theorem State.officeEnd_frame {s : State} {kind tag : Byte} {payload : List Byte} (len : payload.length ≤ 1022)
    (quiet : s.office.awaitQuiet = false) :
    s.officeEnd (officeFrame kind tag payload).tail = s.takeRaw tag kind payload := by
  obtain ⟨n, hn⟩ : ∃ n, n = payload.length + 2 := ⟨_, rfl⟩
  obtain ⟨body, hbody⟩ : ∃ body, body = be 2 n ++ [kind, tag] ++ payload := ⟨_, rfl⟩
  have bytes : (officeFrame kind tag payload).tail = body ++ be 2 (crc16 body).toNat := by
    rw [officeFrame, List.tail_cons, withCrc, hbody, hn]
  have bodyLen : body.length = n + 2 := by rw [hbody]; simp [length_be]; omega
  have head : body ++ be 2 (crc16 body).toNat =
      be 2 n ++ (kind :: tag :: (payload ++ be 2 (crc16 body).toNat)) := by
    obtain ⟨crc, hcrc⟩ : ∃ crc, crc = be 2 (crc16 body).toNat := ⟨_, rfl⟩
    rw [← hcrc, hbody]
    simp
  have count : beVal ((body ++ be 2 (crc16 body).toNat).take 2) = n := by
    rw [head, List.take_left' (length_be 2 n), beVal_be (by omega)]
  have whole : (body ++ be 2 (crc16 body).toNat).length = n + 4 := by rw [List.length_append, bodyLen, length_be]
  have checks : crcMatches ((body ++ be 2 (crc16 body).toNat).take (n + 2))
      (((body ++ be 2 (crc16 body).toNat).drop (n + 2)).take 2) = true := by
    rw [List.take_left' bodyLen, List.drop_left' bodyLen, List.take_of_length_le (by rw [length_be]), crcMatches]
    exact decide_eq_true rfl
  have fields : (body ++ be 2 (crc16 body).toNat).drop 2 = kind :: tag :: (payload ++ be 2 (crc16 body).toNat) := by
    rw [head, List.drop_left' (length_be 2 n)]
  rw [bytes, State.officeEnd, if_neg (by simp [quiet]; omega)]
  simp only [count, checks, fields, whole]
  rw [if_neg (by omega), if_neg (by omega), if_pos trivial, List.take_left' (by omega)]

/-- Settles O40: the frame is taken raw, and its payload is served as its owner answers. -/
theorem requestBytesDoWhatTheRequestDoes : Obligations.RequestBytesDoWhatTheRequestDoes := by
  intro i tag kind payload s wf request len quiet
  obtain ⟨f, serves, run⟩ := request_carries request
  refine ⟨_, ?_, run s⟩
  have same : (fun t : State => t.serve kind.toNat payload) = f := funext (serves wf)
  rw [exec_officeFrameEnd, State.officeEnd_frame len quiet, State.takeRaw, same]

theorem State.officeEnd_bad {s : State} {bytes : List Byte} (quiet : s.office.awaitQuiet = false) (len : 2 ≤ bytes.length)
    (bad : beVal (bytes.take 2) < 2 ∨ 1024 < beVal (bytes.take 2) ∨
      (beVal (bytes.take 2) + 4 ≤ bytes.length ∧ (bytes.drop (beVal (bytes.take 2) + 2)).take 2 ≠
        be 2 (crc16 (bytes.take (beVal (bytes.take 2) + 2))).toNat)) : s.officeEnd bytes = s.discard := by
  rw [State.officeEnd, if_neg (by simp [quiet]; omega)]
  by_cases size : beVal (bytes.take 2) < 2 ∨ 1024 < beVal (bytes.take 2)
  · simp only [if_pos size]
  · obtain ⟨whole, check⟩ := (or_assoc.2 bad).resolve_left size
    have fails : crcMatches (bytes.take (beVal (bytes.take 2) + 2)) ((bytes.drop (beVal (bytes.take 2) + 2)).take 2) = false :=
      decide_eq_false check
    simp only [if_neg size, fails, if_neg (Nat.not_lt_of_le whole), Bool.false_eq_true, if_false]

theorem State.discard_settle (s : State) :
    s.discard.settle.office.stats.badFrames = statUp s.office.stats.badFrames ∧
      s.discard.settle.office.stats.framesIn = s.office.stats.framesIn ∧ Unchanged [.badFrames] s s.discard.settle :=
  ⟨State.settle_badFrames _, State.settle_framesIn _, (Moves.discard s).frame.settle⟩

/-- Settles O39: each of these frames is discarded. -/
theorem badOfficeFramesAreCountedAlone : Obligations.BadOfficeFramesAreCountedAlone := by
  intro bytes s quiet
  refine ⟨fun len bad => ⟨_, exec_officeFrameEnd bytes s, ?_⟩, s.officeGap.settle, rfl, ?_⟩
  · rw [State.officeEnd_bad quiet len bad]
    exact s.discard_settle
  · rw [State.officeGap, if_neg (by simp [quiet])]
    exact s.discard_settle

/-! ## RESET_ALL, and requests not taken -/

theorem Moves.resetAll (s : State) : Moves [.receiver] s s.resetAll.state := by
  refine .onOffice s (fun o => { o with resetPending := true }) (fun p hp => ?_) (Nat.le_refl _) fun _ => id
  cases p <;> simp_all [Part.same, State.presence, State.onOffice, State.line]

/-- Settles O41: the owner of RESET_ALL notes it alone; the three ways a request is not taken are those of `takeRequest`. -/
theorem resetAllWaitsAndRequestsAreDiscarded : Obligations.ResetAllWaitsAndRequestsAreDiscarded := by
  refine ⟨fun tag s h => ?_, fun i tag kind payload s request => ⟨fun shut => ?_, fun quiet open' full => ?_⟩⟩
  · obtain ⟨t, run, served⟩ := State.served (i := .resetAll tag) (f := (·.resetAll)) rfl h rfl (.resetAll s.countFrame)
    refine ⟨t, run, served.answered, ?_, ?_, served.unchanged.weaken (by decide)⟩
    · rw [served.eq, State.settle_resetPending, State.respond_resetPending]
      rfl
    · rw [served.eq, State.settle_awaitQuiet]
      exact h.1
  · obtain ⟨f, -, run⟩ := request_carries request
    refine ⟨_, run s, ?_⟩
    rw [State.takeRequest, if_pos shut]
    exact (Unchanged.refl [] s).settle
  · obtain ⟨f, -, run⟩ := request_carries request
    refine ⟨_, run s, ?_⟩
    have turned : s.takeRequest tag kind f = s.countFrame.discard := by
      have full : Config.responseQueueSize ≤ s.countFrame.office.responses.length := full
      rw [State.takeRequest, if_neg (by simp [quiet, open'])]
      exact if_pos full
    rw [turned]
    refine ⟨State.settle_framesIn _, State.settle_badFrames _, State.settle_protectedReads _, ?_⟩
    exact (((Moves.countFrame s).widen (k := [.framesIn, .badFrames])).next (.discard _)).frame.settle

/-! ## Refusals -/

/-- An answer that does nothing unless it is OK or CLAMPED (R178). -/
def KeepsRefused (s : State) (a : Answer) : Prop := a.code = .ok ∨ a.code = .clamped ∨ a.state = s

section
variable {s : State}

theorem KeepsRefused.refuse (c : Code) : KeepsRefused s (s.refuse c) := .inr (.inr rfl)

theorem KeepsRefused.ok (out : List Byte) (t : State) : KeepsRefused s ⟨.ok, out, t⟩ := .inl rfl

theorem KeepsRefused.unless (x : Option Code) (t : State) : KeepsRefused s (s.unless x t) := by
  cases x with
  | none => exact .ok _ _
  | some c => exact .refuse c

theorem KeepsRefused.ite {p : Prop} [Decidable p] {a b : Answer} (ha : KeepsRefused s a) (hb : KeepsRefused s b) :
    KeepsRefused s (if p then a else b) := by split <;> assumption

theorem KeepsRefused.clamp (asked taken : Nat) (out : List Byte) (t : State) :
    KeepsRefused s ⟨clampCode asked taken, out, t⟩ := by
  by_cases same : taken = asked
  · exact .inl (if_pos same)
  · exact .inr (.inl (if_neg same))

theorem KeepsRefused.writeAll {α : Type} (lo hi first : Nat) (ws : List α) (check : Nat → α → Option Code)
    (put : State → Nat → α → State) : KeepsRefused s (s.writeAll lo hi first ws check put) := by
  unfold State.writeAll
  split
  · exact .refuse _
  · exact .ok _ _

theorem KeepsRefused.writeEach {α : Type} (lo hi first : Nat) (ws : List α) (check : State → Nat → α → Option Code)
    (put : State → Nat → α → State) : KeepsRefused s (s.writeEach lo hi first ws check put) := by
  unfold State.writeEach
  split
  · exact .refuse _
  · split
    · exact .refuse _
    · exact .ok _ _

theorem KeepsRefused.read (t first n : Nat) : KeepsRefused s (s.read t first n) := by
  unfold State.read
  split
  · exact .refuse _
  · exact .ite (.refuse _) (.ite (.refuse _) (.ite (.refuse _) (.ite (.ok _ _) (.ok _ _))))

theorem KeepsRefused.writeHall (first : Nat) (ws : List HallWrite) : KeepsRefused s (s.writeHall first ws) := by
  unfold State.writeHall
  split
  · refine .ite ?_ (.refuse _)
    next w _ =>
    by_cases exact' : w.exact = true
    · exact .inl (if_pos exact')
    · exact .inr (.inl (if_neg exact'))
  · exact .refuse _
  · exact .refuse _

theorem KeepsRefused.deskMessage (x : DeskTarget) (m : Nat) : KeepsRefused s (s.deskMessage x m) := by
  unfold State.deskMessage
  refine .ite (.refuse _) ?_
  split
  · exact .refuse _
  · exact .ok _ _

theorem KeepsRefused.channelOpen (c : Nat) : KeepsRefused s (s.channelOpen c) := by
  unfold State.channelOpen
  refine .ite (.refuse _) (.ite (.refuse _) ?_)
  split
  · exact .inr (.inr rfl)
  · exact .ok _ _

theorem KeepsRefused.amendNow (c v : Nat) : KeepsRefused s (s.amendNow c v) := by
  unfold State.amendNow
  split
  · exact .refuse _
  · exact .ite (.refuse _) (.clamp _ _ _ _)

theorem KeepsRefused.amendAtMinute (c v : Nat) : KeepsRefused s (s.amendAtMinute c v) := by
  unfold State.amendAtMinute
  split
  · exact .refuse _
  · exact .clamp _ _ _ _

theorem KeepsRefused.channelTeardown (c : Nat) : KeepsRefused s (s.channelTeardown c) := by
  unfold State.channelTeardown
  refine .ite (.refuse _) ?_
  split
  · exact .ok _ _
  · exact .ok _ _
  · exact .refuse _

theorem KeepsRefused.reseat (k i : Nat) : KeepsRefused s (s.reseat k i) := by
  unfold State.reseat
  split
  · exact .refuse _
  · exact .ok _ _
  · exact .refuse _

end

/-- Whatever the owner of a request refuses, it leaves as it stands (R178). -/
theorem State.Serves.keepsRefused {s : State} {a : Answer} (h : s.Serves a) : KeepsRefused s a := by
  cases h with
  | refuse c => exact .refuse c
  | read t first n => exact .read t first n
  | writeHall first ws => exact .writeHall first ws
  | writeSeats first ws => exact .writeAll _ _ _ _ _ _
  | writeStations first ws => exact .writeAll _ _ _ _ _ _
  | writeRoster first ws => exact .writeEach _ _ _ _ _ _
  | writeChannels first ws => exact .writeEach _ _ _ _ _ _
  | writeClasses first ws => exact .writeAll _ _ _ _ _ _
  | writeForms first ws => exact .writeAll _ _ _ _ _ _
  | writeProfiles first ws => exact .writeAll _ _ _ _ _ _
  | writeKeys first ws => exact .unless _ _
  | writeMessages first ws => exact .writeAll _ _ _ _ _ _
  | writeSignals first ws => exact .writeAll _ _ _ _ _ _
  | status => exact .ok _ _
  | readFlags => exact .ok _ _
  | readStats g clear => exact .ite (.refuse _) (.ok _ _)
  | readResults start most => exact .ite (.refuse _) (.ite (.refuse _) (.ok _ _))
  | releaseResults upto => exact .ok _ _
  | readHistogram c => exact .ite (.refuse _) (.ok _ _)
  | deskMessage x m => exact .deskMessage x m
  | channelLoad c => exact .unless _ _
  | channelOpen c => exact .channelOpen c
  | channelStart c => exact .unless _ _
  | channelHold c h => exact .unless _ _
  | amendNow c v => exact .amendNow c v
  | amendAtMinute c v => exact .amendAtMinute c v
  | channelClose c => exact .ite (.refuse _) (.ite (.refuse _) (.ok _ _))
  | channelTeardown c => exact .channelTeardown c
  | keyCommit c => exact .unless _ _
  | hallHold h => exact .ok _ _
  | hallTimeSet v => exact .unless _ _
  | reseat k i => exact .reseat k i
  | candidateFinish k => exact .unless _ _
  | deskClear l a => exact .unless _ _
  | lineQuiet l => exact .unless _ _
  | lineWake l => exact .unless _ _
  | lineTest l => exact .unless _ _
  | lineReset l => exact .unless _ _
  | statsClear => exact .ok _ _
  | resetSittings => exact .ok _ _
  | resetAll => exact .ok _ _

theorem State.serve_undefined (s : State) {kind : Nat} (bytes : List Byte) (h : kind = 0 ∨ 10 < kind) :
    s.serve kind bytes = s.refuse .unknownCommand := by
  unfold State.serve
  split
  case h_11 => rfl
  all_goals omega

theorem tableSpan_none {t : Nat} (h : t = 0 ∨ 12 ≤ t) : (if t = 12 then none else tableSpan t) = none := by
  by_cases last : t = 12
  · rw [if_pos last]
  · rw [if_neg last]
    unfold tableSpan
    split
    case h_13 => rfl
    all_goals omega

theorem State.write_unknown {s : State} {t first n : Nat} {bytes : List Byte} (h : t = 0 ∨ 12 ≤ t) :
    s.write t first n bytes = s.refuse .unknownTable := by
  rw [State.write, tableSpan_none h]

theorem exec_undefinedRequest (tag kind : Byte) (payload : List Byte) (s : State) :
    exec (.undefinedRequest tag kind payload) s =
      .next (s.takeRequest tag kind fun t => t.serve kind.toNat payload).settle := rfl

/-- Settles O42: a request served is one of the owners' answers, which keep what they refuse. -/
theorem refusedRequestsChangeNothing : Obligations.RefusedRequestsChangeNothing := by
  intro tag kind payload s h
  refine ⟨?_, fun table first n none' => State.refused (i := .writeTable tag table first n payload)
    (f := (·.write table first n payload)) rfl h (State.write_unknown none')⟩
  obtain ⟨a, answer⟩ : ∃ a, s.countFrame.serve kind.toNat payload = a := ⟨_, rfl⟩
  have serves : s.countFrame.Serves a := answer ▸ State.serves_serve s.countFrame kind.toNat payload
  have taken := State.takeRequest_eq (f := fun t => t.serve kind.toNat payload) (tag := tag) (kind := kind) h answer
  refine ⟨_, a.code, a.payload, exec_undefinedRequest tag kind payload s, ?_, fun notOk notClamped => ?_, fun undefined' => ?_⟩
  · rw [taken, State.settle_responses, State.respond_responses]
    have stands : a.state.office.responses = s.office.responses := serves.within.responses
    rw [stands]
  · have keeps : a.state = s.countFrame := (serves.keepsRefused.resolve_left notOk).resolve_left notClamped
    rw [taken, keeps]
    exact ⟨State.settle_framesIn _, .taken (.refl (k := []) _) _⟩
  · rw [State.serve_undefined _ _ undefined'] at answer
    exact ⟨answer ▸ rfl, answer ▸ rfl⟩

/-! ## Texts and signals -/

/-- A WRITE_TABLE of MESSAGES with one text as bytes is the typed write (R184). -/
theorem State.write_text (s : State) (n : Nat) {text : List Byte} (len : text.length ≤ 255) :
    s.write 10 n 1 (b1 text.length ++ text) = s.writeMessages n [text] := by
  have bytes : b1 text.length ++ text = [text].flatMap (bList fun b => [b]) := by
    simp [bList, List.flatMap_singleton']
  rw [bytes]
  exact State.write_eq rfl (s.withEntries_of (ws := [text]) fun w hw => by
    obtain rfl := List.mem_singleton.1 hw
    exact parses_text (fitsBytes_iff.2 (by omega))) fun _ => State.writeAll_refused (ws := [text]) _

theorem textOk_iff (text : List Byte) :
    textOk text = true ↔ text.length ≤ 40 ∧ ∀ x ∈ text, 0x20 ≤ x.toNat ∧ x.toNat ≤ 0x7E := by
  simp only [textOk, Bool.and_eq_true, decide_eq_true_eq, List.all_eq_true]

/-- Settles O50. -/
theorem writeMessagesAndSignals : Obligations.WriteMessagesAndSignals := by
  intro tag n s h
  refine ⟨fun text hn len => ?_, fun w hn source channel condition mode polarity => ?_⟩
  · have raw : ∀ t, exec (.writeMessages tag n [text]) s = .next t →
        exec (.writeTable tag 10 n 1 (b1 text.length ++ text)) s = .next t := fun t run => by
      have same : (fun t : State => t.write 10 n 1 (b1 text.length ++ text)) = fun t => t.writeMessages n [text] :=
        funext fun t => t.write_text n len
      rw [← run]
      show Host.Outcome.next (s.takeWrite tag fun t => t.write 10 n 1 (b1 text.length ++ text)).settle = _
      rw [same]
      rfl
    by_cases ok : textOk text = true
    · obtain ⟨t, run, served⟩ := State.served (i := .writeMessages tag n [text]) (f := (·.writeMessages n [text])) rfl h
        (State.writeAll_one (s := s.countFrame) (Nat.zero_le n) (by omega) (if_pos ok)) (.putMessage s.countFrame n text)
      have message : ∀ m, t.message m = if n = m then text else s.message m := fun m => by
        rw [served.eq, State.message, State.settle_messages, State.respond_messages, tabGet_tabSet]
        rfl
      refine ⟨t, run, raw t run, ?_⟩
      rw [if_pos ((textOk_iff text).1 ok)]
      exact ⟨served.answered, (message n).trans (if_pos rfl), fun m hm => (message m).trans (if_neg (Ne.symm hm)),
        served.unchanged.weaken (by decide)⟩
    · obtain ⟨t, run, refused⟩ := State.refused (i := .writeMessages tag n [text]) (f := (·.writeMessages n [text])) rfl h
        (State.writeAll_one_refused (s := s.countFrame) (code := .range) (Nat.zero_le n) (by omega) (if_neg ok))
      refine ⟨t, run, raw t run, ?_⟩
      rw [if_neg fun printable => ok ((textOk_iff text).2 printable)]
      exact refused
  · have passes : w.refusal = none := by
      rw [SignalWrite.refusal, if_pos ⟨source, channel, condition, mode, polarity⟩]
    obtain ⟨t, run, served⟩ := State.served (i := .writeSignals tag n [w]) (f := (·.writeSignals n [w])) rfl h
      (State.writeAll_one (s := s.countFrame) (Nat.zero_le n) (by omega) passes) (.putSignal s.countFrame n w)
    have signal : ∀ m, t.signal m = if n = m then { s.signal n with pending := some w.entry } else s.signal m := fun m => by
      rw [served.eq, State.settle_signal]
      exact State.signal_onSignal s.countFrame n m fun g => { g with pending := some w.entry }
    refine ⟨t, run, served.answered, (signal n).trans (if_pos rfl), ?_, fun m hm => (signal m).trans (if_neg (Ne.symm hm)),
      served.unchanged.weaken (by decide)⟩
    rw [signal, if_pos rfl]
    rfl

end Sys2Proof.Machine
end

section
/-! PROOF. Sheet frames received, the receivers' starts, and the frames sent: O29, O30, O31, O32, O36. -/

namespace Sys2Proof.Machine

set_option Elab.async false

/-! ## A sheet frame starts and ends -/

theorem Intake.emptySlot_some {t : Intake} {n : Nat} (h : t.emptySlot = some n) : (t.slot n).state = .empty := by
  have found := List.find?_some h
  exact of_decide_eq_true found

/-- Settles O29, by the slot found: the receiver takes it, or skips the frame. -/
theorem sheetFrameStartTakesTheLowestEmptySlot : Obligations.SheetFrameStartTakesTheLowestEmptySlot := by
  intro s outside
  refine ⟨_, rfl, (Moves.sheetStart s).frame.settle, ?_⟩
  rw [State.sheetStart, if_pos outside]
  cases found : (if s.office.ready then s.intake.emptySlot else none) with
  | none => simp
  | some n =>
    have empty : s.intake.emptySlot = some n := by
      split at found
      · exact found
      · cases found
    refine ⟨by simp [Intake.onSlot], by simp, ?_, fun m other => ?_, Intake.emptySlot_some empty⟩
    · simp [Intake.slot, Intake.onSlot]
    · simp [Intake.slot, Intake.onSlot, Ne.symm other]

/-- The take of a sheet changes no field of a slot but its state, and that to SCORING. -/
theorem Intake.slot_take (t : Intake) (fs : PMap Form) (n : Nat) :
    (t.take fs).slot n = t.slot n ∨ (t.take fs).slot n = { t.slot n with state := .scoring } := by
  unfold Intake.take
  split
  · next k rest _ _ =>
    by_cases same : k = n
    · subst same; exact .inr (by simp [Intake.slot, Intake.onSlot])
    · exact .inl (by simp [Intake.slot, Intake.onSlot, same])
  · exact .inl rfl

theorem Intake.take_rx (t : Intake) (fs : PMap Form) : (t.take fs).rx = t.rx := by
  unfold Intake.take; split <;> rfl

theorem Intake.take_stats (t : Intake) (fs : PMap Form) : (t.take fs).stats = t.stats := by
  unfold Intake.take; split <;> rfl

/-- The intake when slot `n` has taken its frame's bytes, before the marking unit looks (R140, R141). -/
def Intake.frameEnded (t : Intake) (n deadline : Nat) (bytes : List Byte) (good : Bool) : Intake :=
  let r := (t.slot n).receive bytes
  { t.onSlot n fun _ => { r with state := .waiting, good := good, age := 0, deadline := deadline } with
    rx := .outside
    arrivals := t.arrivals ++ [n]
    stats := t.stats.frameEnd good r.overrun }

theorem State.endFrame_eq (s : State) (n : Nat) (bytes : List Byte) (good : Bool) :
    s.endFrame n bytes good =
      (let r := (s.intake.slot n).receive bytes
       let t := s.onIntake fun t => t.frameEnded n s.hall.verdictDeadline bytes good
       if r.overrun then t.notify (.overrun true r.sheet) else t).takeSheet := rfl

theorem State.endFrame_intake (s : State) (n : Nat) (bytes : List Byte) (good : Bool) :
    (s.endFrame n bytes good).intake =
      (s.intake.frameEnded n s.hall.verdictDeadline bytes good).take s.forms := by
  rw [State.endFrame_eq, State.takeSheet]
  dsimp only
  split <;> rfl

theorem Intake.slot_frameEnded (t : Intake) (n d : Nat) (bytes : List Byte) (good : Bool) :
    (t.frameEnded n d bytes good).slot n =
      { (t.slot n).receive bytes with state := .waiting, good := good, age := 0, deadline := d } := by
  simp [Intake.frameEnded, Intake.slot, Intake.onSlot]

theorem exec_sheetFrameEnds (s : State) (n : Nat) (bytes : List Byte) (receiving : s.intake.rx = .receiving n)
    (whole : Bool) (arrived : whole = true → sheetWhole bytes = true) :
    exec (if whole then .sheetFrameEnd bytes else .sheetGapLimit bytes) s =
      .next (s.endFrame n bytes (whole && sheetGood bytes)).settle := by
  cases whole with
  | false =>
    have ends : s.sheetGap bytes = s.endFrame n bytes false := by rw [State.sheetGap, receiving]
    exact congrArg (fun t : State => Host.Outcome.next t.settle) ends
  | true =>
    have ends : s.sheetEnd bytes = s.endFrame n bytes (sheetGood bytes) := by
      rw [State.sheetEnd, if_pos (arrived rfl), receiving]
    exact congrArg (fun t : State => Host.Outcome.next t.settle) ends

/-- A notice of any category but LINE_TEST_DONE stands through what follows at once. -/
theorem State.notice_settle {s : State} {n : Notice} (other : n.subject.category ≠ .lineTestDone)
    (h : n ∈ s.office.notices) : n ∈ s.settle.office.notices := by
  have kept : n ∈ s.office.notices.filter fun n => decide (n.subject.category ≠ .lineTestDone) :=
    List.mem_filter.2 ⟨h, decide_eq_true other⟩
  rw [← State.settle_notices] at kept
  exact (List.mem_filter.1 kept).1

/-- An event whose category is not masked queues its notice where the queue has room. -/
theorem State.notice_notify {s : State} {x : Subject} (unmasked : x.category ∉ s.hall.masks)
    (room : s.office.notices.length < 32) : ⟨x, s.time.hallTime⟩ ∈ (s.notify x).office.notices := by
  rw [State.notify_office, if_neg unmasked, Office.notify]
  split
  · exact List.mem_append_right _ (List.mem_singleton.2 rfl)
  · next full => exact absurd room full

/-- Settles O30: the slot receives the bytes, waits, and may be taken at once; OVERRUN is raised when values spilled. -/
theorem frameEndHandsTheSheetOn : Obligations.FrameEndHandsTheSheetOn := by
  intro n bytes s receiving whole arrived
  obtain ⟨good, isGood⟩ : ∃ good, good = (whole && sheetGood bytes) := ⟨_, rfl⟩
  rw [exec_sheetFrameEnds s n bytes receiving whole arrived, ← isGood]
  obtain ⟨x, taken, slot⟩ : ∃ x, (x = .waiting ∨ x = .scoring) ∧ (s.endFrame n bytes good).settle.intake.slot n =
      { (s.intake.slot n).receive bytes with
        state := x, good := good, age := 0, deadline := s.hall.verdictDeadline } := by
    rw [State.settle_slot, State.endFrame_intake]
    rcases Intake.slot_take (s.intake.frameEnded n s.hall.verdictDeadline bytes good) s.forms n with h | h
    · exact ⟨_, .inl rfl, by rw [h, Intake.slot_frameEnded]⟩
    · exact ⟨_, .inr rfl, by rw [h, Intake.slot_frameEnded]⟩
  have stats : (s.endFrame n bytes good).settle.intake.stats =
      s.intake.stats.frameEnd good ((s.intake.slot n).receive bytes).overrun := by
    rw [State.settle_sheetStats, State.endFrame_intake, Intake.take_stats]; rfl
  have overrun : ((s.intake.slot n).receive bytes).overrun =
      decide (1720 < ((bytes.drop 7).take (headerField bytes 5 2)).length) := rfl
  have outside : (s.endFrame n bytes good).settle.intake.rx = .outside := by
    rw [State.settle_rx, State.endFrame_intake, Intake.take_rx]; rfl
  refine ⟨_, rfl, outside, ?_⟩
  rw [slot, stats, ← overrun]
  refine ⟨rfl, rfl, rfl, taken, rfl, rfl, rfl, rfl, rfl, rfl, rfl, rfl, rfl, ?_⟩
  split
  · next spilled =>
    have raised : s.endFrame n bytes good =
        ((s.onIntake fun t => t.frameEnded n s.hall.verdictDeadline bytes good).notify
          (.overrun true (headerField bytes 0 2))).takeSheet := by
      rw [State.endFrame_eq]; dsimp only; rw [if_pos spilled]; rfl
    refine ⟨if_pos spilled, ?_, fun unmasked room => ?_, (Moves.endFrame s n bytes good).frame.settle⟩
    · rw [raised]
      exact State.settle_raised _ (State.flag_notify _ (.overrun true (headerField bytes 0 2)))
    · rw [raised]
      refine State.notice_settle (nofun) ?_
      exact State.notice_notify (s := s.onIntake _) (x := .overrun true (headerField bytes 0 2)) unmasked room
  · next fits =>
    have quiet : s.endFrame n bytes good =
        (s.onIntake fun t => t.frameEnded n s.hall.verdictDeadline bytes good).takeSheet := by
      rw [State.endFrame_eq]; dsimp only; rw [if_neg fits]
    refine ⟨if_neg fits, ?_⟩
    rw [quiet]
    exact ((Moves.onIntake s (fun t => t.frameEnded n s.hall.verdictDeadline bytes good) fun h => by
      unfold Intake.frameEnded; dsimp only; exact Intake.canon_onSlot n _ h).next (.takeSheet _)).frame.settle

/-- Settles O31: the verdict is offered to the queue, unless RESET_SITTINGS has withdrawn it. -/
theorem overrunFrameEndOffersAReject : Obligations.OverrunFrameEndOffersAReject := by
  intro bytes offer s skipping
  have ends : s.endOverrun bytes = (s.onIntake fun t =>
      { (if offer then t.offerOverrun (overrunSheet bytes) else t) with
        rx := .outside
        stats := { t.stats with startOverruns := statUp t.stats.startOverruns } }).notify
      (.overrun false (overrunSheet bytes)) := by
    rw [State.endOverrun, skipping]
  refine ⟨_, rfl, ?_, ?_, ?_, ?_, ?_, (Moves.endOverrun s bytes).frame.settle⟩
  · rw [State.settle_rx, ends]; rfl
  · rw [State.settle_sheetStats, ends]; rfl
  · rw [State.settle_verdicts, ends]
    cases offer with
    | false => rfl
    | true =>
      by_cases room : s.intake.overrunsWaiting < 4
      · simp [Intake.offerOverrun, room]
      · simp [Intake.offerOverrun, room]
  · rw [State.settle_slots, ends]
    cases offer with
    | false => rfl
    | true =>
      by_cases room : s.intake.overrunsWaiting < 4
      · simp [Intake.offerOverrun, room]
      · simp [Intake.offerOverrun, room]
  · rw [ends]; exact State.settle_raised _ (State.flag_notify _ (.overrun false (overrunSheet bytes)))

/-! ## The receivers begin -/

theorem Moves.officeQuiet (s : State) : Moves [.receiver] s s.officeQuiet := by
  refine .onOffice s (fun o => { o with awaitQuiet := false }) (fun p hp => ?_) (Nat.le_refl _) fun _ => id
  cases p <;> simp_all [Part.same, State.presence, State.onOffice, State.line]

/-- Settles O32, receiver by receiver. -/
theorem receiversBeginOutsideAFrame : Obligations.ReceiversBeginOutsideAFrame := by
  intro s
  refine ⟨fun waits => ⟨_, rfl, ?_, ?_, ?_, (Moves.sheetQuiet s).frame.settle⟩,
    fun abandoned => ⟨_, rfl, ?_, ?_, ?_, (Moves.endAbandoned s).frame.settle⟩,
    _, rfl, ?_, ?_, ?_, (Moves.officeQuiet s).frame.settle⟩
  all_goals simp [State.sheetQuiet, State.endAbandoned, State.officeQuiet, *]

/-! ## The frames sent -/

theorem Intake.sent_of_head {t : Intake} (h : t.tx = .head) : t.sent = { t with verdicts := t.verdicts.tail, tx := .idle } := by
  rw [Intake.sent, h]

/-- A free OL_TX takes the head response, else the head notice, so that the port sends what stands at the heads. -/
theorem Office.startTx_sends {o : Office} (idle : o.tx = .idle) :
    o.startTx.tx = if o.responses ≠ [] then .response else if o.notices ≠ [] then .notice else .idle := by
  rw [Office.startTx, if_pos idle]
  split
  · rfl
  · split
    · rfl
    · exact idle

theorem officeSends_settle {s : State} (idle : s.office.tx = .idle) : OfficeSends s.settle := by
  have tx : s.settle.office.tx = if s.settle.office.responses ≠ [] then .response
      else if s.settle.office.notices ≠ [] then .notice else .idle := by
    obtain ⟨_, _, _, responses, notices, _, _⟩ := Office.startTx_keeps
      { s.runLines.office with ready := s.runLines.office.ready || s.runLines.readyNow }
    rw [State.settle_office, responses, notices]
    exact Office.startTx_sends (by rw [← idle]; exact (State.quiet_runLines s).tx)
  rw [OfficeSends, State.officeWire, tx]
  cases s.settle.office.responses with
  | cons r rest => rfl
  | nil =>
    cases s.settle.office.notices with
    | nil => rfl
    | cons n rest =>
      simp [Notice.bytes, Subject.bytes_eq]

/-- Settles O36: what is sent leaves the head of its queue, and the free transmitter takes what stands there next. -/
theorem framesSentLeaveTheirQueues : Obligations.FramesSentLeaveTheirQueues := by
  intro s
  refine ⟨fun head => ?_, fun notice => ?_, fun response => ?_, fun l => ?_⟩
  · have sent := Intake.sent_of_head head
    refine ⟨_, rfl, ?_, ?_, ?_, ?_, ?_, (Moves.sent s).frame.settle⟩
    · rw [State.settle_verdicts, State.onIntake_intake, sent]
    · rw [State.settle_intake, State.onIntake_intake, sent]
      by_cases none : s.intake.verdicts.tail = [] <;> simp [Intake.startTx, none]
    · rw [State.settle_slots, State.onIntake_intake, sent]
    · rw [State.settle_sheetStats, State.onIntake_intake, sent]
    · rw [State.sheetWire, State.settle_intake, State.onIntake_intake, sent]
      cases rest : s.intake.verdicts.tail <;> simp [Intake.startTx, VerdictFrame.bytes]
  · have sent : s.officeSent = s.onOffice fun o =>
        { o with
          tx := .idle
          notices := o.notices.tail
          stats := { o.stats with noticesSent := statUp o.stats.noticesSent } } := by
      rw [State.officeSent, notice]
    refine ⟨_, rfl, ?_, ?_, ?_, ?_, ?_⟩
    · rw [State.settle_noticesSent, sent]; rfl
    · rw [State.settle_notices, sent]; rfl
    · rw [State.settle_responses, sent]; rfl
    · exact officeSends_settle (by rw [sent]; rfl)
    · rw [sent]
      refine (Moves.onOffice s _ (fun p hp => ?_) (by simp) fun _ => id).frame.settle
      cases p <;> simp_all [Part.same, State.presence, State.onOffice, State.line]
  · have sent : s.officeSent =
        if s.office.resetPending = true ∧ s.office.responses.tail = [] then
          (s.onOffice fun o => { o with tx := .idle, responses := o.responses.tail }).powerUp
        else s.onOffice fun o => { o with tx := .idle, responses := o.responses.tail } := by
      rw [State.officeSent, response]; rfl
    refine ⟨_, rfl, ?_⟩
    rw [sent]
    split
    · rw [State.powerUp_settle]; rfl
    · refine ⟨State.settle_responses _, officeSends_settle rfl, ?_⟩
      refine (Moves.onOffice s _ (fun p hp => ?_) (Nat.le_refl _) fun _ => id).frame.settle
      cases p <;> simp_all [Part.same, State.presence, State.onOffice, State.line]
  · rw [State.lineWire]
    refine congrArg (fun f => (s.line l).exchange.map f) (funext fun x => ?_)
    cases kind : x.kind <;> simp [Exchange.bytes, Exchange.parts, kind, length_be]

end Sys2Proof.Machine
end

section
/-! PROOF. The class of a group and the score of a sheet: O38. -/

namespace Sys2Proof.Machine

set_option Elab.async false

/-! ## The two darkest -/

/-- What `darkest` finds: the largest darkness, at the lowest index that has it. -/
theorem darkest_spec (i : Nat) (ds : List Nat) (some : ds ≠ []) :
    ∃ o, (darkest i ds).2 = i + o ∧ ds[o]? = .some (darkest i ds).1 ∧ (∀ d ∈ ds, d ≤ (darkest i ds).1) ∧
      ∀ j d, j < o → ds[j]? = .some d → d < (darkest i ds).1 := by
  induction ds generalizing i with
  | nil => exact absurd rfl some
  | cons d rest ih =>
    cases rest with
    | nil => exact ⟨0, rfl, rfl, fun x h => by simp_all [darkest], fun j x h => absurd h (Nat.not_lt_zero j)⟩
    | cons e rest =>
      obtain ⟨o, index, top, most, first⟩ := ih (i + 1) (List.cons_ne_nil _ _)
      have head : darkest i (d :: e :: rest) =
          if d < (darkest (i + 1) (e :: rest)).1 then darkest (i + 1) (e :: rest) else (d, i) := rfl
      rw [head]
      split
      · next below =>
        refine ⟨o + 1, by omega, top, fun x h => ?_, fun j x h at' => ?_⟩
        · rcases List.mem_cons.1 h with rfl | h
          · exact Nat.le_of_lt below
          · exact most x h
        · cases j with
          | zero => cases at'; exact below
          | succ j => exact first j x (by omega) at'
      · next above =>
        refine ⟨0, rfl, rfl, fun x h => ?_, fun j x h => absurd h (Nat.not_lt_zero j)⟩
        rcases List.mem_cons.1 h with rfl | h
        · exact Nat.le_refl _
        · exact Nat.le_trans (most x h) (Nat.le_of_not_lt above)

theorem darkest_value {ds : List Nat} {d : Nat} (i : Nat) (mem : d ∈ ds) (most : ∀ x ∈ ds, x ≤ d) :
    (darkest i ds).1 = d := by
  obtain ⟨o, _, top, bound, _⟩ := darkest_spec i ds (List.ne_nil_of_mem mem)
  exact Nat.le_antisymm (most _ (List.mem_of_getElem? top)) (bound d mem)

theorem darkest_index {ds : List Nat} {o d : Nat} (at' : ds[o]? = some d) (most : ∀ x ∈ ds, x ≤ d)
    (first : ∀ i x, i < o → ds[i]? = some x → x < d) : (darkest 0 ds).2 = o := by
  have mem := List.mem_of_getElem? at'
  have value := darkest_value 0 mem most
  obtain ⟨k, index, top, _, before⟩ := darkest_spec 0 ds (List.ne_nil_of_mem mem)
  rw [value] at top before
  rw [index, Nat.zero_add]
  refine Nat.le_antisymm (Nat.le_of_not_lt fun h => ?_) (Nat.le_of_not_lt fun h => ?_)
  · exact Nat.lt_irrefl d (before o d h at')
  · exact Nat.lt_irrefl d (first k d h top)

theorem runnerUp_value {ds : List Nat} {o d : Nat} (some : ∃ i, i ≠ o ∧ ds[i]? = .some d)
    (most : ∀ i x, i ≠ o → ds[i]? = .some x → x ≤ d) : runnerUp o ds = d := by
  refine darkest_value 0 (List.mem_eraseIdx_iff_getElem?.2 some) fun x h => ?_
  obtain ⟨i, other, at'⟩ := List.mem_eraseIdx_iff_getElem?.1 h
  exact most i x other at'

/-! ## The totals of a sheet -/

theorem tallySheet_succ (p : Profile) (bank : PMap KeyEntry) (q options : Nat) (ds : List Nat) :
    tallySheet p bank (q + 1) options ds = (tallySheet p bank q options ds).score p.asWrong (q + 1)
      (tabGet KeyEntry.zero bank q) (classify p (groupAt options q ds)) := by
  rw [tallySheet, List.range_succ, List.foldl_append]; rfl

/-- A total that each question raises by 1 or leaves counts the questions that raise it. -/
theorem tallySheet_count {p : Profile} {bank : PMap KeyEntry} {options : Nat} {ds : List Nat} (total : Tally → Nat)
    (raises : Nat → Bool) (zero : total .zero = 0)
    (succ : ∀ t j, total (t.score p.asWrong (j + 1) (tabGet KeyEntry.zero bank j) (classify p (groupAt options j ds))) =
      total t + if raises j then 1 else 0) (q : Nat) :
    total (tallySheet p bank q options ds) = ((List.range q).filter raises).length := by
  induction q with
  | zero => exact zero
  | succ q ih =>
    rw [tallySheet_succ, succ, ih, List.range_succ, List.filter_append, List.length_append]
    cases h : raises q <;> simp [h]

/-- The class is one that the key accepts (R163). -/
def GroupClass.accepted (e : KeyEntry) : GroupClass → Bool
  | .single o => decide (o ∈ e.accepted)
  | _ => false

/-- The class is one that the key does not accept. -/
def GroupClass.missed (e : KeyEntry) : GroupClass → Bool
  | .single o => decide (o ∉ e.accepted)
  | _ => false

/-- A question adds its contribution and its weight, and 1 to one of the six counts (R163). -/
theorem Tally.score_eq (t : Tally) (w : Bool) (q : Nat) (e : KeyEntry) (g : GroupClass) :
    t.score w q e g =
      let normal := decide (e.mode = .normal)
      let one := fun b : Bool => if b then 1 else 0
      { sum := t.sum + contribution w e g
        maximum := t.maximum + if e.mode = .voidDrop then 0 else e.weight
        correct := t.correct + one (normal && g.accepted e)
        wrong := t.wrong + one (normal && g.missed e)
        multiple := t.multiple + one (normal && decide (g = .multiple))
        blank := t.blank + one (normal && decide (g = .blank))
        unclear := t.unclear + one (normal && decide (g = .unclear))
        void := t.void + one (!normal)
        unclearList := t.unclearList ++ if normal && decide (g = .unclear) then [q] else [] } := by
  unfold Tally.score contribution
  cases mode : e.mode
  case normal =>
    cases g
    case single o => by_cases h : o ∈ e.accepted <;> simp [GroupClass.accepted, GroupClass.missed, h, Int.sub_eq_add_neg]
    case unclear => cases w <;> simp [GroupClass.accepted, GroupClass.missed, Int.sub_eq_add_neg]
    all_goals simp [GroupClass.accepted, GroupClass.missed, Int.sub_eq_add_neg]
  all_goals simp

/-- A question falls under exactly one of the six counts. -/
theorem Tally.score_questions (t : Tally) (w : Bool) (q : Nat) (e : KeyEntry) (g : GroupClass) :
    let u := t.score w q e g
    u.correct + u.wrong + u.multiple + u.blank + u.unclear + u.void =
      t.correct + t.wrong + t.multiple + t.blank + t.unclear + t.void + 1 := by
  rw [Tally.score_eq]
  by_cases normal : e.mode = .normal
  · cases g
    case single o => by_cases h : o ∈ e.accepted <;> simp [GroupClass.accepted, GroupClass.missed, normal, h] <;> omega
    all_goals simp [GroupClass.accepted, GroupClass.missed, normal]; omega
  · simp [normal]; omega

/-- No question adds more than its weight (R164). -/
theorem contribution_le (w : Bool) (e : KeyEntry) (g : GroupClass) :
    contribution w e g ≤ ((if e.mode = .voidDrop then 0 else e.weight : Nat) : Int) := by
  unfold contribution
  cases mode : e.mode
  case normal =>
    cases g
    case single o => dsimp only; split <;> simp
    case unclear => cases w <;> simp
    all_goals simp
  all_goals simp

section
variable (p : Profile) (bank : PMap KeyEntry) (q options : Nat) (ds : List Nat)

theorem tallySheet_sum : (tallySheet p bank q options ds).sum = ((List.range q).map fun j =>
    contribution p.asWrong (tabGet KeyEntry.zero bank j) (classify p (groupAt options j ds))).sum := by
  induction q with
  | zero => rfl
  | succ q ih => rw [tallySheet_succ, Tally.score_eq, List.range_succ]; simp [ih]

theorem tallySheet_maximum : (tallySheet p bank q options ds).maximum = ((List.range q).map fun j =>
    if (tabGet KeyEntry.zero bank j).mode = .voidDrop then 0 else (tabGet KeyEntry.zero bank j).weight).sum := by
  induction q with
  | zero => rfl
  | succ q ih => rw [tallySheet_succ, Tally.score_eq, List.range_succ]; simp [ih]

theorem tallySheet_questions :
    let t := tallySheet p bank q options ds
    t.correct + t.wrong + t.multiple + t.blank + t.unclear + t.void = q := by
  induction q with
  | zero => rfl
  | succ q ih => rw [tallySheet_succ]; exact (Tally.score_questions _ _ _ _ _).trans (congrArg (· + 1) ih)

theorem tallySheet_unclearList : (tallySheet p bank q options ds).unclearList = ((List.range q).filter fun j =>
    decide ((tabGet KeyEntry.zero bank j).mode = .normal) &&
      decide (classify p (groupAt options j ds) = .unclear)).map (· + 1) := by
  induction q with
  | zero => rfl
  | succ q ih =>
    rw [tallySheet_succ, Tally.score_eq, List.range_succ, List.filter_append, List.map_append]
    dsimp only
    rw [ih]
    refine congrArg _ ?_
    split <;> simp_all

theorem tallySheet_sum_le : (tallySheet p bank q options ds).sum ≤ (tallySheet p bank q options ds).maximum := by
  induction q with
  | zero => exact Int.le_refl _
  | succ q ih =>
    rw [tallySheet_succ, Tally.score_eq]
    have step := contribution_le p.asWrong (tabGet KeyEntry.zero bank q) (classify p (groupAt options q ds))
    dsimp only
    rw [Int.natCast_add]
    exact Int.add_le_add ih step

end

theorem perMille_le {f m : Nat} (h : f ≤ m) : (if m = 0 then 0 else f * 1000 / m) ≤ 1000 := by
  split
  · exact Nat.zero_le _
  · exact Nat.div_le_of_le_mul (Nat.mul_le_mul_right 1000 h)

/-- Settles O38: the class by what `darkest` finds, the totals question by question. -/
theorem groupClassFollowsTheTwoDarkest : Obligations.GroupClassFollowsTheTwoDarkest := by
  refine ⟨fun p ds o d1 d2 top most first second rest => ?_, fun p bank q options generation ds => ?_⟩
  · have bound : ∀ x ∈ ds, x ≤ d1 := fun x h => by
      obtain ⟨i, at'⟩ := List.mem_iff_getElem?.1 h
      exact most i x at'
    rw [classify, darkest_value 0 (List.mem_of_getElem? top) bound, darkest_index top bound first,
      runnerUp_value second rest]
  · have final : (tallySheet p bank q options ds).sum.toNat ≤ (tallySheet p bank q options ds).maximum :=
      Int.toNat_le.2 (tallySheet_sum_le p bank q options ds)
    refine ⟨tallySheet_sum p bank q options ds, tallySheet_maximum p bank q options ds, ?_, ?_, ?_, ?_, ?_,
      tallySheet_questions p bank q options ds, tallySheet_unclearList p bank q options ds, rfl, final, rfl, rfl,
      perMille_le final, rfl, rfl, rfl, rfl, rfl⟩
    · exact tallySheet_count Tally.correct _ rfl (fun t j => by rw [Tally.score_eq]; rfl) q
    · exact tallySheet_count Tally.multiple _ rfl (fun t j => by rw [Tally.score_eq]) q
    · exact tallySheet_count Tally.blank _ rfl (fun t j => by rw [Tally.score_eq]) q
    · exact tallySheet_count Tally.unclear _ rfl (fun t j => by rw [Tally.score_eq]) q
    · exact tallySheet_count Tally.void _ rfl (fun t j => by rw [Tally.score_eq]) q

end Sys2Proof.Machine
end

section
/-! PROOF. The entries of a channel, the teardown gates, and what frees a channel: O16, O17, O18, O53. -/

namespace Sys2Proof.Machine

set_option Elab.async false

/-! ## The slots of a channel -/

theorem mapKeys_nodup {α : Type} {m : PMap α} {a : Nat} (h : mapRises a m = true) : (mapKeys m).Nodup := by
  have above : ∀ (m : PMap α) (a : Nat), mapRises a m = true → ∀ k ∈ mapKeys m, a ≤ k := by
    intro m
    induction m with
    | nil => intro a _ k hk; cases hk
    | cons p m ih =>
      intro a h k hk
      obtain ⟨i, v⟩ := p
      simp only [mapRises, Bool.and_eq_true, decide_eq_true_eq] at h
      rcases List.mem_cons.1 hk with rfl | hk
      · exact h.1
      · exact Nat.le_trans h.1 (Nat.le_of_lt (ih (i + 1) h.2 k hk))
  induction m generalizing a with
  | nil => exact List.nodup_nil
  | cons p m ih =>
    obtain ⟨i, v⟩ := p
    simp only [mapRises, Bool.and_eq_true, decide_eq_true_eq] at h
    exact List.nodup_cons.2 ⟨fun mem => Nat.not_succ_le_self i (above m (i + 1) h.2 i mem), ih h.2⟩

theorem State.roster_rises {s : State} (canonical : s.canonical = true) : mapRises 0 s.roster = true := by
  simp only [State.canonical, Bool.and_eq_true] at canonical
  tauto

section
variable {s : State} (rises : mapRises 0 s.roster = true)
include rises

theorem State.mem_slotsIn {c k : Nat} {p : EntryState → Bool} :
    k ∈ s.slotsIn c p ↔ ∃ e, s.entry k = some e ∧ e.channel = c ∧ p e.state = true := by
  simp only [State.slotsIn, List.mem_filterMap]
  constructor
  · rintro ⟨q, mem, taken⟩
    split at taken
    · next passes =>
      cases taken
      exact ⟨q.2, mapGet_of_mem rises mem, passes⟩
    · cases taken
  · rintro ⟨e, found, passes⟩
    exact ⟨(k, e), mapGet_mem found, if_pos passes⟩

theorem State.slotsIn_nodup (c : Nat) (p : EntryState → Bool) : (s.slotsIn c p).Nodup := by
  have keys : s.slotsIn c p = mapKeys (s.roster.filter fun q => decide (q.2.channel = c ∧ p q.2.state = true)) := by
    rw [State.slotsIn, mapKeys]
    induction s.roster with
    | nil => rfl
    | cons q m ih =>
      by_cases passes : q.2.channel = c ∧ p q.2.state = true
      · simp [passes, ih]
      · simp [passes, ih]
  rw [keys]
  exact mapKeys_nodup (mapRises_filter _ rises)

end

theorem State.slotsOf_eq (s : State) (c : Nat) : s.slotsOf c = s.slotsIn c fun _ => true := by
  simp [State.slotsOf, State.slotsIn]

/-- A step for each of some distinct slots that changes that slot's entry alone. -/
theorem foldl_entries (step : State → Nat → State) (f : Entry → Option Entry)
    (one : ∀ t k j, (step t k).entry j = if k = j then (t.entry j).bind f else t.entry j) {xs : List Nat}
    (distinct : xs.Nodup) (s : State) (j : Nat) :
    (xs.foldl step s).entry j = if j ∈ xs then (s.entry j).bind f else s.entry j := by
  induction xs generalizing s with
  | nil => simp
  | cons k xs ih =>
    obtain ⟨apart, distinct⟩ := List.nodup_cons.1 distinct
    rw [List.foldl_cons, ih distinct, one]
    by_cases same : k = j
    · subst same; simp [apart]
    · simp [same, Ne.symm same]

theorem Option.map_eq_bind_some {α : Type} (f : α → α) (x : Option α) : x.map f = x.bind fun a => some (f a) := by
  cases x <;> rfl

/-! ## CHANNEL_CLOSE -/

theorem State.entry_closeChannel {s : State} (rises : mapRises 0 s.roster = true) (c k : Nat) :
    (s.closeChannel c).entry k =
      if k ∈ s.slotsIn c (fun x => decide (x = .finished) || decide (x = .timeUp))
      then (s.entry k).map fun e => { e with state := .missing } else s.entry k := by
  rw [Option.map_eq_bind_some]
  refine foldl_entries _ (fun e => some { e with state := .missing }) (fun t k j => ?_) (State.slotsIn_nodup rises _ _) s k
  rw [State.entry_onEntry]
  split <;> simp_all [Option.map_eq_bind_some]

theorem State.chan_closeChannel (s : State) (c : Nat) : ((s.closeChannel c).chan c).state = .reconciled := by
  simp [State.closeChannel, State.chan_enterPhase]

/-- Settles O16: every FINISHED or TIME_UP slot is made MISSING, and no other. -/
theorem channelCloseMakesMissing : Obligations.ChannelCloseMakesMissing := by
  intro tag c s canonical takes hc collecting
  have rises := State.roster_rises canonical
  obtain ⟨t, run, served⟩ := State.served (i := .channelClose tag c) (f := (·.channelClose c)) rfl takes
    (by rw [State.channelClose, if_neg (by omega), State.chan_countFrame, if_neg (by simp [collecting])])
    (.closeChannel _ c)
  have entry (k : Nat) := (served.entry k).trans (State.entry_closeChannel (s := s.countFrame) rises c k)
  have listed (k : Nat) (e : Entry) (he : s.entry k = some e) :
      k ∈ s.slotsIn c (fun x => decide (x = .finished) || decide (x = .timeUp)) ↔
        e.channel = c ∧ (e.state = .finished ∨ e.state = .timeUp) := by
    rw [State.mem_slotsIn rises]; simp [he]
  refine ⟨t, run, served.answered, ?_, fun k e he own ended => ?_, fun k e he not => ?_,
    served.unchanged.weaken (by decide)⟩
  · rw [served.chan]; exact State.chan_closeChannel _ c
  · refine (entry k).trans ((if_pos ((listed k e he).2 ⟨own, ended⟩)).trans ?_)
    exact congrArg (Option.map fun e : Entry => { e with state := .missing }) he
  · exact (entry k).trans ((if_neg fun mem => not ((listed k e he).1 mem)).trans he)

/-! ## A channel freed, and the teardown gates -/

theorem State.entry_freeChannel {s : State} (rises : mapRises 0 s.roster = true) (c k : Nat) :
    (s.freeChannel c).entry k = if k ∈ s.slotsOf c then none else s.entry k := by
  have freed := foldl_entries State.freeSlot (fun _ => none) (fun t k j => by
    rw [State.entry_freeSlot]; split <;> simp) (by rw [State.slotsOf_eq]; exact State.slotsIn_nodup rises c _) s k
    (xs := s.slotsOf c)
  refine Eq.trans (b := ((s.slotsOf c).foldl State.freeSlot s).entry k) rfl (freed.trans ?_)
  simp

theorem State.chan_freeChannel (s : State) (c d : Nat) :
    (s.freeChannel c).chan d = if c = d then (s.chan c).freed else s.chan d := by
  have slots : ∀ d, ((s.slotsOf c).foldl State.freeSlot s).chan d = s.chan d := fun d =>
    foldl_keeps (fun t : State => t.chan d) State.freeSlot (fun _ _ => rfl) _ s
  rw [State.freeChannel]
  simp [slots]

theorem State.chan_testGate (s : State) (c d : Nat) :
    (s.testGate c).chan d = if c = d ∧ (s.chan c).state = .releasing ∧ s.gateOpen c then (s.chan c).freed else s.chan d := by
  rw [State.testGate]
  by_cases opens : (s.chan c).state = .releasing ∧ s.gateOpen c = true
  · rw [if_pos opens, State.chan_freeChannel]; simp [opens]
  · rw [if_neg opens, if_neg fun h => opens h.2]

theorem State.testGate_gateOpen (s : State) (c d : Nat) : (s.testGate c).gateOpen d = s.gateOpen d := by
  have moves := (Moves.testGate s c).frame.2
  have log : (s.testGate c).log = s.log := moves .log (by decide)
  have slots : (s.testGate c).intake.slots = s.intake.slots := (moves .intake (by decide)).2.1
  rw [State.gateOpen, State.gateOpen, log, slots]

/-- The gates tested: each RELEASING channel whose gate stands open is freed, and no other channel changes (R54). -/
theorem State.chan_testGates (s : State) {c : Nat} (hc : c < 16) :
    s.testGates.chan c = if (s.chan c).state = .releasing ∧ s.gateOpen c then (s.chan c).freed else s.chan c := by
  refine foldl_split State.testGate c (fun t => t.chan c = s.chan c ∧ t.gateOpen c = s.gateOpen c)
    (fun t => t.chan c = if (s.chan c).state = .releasing ∧ s.gateOpen c then (s.chan c).freed else s.chan c)
    (fun t d other kept => ?_) (fun t kept => ?_) (fun t d other kept => ?_) _ channelNumbers_nodup
    ((mem_channelNumbers c).2 hc) s ⟨rfl, rfl⟩
  · rw [State.chan_testGate, if_neg fun h => other h.1, State.testGate_gateOpen]; exact kept
  · rw [State.chan_testGate, kept.1, kept.2]; simp
  · rw [State.chan_testGate, if_neg fun h => other h.1]; exact kept

/-- A channel that no gate frees stands through the gates. -/
theorem State.chan_testGates_stays {s : State} {c : Nat} (stays : ¬((s.chan c).state = .releasing ∧ s.gateOpen c = true)) :
    s.testGates.chan c = s.chan c :=
  (foldl_invariant (fun t : State => t.chan c = s.chan c ∧ t.gateOpen c = s.gateOpen c) State.testGate
    (fun t d kept => by
      refine ⟨?_, (State.testGate_gateOpen t d c).trans kept.2⟩
      rw [State.chan_testGate, if_neg, kept.1]
      rintro ⟨rfl, opens⟩
      rw [kept.1, kept.2] at opens
      exact stays opens) channelNumbers s ⟨rfl, rfl⟩).1

theorem State.entry_testGate {s : State} (rises : mapRises 0 s.roster = true) (c k : Nat) : (s.testGate c).entry k =
    if ((s.chan c).state = .releasing ∧ s.gateOpen c = true) ∧ k ∈ s.slotsOf c then none else s.entry k := by
  rw [State.testGate]
  by_cases opens : (s.chan c).state = .releasing ∧ s.gateOpen c = true
  · rw [if_pos opens, State.entry_freeChannel rises]; simp [opens]
  · rw [if_neg opens, if_neg fun h => opens h.1]

/-- The gates bring no entry. -/
theorem State.entry_of_testGates {s : State} (canonical : s.canonical = true) {k : Nat} {e : Entry}
    (h : s.testGates.entry k = some e) : s.entry k = some e :=
  (foldl_invariant (fun t : State => t.canonical = true ∧ ∀ e, t.entry k = some e → s.entry k = some e) State.testGate
    (fun t c kept => by
      refine ⟨(Moves.testGate t c).canonical kept.1, fun e he => kept.2 e ?_⟩
      rw [State.entry_testGate (State.roster_rises kept.1)] at he
      split at he
      · cases he
      · exact he) channelNumbers s ⟨canonical, fun _ => id⟩).2 e h

/-- The entry of a channel that no gate frees stands. -/
theorem State.entry_testGates_stays {s : State} (canonical : s.canonical = true) {k : Nat} {e : Entry}
    (stands : s.entry k = some e) (stays : ¬((s.chan e.channel).state = .releasing ∧ s.gateOpen e.channel = true)) :
    s.testGates.entry k = some e :=
  (foldl_invariant (fun t : State => t.canonical = true ∧ t.entry k = some e ∧ t.chan e.channel = s.chan e.channel ∧
      t.gateOpen e.channel = s.gateOpen e.channel) State.testGate
    (fun t c kept => by
      obtain ⟨canonical, stands, chan, gate⟩ := kept
      have shut : ¬((t.chan e.channel).state = .releasing ∧ t.gateOpen e.channel = true) := by rw [chan, gate]; exact stays
      refine ⟨(Moves.testGate t c).canonical canonical, ?_, ?_, (State.testGate_gateOpen t c _).trans gate⟩
      · rw [State.entry_testGate (State.roster_rises canonical), if_neg, stands]
        rintro ⟨opens, mem⟩
        rw [State.slotsOf_eq, State.mem_slotsIn (State.roster_rises canonical)] at mem
        obtain ⟨e', found, own, -⟩ := mem
        cases stands.symm.trans found
        exact shut (own ▸ opens)
      · rw [State.chan_testGate, if_neg, chan]
        rintro ⟨rfl, opens⟩
        exact shut opens) channelNumbers s ⟨canonical, stands, rfl, rfl⟩).2.1

/-- A histogram outlives its channel's teardown (R55). -/
theorem State.histogram_testGates (s : State) (c : Nat) : (s.testGates.chan c).histogram = (s.chan c).histogram :=
  foldl_keeps (fun t : State => (t.chan c).histogram) State.testGate (fun t d => by
    rw [State.chan_testGate]
    split
    · next freed => rw [freed.1]; rfl
    · rfl) _ s

/-- What CHANNEL_TEARDOWN leaves when it frees channel `c`, which had become `v` (R53, R55). -/
theorem State.freeChannel_frees {s v : State} {c : Nat} (rises : mapRises 0 s.roster = true) (roster : v.roster = s.roster) :
    ((v.freeChannel c).chan c).state = .free ∧ ((v.freeChannel c).chan c).bankA = [] ∧
      ((v.freeChannel c).chan c).bankB = [] ∧ ((v.freeChannel c).chan c).stage = .idle ∧
      Category.teardownDone ∈ (v.freeChannel c).office.flags ∧
      ∀ k e, s.entry k = some e → (v.freeChannel c).entry k = if e.channel = c then none else some e := by
  have chan : (v.freeChannel c).chan c = (v.chan c).freed := by rw [State.chan_freeChannel, if_pos rfl]
  rw [chan]
  refine ⟨rfl, rfl, rfl, rfl, State.flag_notify _ (.teardownDone c v.time.hallTime), fun k e he => ?_⟩
  have rises' : mapRises 0 v.roster = true := roster ▸ rises
  have found : v.entry k = some e := by rw [State.entry, roster]; exact he
  have own : k ∈ v.slotsOf c ↔ e.channel = c := by
    rw [State.slotsOf_eq, State.mem_slotsIn rises']; simp [found]
  simp [State.entry_freeChannel rises', own, found]

/-- CHANNEL_TEARDOWN of a LOADED or RECONCILED channel: freed, from `v`, or RELEASING with its gate shut (R53, R54). -/
theorem State.channelTeardown_state {s : State} {c : Nat} (hc : c ≤ 15)
    (state : (s.chan c).state = .loaded ∨ (s.chan c).state = .reconciled) :
    ∃ u, s.channelTeardown c = ⟨.ok, [], u⟩ ∧
      if (s.chan c).state = .loaded ∨ s.gateOpen c = true then
        ∃ v, u = v.freeChannel c ∧ (v = s ∨ v = s.enterPhase c .releasing)
      else u = s.enterPhase c .releasing := by
  have range : ¬15 < c := by omega
  rcases state with loaded | reconciled
  · refine ⟨s.freeChannel c, ?_, ?_⟩
    · rw [State.channelTeardown, if_neg range, loaded]; rfl
    · rw [if_pos (.inl loaded)]; exact ⟨s, rfl, .inl rfl⟩
  · refine ⟨(s.enterPhase c .releasing).testGate c, ?_, ?_⟩
    · rw [State.channelTeardown, if_neg range, reconciled]; rfl
    · have releasing : ((s.enterPhase c .releasing).chan c).state = .releasing := by simp [State.chan_enterPhase]
      have gate : (s.enterPhase c .releasing).gateOpen c = s.gateOpen c := rfl
      rw [State.testGate, gate]
      simp only [releasing, reconciled, reduceCtorEq, false_or, true_and]
      split
      · exact ⟨_, rfl, .inr rfl⟩
      · rfl

/-- Settles O17: a LOADED channel is freed, a RECONCILED one goes through its gate. -/
theorem channelTeardownFreesOrReleases : Obligations.ChannelTeardownFreesOrReleases := by
  intro tag c s canonical takes hc state
  obtain ⟨u, answer, left⟩ := State.channelTeardown_state (s := s.countFrame) hc state
  have moves := Moves.channelTeardown s.countFrame c
  rw [answer] at moves
  obtain ⟨t, run, served⟩ := State.served (i := .channelTeardown tag c) (f := (·.channelTeardown c)) rfl takes answer moves
  refine ⟨t, run, served.answered, ?_⟩
  rw [← and_assoc, ← and_assoc]
  refine ⟨?_, served.unchanged.weaken (by decide)⟩
  rw [served.chan]
  by_cases frees : (s.chan c).state = .loaded ∨ s.gateOpen c = true
  · rw [if_pos (show (s.countFrame.chan c).state = .loaded ∨ s.countFrame.gateOpen c = true from frees)] at left
    obtain ⟨v, rfl, from'⟩ := left
    have roster : v.roster = s.roster := by rcases from' with rfl | rfl <;> rfl
    have chan : (v.chan c).config = (s.chan c).config ∧ (v.chan c).histogram = (s.chan c).histogram := by
      rcases from' with rfl | rfl
      · exact ⟨rfl, rfl⟩
      · simp [State.chan_enterPhase]
    obtain ⟨free, bankA, bankB, stage, raised, entries⟩ :=
      State.freeChannel_frees (c := c) (State.roster_rises canonical) roster
    rw [if_pos frees]
    have freed : (v.freeChannel c).chan c = (v.chan c).freed := by rw [State.chan_freeChannel, if_pos rfl]
    exact ⟨by rw [freed]; exact chan, free, bankA, bankB, stage, served.raised raised, fun k e he =>
      (served.entry k).trans (entries k e he)⟩
  · rw [if_neg (show ¬((s.countFrame.chan c).state = .loaded ∨ s.countFrame.gateOpen c = true) from frees)] at left
    subst left
    rw [if_neg frees]
    refine ⟨by simp [State.chan_enterPhase], by simp [State.chan_enterPhase], ?_⟩
    rw [served.eq, State.settle_roster]; rfl

/-! ## RELEASE_RESULTS -/

theorem List.length_sub_filter {α : Type} (xs : List α) (p q : α → Bool) (h : ∀ x, q x = !p x) :
    xs.length - (xs.filter p).length = (xs.filter q).length := by
  have split : (xs.filter p).length + (xs.filter q).length = xs.length := by
    rw [show q = fun x => !p x from funext h, ← List.countP_eq_length_filter, ← List.countP_eq_length_filter,
      List.length_eq_countP_add_countP p]
    simp
  omega

theorem State.gateOpen_eq (s : State) (c : Nat) :
    s.gateOpen c = true ↔ (∀ r ∈ s.log.records, r.channel ≠ some c) ∧ s.scoringResolved c = false := by
  simp only [State.gateOpen, State.scoringResolved, Bool.and_eq_true, List.all_eq_true, List.any_eq_true,
    Bool.not_eq_true', ← Bool.not_eq_true, decide_eq_true_eq, not_exists]
  simp

theorem State.releaseResults_eq (s : State) (upto : Nat) :
    s.releaseResults upto = ⟨.ok, be 2 (s.log.records.filter fun r => decide (r.number ≤ upto)).length ++
      be 2 (s.log.records.filter fun r => decide (upto < r.number)).length,
      (s.onLog fun g => g.release upto).testGates⟩ := by
  rw [← List.length_sub_filter s.log.records (fun r => decide (upto < r.number)) _ fun r => by simp [← decide_not]]
  rfl

/-- The gate of channel `c` once the records are released (R54). -/
theorem State.gateOpen_release (s : State) (upto c : Nat) : (s.onLog fun g => g.release upto).gateOpen c = true ↔
    (∀ r ∈ s.log.records, upto < r.number → r.channel ≠ some c) ∧ s.scoringResolved c = false := by
  have sheets : (s.onLog fun g => g.release upto).scoringResolved c = s.scoringResolved c := rfl
  rw [State.gateOpen_eq, sheets]
  simp [ResultLog.release]

/-- Settles O53: the records are removed and the gates tested. -/
theorem releaseResultsRemovesTheRecords : Obligations.ReleaseResultsRemovesTheRecords := by
  intro tag upto s takes
  obtain ⟨v, hv⟩ : ∃ v, v = s.countFrame.onLog fun g => g.release upto := ⟨_, rfl⟩
  have moves := Moves.releaseResults s.countFrame upto
  have answer := State.releaseResults_eq s.countFrame upto
  rw [State.releaseResults_state, ← hv] at moves
  rw [← hv] at answer
  obtain ⟨t, run, served⟩ := State.served ((carries_releaseResults tag upto).2 s) takes answer moves
  refine ⟨t, run, ?_, served.answered, fun c hc => ?_, served.unchanged.weaken (by decide)⟩
  · have gates : v.testGates.log = v.log := (Moves.testGates v).frame.2 .log (by decide)
    rw [served.eq, State.settle_log, State.respond_log, gates, hv]
    rfl
  · have chan : v.chan c = s.chan c := by rw [hv]; rfl
    have gate : v.gateOpen c = true ↔
        (∀ r ∈ s.log.records, upto < r.number → r.channel ≠ some c) ∧ s.scoringResolved c = false := by
      rw [hv]; exact State.gateOpen_release s.countFrame upto c
    rw [served.chan, State.chan_testGates v hc, chan]
    simp only [gate]
    split <;> rfl

/-! ## Extra time -/

/-- Settles O18: `m` is the number of whole minutes that the rounded share of W takes. -/
theorem allowedSecondsRoundUpToWholeMinutes : Obligations.AllowedSecondsRoundUpToWholeMinutes := by
  intro w p
  refine ⟨by simp [allowedSeconds, divUp], divUp (divUp (w * p) 100) 60, ?_, ?_, fun n enough => ?_⟩
  · rw [allowedSeconds, Nat.mul_comm]
  · unfold divUp; omega
  · unfold divUp; omega

end Sys2Proof.Machine
end

section
/-! PROOF. The marking unit: the checks of a sheet in their order, and SHEET_CHANNEL_RESOLVED: O33. -/

namespace Sys2Proof.Machine

set_option Elab.async false

/-! ## The checks in order -/

/-- The work `m` after the checks that follow the first `n`, as far as `reach`. -/
def State.checksFrom (s : State) (u : Slot) (reach n : Nat) (m : Marking) : Marking :=
  (checkNumbers.drop n).foldl (s.nextCheck u reach) m

theorem State.checked_eq (s : State) (reach : Nat) (m : Marking) :
    s.checked reach m = s.checksFrom (s.intake.slot m.slot) reach 0 m := rfl

theorem checkNumbers_drop : ∀ n < 14, checkNumbers.drop n = (n + 1) :: checkNumbers.drop (n + 1) := by decide

section
variable {s : State} {u : Slot} {reach n : Nat} {m : Marking}

/-- No further check is made of a sheet that has failed, or has come as far as it may. -/
theorem State.checksFrom_done (n : Nat) (done : m.failed.isSome = true ∨ reach ≤ m.made) : s.checksFrom u reach n m = m := by
  unfold State.checksFrom
  induction checkNumbers.drop n with
  | nil => rfl
  | cons i rest ih =>
    have still : s.nextCheck u reach m i = m := by
      refine if_pos ?_
      rcases done with failed | far
      · exact .inl failed
      · exact .inr (by omega)
    rw [List.foldl_cons, still, ih]

variable (working : m.failed = none) (made : m.made = n) (reaches : n + 1 ≤ reach)
  (free : n = 12 → s.commitRuns m = false)
include working made reaches free

theorem State.nextCheck_made : s.nextCheck u reach m (n + 1) = match s.makeCheck u m (n + 1) with
    | .inl m' => { m' with made := n + 1 }
    | .inr x => { m with failed := some (s.failure x) } := by
  refine if_neg ?_
  rintro (failed | other | short | ⟨last, runs⟩)
  · simp [working] at failed
  · exact other (by rw [made])
  · omega
  · exact absurd runs (by rw [free (by omega)]; simp)

theorem State.checksFrom_pass {m' : Marking} (hn : n < 14) (passes : s.makeCheck u m (n + 1) = .inl m') :
    s.checksFrom u reach n m = s.checksFrom u reach (n + 1) { m' with made := n + 1 } := by
  rw [State.checksFrom, checkNumbers_drop n hn, List.foldl_cons, State.nextCheck_made working made reaches free, passes]
  rfl

theorem State.checksFrom_fail {x : Status} (hn : n < 14) (fails : s.makeCheck u m (n + 1) = .inr x) :
    s.checksFrom u reach n m = { m with failed := some (s.failure x) } := by
  rw [State.checksFrom, checkNumbers_drop n hn, List.foldl_cons, State.nextCheck_made working made reaches free, fails]
  exact State.checksFrom_done (n + 1) (.inl rfl)

end

/-- The work of the sheet of slot `n`, of form `f`, after `made` checks, with what they have found. -/
def Marking.work (n : Nat) (f : Form) (made : Nat) (id : Option Nat) (paper : Nat) (channel entry : Option Nat) : Marking :=
  ⟨n, made, none, f.defined, f.questions, f.options, f.grid, id, paper, channel, entry, .a, 0⟩

theorem Marking.take_eq (n : Nat) (f : Form) : Marking.take n f = .work n f 0 none 0 none none := rfl

theorem State.paperChannel_of_papers {s : State} {paper c : Nat} (h : s.papers paper c) : s.paperChannel paper = some c := by
  obtain ⟨range, only⟩ := h
  have passes := (only c range).2 rfl
  cases found : s.paperChannel paper with
  | none =>
    have all := List.find?_eq_none.1 found c ((mem_channelNumbers c).2 range)
    simp [passes] at all
  | some d =>
    have mem := (mem_channelNumbers d).1 (List.mem_of_find?_eq_some found)
    have holds := List.find?_some found
    simp only [Bool.and_eq_true, decide_eq_true_eq] at holds
    rw [(only d mem).1 holds]

theorem State.paperChannel_eq_none {s : State} {paper : Nat}
    (h : ∀ c, c < 16 → (s.chan c).state = .free ∨ (s.chan c).config.paper ≠ paper) : s.paperChannel paper = none := by
  refine List.find?_eq_none.2 fun c mem => ?_
  rcases h c ((mem_channelNumbers c).1 mem) with free | other
  · simp [free]
  · simp [other]

section
variable {s : State} {u : Slot} {f : Form} {reach : Nat} (n : Nat)

section
variable {n} {i paper paper' : Nat} {id id' channel channel' entry entry' : Option Nat}
  (before : s.checksFrom u reach 0 (.take n f) = s.checksFrom u reach i (.work n f i id paper channel entry))
  (hi : i < 12) (h : i + 1 ≤ reach)
include before hi h

/-- A sheet that has passed `i` checks passes the next. -/
theorem State.checks_pass
    (passes : s.makeCheck u (.work n f i id paper channel entry) (i + 1) = .inl (.work n f i id' paper' channel' entry')) :
    s.checksFrom u reach 0 (.take n f) = s.checksFrom u reach (i + 1) (.work n f (i + 1) id' paper' channel' entry') :=
  before.trans (State.checksFrom_pass (n := i) rfl rfl h (fun last => absurd last (by omega)) (by omega) passes)

/-- A sheet that has passed `i` checks fails the next. -/
theorem State.checks_fail {x : Status} (fails : s.makeCheck u (.work n f i id paper channel entry) (i + 1) = .inr x) :
    s.checksFrom u reach 0 (.take n f) =
      { Marking.work n f i id paper channel entry with failed := some (s.failure x) } :=
  before.trans (State.checksFrom_fail (n := i) rfl rfl h (fun last => absurd last (by omega)) (by omega) fails)

end

theorem State.checks_good (good : u.good = true) (h : 1 ≤ reach) :
    s.checksFrom u reach 0 (.take n f) = s.checksFrom u reach 1 (.work n f 1 none 0 none none) :=
  State.checks_pass (i := 0) rfl (by omega) h (if_pos good)

theorem State.checks_formed (formed : u.formed f) (h : 2 ≤ reach) :
    s.checksFrom u reach 0 (.take n f) = s.checksFrom u reach 2 (.work n f 2 none 0 none none) := by
  obtain ⟨good, form, defined⟩ := formed
  exact State.checks_pass (State.checks_good n good (by omega)) (by omega) h (if_pos ⟨form, defined⟩)

theorem State.checks_sized (sized : u.sized f) (h : 3 ≤ reach) :
    s.checksFrom u reach 0 (.take n f) = s.checksFrom u reach 3 (.work n f 3 none 0 none none) := by
  obtain ⟨formed, overrun, declared⟩ := sized
  exact State.checks_pass (State.checks_formed n formed (by omega)) (by omega) h
    ((if_neg (by simp [overrun])).trans (if_pos declared))

theorem State.checks_calibrates (sized : u.sized f) (calibrates : s.calibrates u f) (h : 4 ≤ reach) :
    s.checksFrom u reach 0 (.take n f) = s.checksFrom u reach 4 (.work n f 4 none 0 none none) :=
  State.checks_pass (State.checks_sized n sized (by omega)) (by omega) h (if_pos calibrates)

theorem State.checks_id {id : Nat} (sized : u.sized f) (calibrates : s.calibrates u f)
    (read : readGrid (s.profile f.grid) 8 u.darks = some id) (h : 5 ≤ reach) :
    s.checksFrom u reach 0 (.take n f) = s.checksFrom u reach 5 (.work n f 5 (some id) 0 none none) :=
  State.checks_pass (State.checks_calibrates n sized calibrates (by omega)) (by omega) h
    (by simp only [State.makeCheck, Marking.work, read])

theorem State.readsSheet_sized {id paper : Nat} (reads : s.readsSheet u f id paper) :
    u.sized f ∧ s.calibrates u f ∧ readGrid (s.profile f.grid) 8 u.darks = some id ∧
      readGrid (s.profile f.grid) 4 (u.darks.drop 80) = some paper := by
  obtain ⟨good, form, defined, overrun, declared, order, span, candidate, number⟩ := reads
  exact ⟨⟨⟨good, form, defined⟩, overrun, declared⟩, ⟨order, span⟩, candidate, number⟩

theorem State.checks_reads {id paper : Nat} (reads : s.readsSheet u f id paper) (h : 6 ≤ reach) :
    s.checksFrom u reach 0 (.take n f) = s.checksFrom u reach 6 (.work n f 6 (some id) paper none none) := by
  obtain ⟨sized, calibrates, candidate, number⟩ := State.readsSheet_sized reads
  exact State.checks_pass (State.checks_id n sized calibrates candidate (by omega)) (by omega) h
    (by simp only [State.makeCheck, Marking.work, number])

theorem State.checks_resolves {id paper c : Nat} (resolves : s.resolves u f id paper c) (h : 7 ≤ reach) :
    s.checksFrom u reach 0 (.take n f) = s.checksFrom u reach 7 (.work n f 7 (some id) paper (some c) none) := by
  obtain ⟨reads, papers⟩ := resolves
  exact State.checks_pass (State.checks_reads n reads (by omega)) (by omega) h
    (by simp only [State.makeCheck, Marking.work, State.paperChannel_of_papers papers])

theorem State.checks_noChannel {id paper : Nat} (reads : s.readsSheet u f id paper) (h : 7 ≤ reach)
    (none : ∀ c, c < 16 → (s.chan c).state = .free ∨ (s.chan c).config.paper ≠ paper) :
    s.checksFrom u reach 0 (.take n f) =
      { Marking.work n f 6 (some id) paper .none .none with failed := some (s.failure .noChannel) } :=
  State.checks_fail (State.checks_reads n reads (by omega)) (by omega) h
    (by simp only [State.makeCheck, Marking.work, State.paperChannel_eq_none none])

end

/-- Checks 8 and up find neither id, paper number nor channel. -/
theorem State.makeCheck_found {s : State} {u : Slot} {m m' : Marking} {i : Nat} (h : 8 ≤ i)
    (check : s.makeCheck u m i = .inl m') : m'.channel = m.channel ∧ m'.id = m.id ∧ m'.paper = m.paper := by
  unfold State.makeCheck at check
  split at check
  iterate 7 · omega
  all_goals repeat' split at check
  all_goals cases check
  all_goals exact ⟨rfl, rfl, rfl⟩

/-- From check 8 to check 12 the work keeps its slot, id, paper number and channel, and stops before the reach only where a
check fails (R159). -/
theorem State.checksFrom_after7 {s : State} {u : Slot} {reach : Nat} (h : reach ≤ 12) (n : Nat) (m : Marking)
    (from7 : 7 ≤ n) (short : n ≤ reach) (working : m.failed = none) (made : m.made = n) :
    let r := s.checksFrom u reach n m
    (r.slot = m.slot ∧ r.channel = m.channel ∧ r.id = m.id ∧ r.paper = m.paper) ∧ n ≤ r.made ∧ r.made ≤ reach ∧
      (r.made < reach → r.failed ≠ none) := by
  obtain ⟨k, hk⟩ : ∃ k, k = reach - n := ⟨_, rfl⟩
  induction k generalizing n m with
  | zero =>
    rw [State.checksFrom_done n (.inr (by omega))]
    exact ⟨⟨rfl, rfl, rfl, rfl⟩, by omega, by omega, fun below => absurd below (by omega)⟩
  | succ k ih =>
    have reaches : n + 1 ≤ reach := by omega
    have free : n = 12 → s.commitRuns m = false := fun last => absurd last (by omega)
    cases check : s.makeCheck u m (n + 1) with
    | inr x =>
      rw [State.checksFrom_fail working made reaches free (by omega) check]
      exact ⟨⟨rfl, rfl, rfl, rfl⟩, by rw [← made], by dsimp only; omega, fun _ => nofun⟩
    | inl m' =>
      obtain ⟨failed, slot, -⟩ := State.makeCheck_keeps check
      have found := State.makeCheck_found (by omega) check
      rw [State.checksFrom_pass working made reaches free (by omega) check]
      obtain ⟨same, most, least, stops⟩ := ih (n + 1) { m' with made := n + 1 } (by omega) reaches
        (failed.trans working) rfl (by omega)
      exact ⟨⟨same.1.trans slot, same.2.1.trans found.1, same.2.2.1.trans found.2.1, same.2.2.2.trans found.2.2⟩,
        by omega, least, stops⟩

/-- The work and the slots once the checks as far as `reach` are made. -/
theorem State.advance_found {s : State} {m r : Marking} {reach : Nat} (marking : s.intake.marking = some m)
    (checked : s.checked reach m = r) :
    (s.advance reach).settle.intake.marking = some r ∧
      (s.advance reach).settle.intake.slot m.slot = { s.intake.slot m.slot with resolved := r.channel } ∧
      ∀ k, k ≠ m.slot → (s.advance reach).settle.intake.slot k = s.intake.slot k := by
  rw [State.settle_marking, State.settle_slot, State.advance_of_working marking, checked]
  refine ⟨rfl, by simp [Intake.slot, Intake.onSlot], fun k other => ?_⟩
  rw [State.settle_slot]
  simp [Intake.slot, Intake.onSlot, Ne.symm other]

theorem exec_sheetChannelResolved {reach : Nat} (low : 7 ≤ reach) (high : reach ≤ 12) (s : State) :
    exec (.sheetChannelResolved reach) s = .next (s.advance reach).settle := by
  have range : bring 7 12 reach = reach := by unfold bring; omega
  exact congrArg (fun r => Host.Outcome.next (s.advance r).settle) range

/-- Settles O33: the checks before the seventh read the sheet, the seventh finds its channel, and those after it keep it. -/
theorem sheetChannelIsResolvedAtCheck7 : Obligations.SheetChannelIsResolvedAtCheck7 := by
  refine ⟨fun reach s => ?_, fun n id paper reach f s marking reads low high => ⟨fun c papers => ?_, fun none => ?_⟩⟩
  · obtain ⟨r, hr⟩ : ∃ r, r = bring 7 12 reach := ⟨_, rfl⟩
    have run : exec (.sheetChannelResolved reach) s = .next (s.advance r).settle := by rw [hr]; rfl
    refine ⟨_, run, (Moves.advance s r).frame.settle, ?_⟩
    simp only [State.settle_rx, State.settle_arrivals, State.settle_verdicts, State.settle_sheetStats, State.settle_slot]
    cases marking : s.intake.marking with
    | none =>
      rw [State.advance_of_idle marking]
      exact ⟨rfl, rfl, rfl, rfl, fun _ => (Unchanged.refl [] s).settle, fun k => by simp⟩
    | some m =>
      rw [State.advance_of_working marking]
      refine ⟨rfl, rfl, rfl, rfl, nofun, fun k => ?_⟩
      by_cases own : m.slot = k
      · subst own; simp [Intake.slot, Intake.onSlot]
      · simp [Intake.slot, Intake.onSlot, own]
  · have resolved := (State.checked_eq s reach (.take n f)).trans (State.checks_resolves n ⟨reads, papers⟩ low)
    obtain ⟨⟨slot, channel, candidate, number⟩, least, most, stops⟩ := State.checksFrom_after7 (s := s)
      (u := s.intake.slot n) high 7 (.work n f 7 (some id) paper (some c) none) (Nat.le_refl 7) low rfl rfl
    obtain ⟨found, taken, others⟩ := State.advance_found marking resolved
    refine ⟨_, _, exec_sheetChannelResolved low high s, found, slot, channel, candidate, number, least, most, stops, ?_,
      ?_, others, (Moves.advance s reach).frame.settle⟩
    · rintro rfl
      rw [State.checksFrom_done 7 (.inr (Nat.le_refl 7))]; rfl
    · exact taken.trans (congrArg (fun c => { s.intake.slot n with resolved := c }) channel)
  · have failed := (State.checked_eq s reach (.take n f)).trans (State.checks_noChannel n reads low none)
    obtain ⟨found, taken, others⟩ := State.advance_found marking failed
    exact ⟨_, _, exec_sheetChannelResolved low high s, found, rfl, rfl, rfl, rfl, taken, others,
      (Moves.advance s reach).frame.settle⟩

end Sys2Proof.Machine
end

section
/-! PROOF. A sheet completes: O34. -/

namespace Sys2Proof.Machine

set_option Elab.async false

/-! ## The last checks -/

theorem State.channelLookup_some {s : State} {id c k : Nat} {e : Entry} (rises : mapRises 0 s.roster = true)
    (found : s.channelLookup id c = some (k, e)) : s.entry k = some e ∧ e.id = id ∧ e.channel = c := by
  have holds := List.find?_some found
  simp only [Bool.and_eq_true, decide_eq_true_eq] at holds
  exact ⟨mapGet_of_mem rises (List.mem_of_find?_eq_some found), holds⟩

section
variable {s : State} {u : Slot} {f : Form} {reach : Nat} (n : Nat) {id paper c k : Nat} {e : Entry}

theorem State.checks_form (resolves : s.resolves u f id paper c) (form : (s.chan c).config.form = u.form)
    (h : 8 ≤ reach) :
    s.checksFrom u reach 0 (.take n f) = s.checksFrom u reach 8 (.work n f 8 (some id) paper (some c) none) :=
  State.checks_pass (State.checks_resolves n resolves (by omega)) (by omega) h (if_pos form)

theorem State.checks_finds (finds : s.finds u f id paper c k e) (h : 9 ≤ reach) :
    s.checksFrom u reach 0 (.take n f) = s.checksFrom u reach 9 (.work n f 9 (some id) paper (some c) (some k)) := by
  obtain ⟨resolves, form, found⟩ := finds
  refine State.checks_pass (State.checks_form n resolves form (by omega)) (by omega) h ?_
  simp only [State.makeCheck, Marking.work, Option.getD_some, found]

theorem State.checks_open (finds : s.finds u f id paper c k e) (open' : (s.chan c).state ≠ .releasing) (h : 10 ≤ reach) :
    s.checksFrom u reach 0 (.take n f) = s.checksFrom u reach 10 (.work n f 10 (some id) paper (some c) (some k)) :=
  State.checks_pass (State.checks_finds n finds (by omega)) (by omega) h (if_neg open')

variable (rises : mapRises 0 s.roster = true)
include rises

/-- Check 11 looks at the entry found. -/
theorem State.makeCheck_collected (i : Nat) (found : s.channelLookup id c = some (k, e)) :
    s.makeCheck u (.work n f i (some id) paper (some c) (some k)) 11 =
      if e.state = .collected then .inl (.work n f i (some id) paper (some c) (some k)) else .inr .notCollected := by
  obtain ⟨stands, -, own⟩ := State.channelLookup_some rises found
  simp [State.makeCheck, State.markedEntry, Marking.work, stands, own]

theorem State.makeCheck_unmarked (i : Nat) (found : s.channelLookup id c = some (k, e)) :
    s.makeCheck u (.work n f i (some id) paper (some c) (some k)) 12 =
      if e.result = .none then .inl (.work n f i (some id) paper (some c) (some k)) else .inr .duplicateSheet := by
  obtain ⟨stands, -, -⟩ := State.channelLookup_some rises found
  simp [State.makeCheck, State.markedEntry, Marking.work, stands]

theorem State.checks_collected (finds : s.finds u f id paper c k e) (open' : (s.chan c).state ≠ .releasing)
    (collected : e.state = .collected) (h : 11 ≤ reach) :
    s.checksFrom u reach 0 (.take n f) = s.checksFrom u reach 11 (.work n f 11 (some id) paper (some c) (some k)) :=
  State.checks_pass (State.checks_open n finds open' (by omega)) (by omega) h
    ((State.makeCheck_collected n rises 10 finds.2.2).trans (if_pos collected))

theorem State.checks_unmarked (finds : s.finds u f id paper c k e) (open' : (s.chan c).state ≠ .releasing)
    (collected : e.state = .collected) (unmarked : e.result = .none) (h : 12 ≤ reach) :
    s.checksFrom u reach 0 (.take n f) = s.checksFrom u reach 12 (.work n f 12 (some id) paper (some c) (some k)) :=
  State.checks_pass (State.checks_collected n rises finds open' collected (by omega)) (by omega) h
    ((State.makeCheck_unmarked n rises 11 finds.2.2).trans (if_pos unmarked))

/-- The work that has passed check 13, with the active key bank and its generation. -/
def State.keyed (s : State) (n : Nat) (f : Form) (made id paper c k : Nat) : Marking :=
  { Marking.work n f made (some id) paper (some c) (some k) with
    bank := (s.chan c).active, generation := (s.chan c).generation }

theorem State.checks_keyed (finds : s.finds u f id paper c k e) (open' : (s.chan c).state ≠ .releasing)
    (collected : e.state = .collected) (unmarked : e.result = .none) (free : ∀ j, (s.chan c).stage ≠ .running j)
    (h : 13 ≤ reach) :
    s.checksFrom u reach 0 (.take n f) = s.checksFrom u reach 13 (s.keyed n f 13 id paper c k) := by
  rw [State.checks_unmarked n rises finds open' collected unmarked (by omega)]
  have idle : s.commitRuns (.work n f 12 (some id) paper (some c) (some k)) = false := by
    rw [State.commitRuns]
    split
    · next j running => exact absurd running (free j)
    · rfl
  exact State.checksFrom_pass (n := 12) rfl rfl h (fun _ => idle) (by omega) rfl

end

/-- The work of a rejected sheet: failed at its check, with what the checks before it have found. -/
theorem State.checks_rejects {s : State} {u : Slot} {f : Form} {x : Status} {id c k : Option Nat} (n : Nat)
    (rises : mapRises 0 s.roster = true) (h : s.Rejects u f x id c k) :
    ∃ r, s.checksFrom u 14 0 (.take n f) = r ∧ r.slot = n ∧ r.failed = some (s.failure x) ∧ r.channel = c ∧ r.id = id ∧
      r.entry = k := by
  cases h with
  | badFrame bad =>
    exact ⟨_, State.checks_fail (i := 0) rfl (by omega) (by omega) (if_neg (by simp [bad])), rfl, rfl, rfl, rfl, rfl⟩
  | formUnknown good unknown =>
    exact ⟨_, State.checks_fail (State.checks_good n good (by omega)) (by omega) (by omega) (if_neg unknown), rfl, rfl, rfl,
      rfl, rfl⟩
  | overrun formed overrun =>
    exact ⟨_, State.checks_fail (State.checks_formed n formed (by omega)) (by omega) (by omega) (if_pos overrun), rfl, rfl,
      rfl, rfl, rfl⟩
  | wrongSize formed fits wrong =>
    exact ⟨_, State.checks_fail (State.checks_formed n formed (by omega)) (by omega) (by omega)
      ((if_neg (by simp [fits])).trans (if_neg wrong)), rfl, rfl, rfl, rfl, rfl⟩
  | calFault sized fault =>
    exact ⟨_, State.checks_fail (State.checks_sized n sized (by omega)) (by omega) (by omega) (if_neg fault), rfl, rfl, rfl,
      rfl, rfl⟩
  | idUnreadable sized calibrates unread =>
    exact ⟨_, State.checks_fail (State.checks_calibrates n sized calibrates (by omega)) (by omega) (by omega)
      (by simp only [State.makeCheck, Marking.work, unread]), rfl, rfl, rfl, rfl, rfl⟩
  | paperUnreadable id sized calibrates read unread =>
    exact ⟨_, State.checks_fail (State.checks_id n sized calibrates read (by omega)) (by omega) (by omega)
      (by simp only [State.makeCheck, Marking.work, unread]), rfl, rfl, rfl, rfl, rfl⟩
  | noChannel id paper reads none =>
    exact ⟨_, State.checks_noChannel n reads (by omega) none, rfl, rfl, rfl, rfl, rfl⟩
  | wrongForm id paper c resolves wrong =>
    exact ⟨_, State.checks_fail (State.checks_resolves n resolves (by omega)) (by omega) (by omega) (if_neg wrong), rfl, rfl,
      rfl, rfl, rfl⟩
  | notOnRoster id paper c resolves form absent =>
    exact ⟨_, State.checks_fail (State.checks_form n resolves form (by omega)) (by omega) (by omega)
      (by simp only [State.makeCheck, Marking.work, Option.getD_some, absent]), rfl, rfl, rfl, rfl, rfl⟩
  | channelClosed id paper c k e finds closed =>
    exact ⟨_, State.checks_fail (State.checks_finds n finds (by omega)) (by omega) (by omega) (if_pos closed), rfl, rfl, rfl,
      rfl, rfl⟩
  | notCollected id paper c k e finds open' uncollected =>
    exact ⟨_, State.checks_fail (State.checks_open n finds open' (by omega)) (by omega) (by omega)
      ((State.makeCheck_collected n rises 10 finds.2.2).trans (if_neg uncollected)), rfl, rfl, rfl, rfl, rfl⟩
  | duplicateSheet id paper c k e finds open' collected marked =>
    exact ⟨_, State.checks_fail (State.checks_collected n rises finds open' collected (by omega)) (by omega) (by omega)
      ((State.makeCheck_unmarked n rises 11 finds.2.2).trans (if_neg marked)), rfl, rfl, rfl, rfl, rfl⟩
  | logFull id paper c k e finds open' collected unmarked free full =>
    exact ⟨_, (State.checks_keyed n rises finds open' collected unmarked free (by omega)).trans
      (State.checksFrom_fail (n := 13) rfl rfl (by omega) (fun last => absurd last (by omega)) (by omega) (if_neg (Nat.not_lt_of_le full))), rfl, rfl, rfl, rfl, rfl⟩

/-! ## The record placed -/

theorem State.log_placeRecord (s : State) (r : ResultRecord) : (s.placeRecord r).log = s.log.place r s.time.hallTime := by
  have high (u : State) : u.highTest.log = u.log := by unfold State.highTest; split <;> simp
  have band (u : State) : (u.countBand r).log = u.log := by unfold State.countBand; split <;> rfl
  rw [State.placeRecord, high, band]; rfl

theorem State.log_fullReject (s : State) (sheet : Nat) : (s.fullReject sheet).log = { s.log with armed := false } := by
  unfold State.fullReject
  split
  · rfl
  · next disarmed => rw [← Bool.eq_false_iff.2 disarmed]

theorem State.chan_highTest (s : State) (c : Nat) : s.highTest.chan c = s.chan c := by
  unfold State.highTest; split <;> rfl

/-- A record placed counts one more in its band of its channel's histogram, and changes no other field of a channel. -/
theorem State.chan_countBand (s : State) (r : ResultRecord) (c : Nat) :
    (∃ h, (s.countBand r).chan c = { s.chan c with histogram := h }) ∧
      (r.channel ≠ some c ∨ r.score = none → (s.countBand r).chan c = s.chan c) ∧
      ∀ x, r.channel = some c → r.score = some x → ((s.countBand r).chan c).histogram =
        tabSet 0 (s.chan c).histogram (bandOf x.perMille) (satUp 65535 (tabGet 0 (s.chan c).histogram (bandOf x.perMille))) := by
  unfold State.countBand
  split
  · next d x channel score =>
    by_cases own : d = c
    · subst own; simp [channel, score]
    · exact ⟨⟨_, by simp [own]; rfl⟩, fun _ => by simp [own], fun x' channel' _ =>
        absurd (Option.some.inj (channel.symm.trans channel')) own⟩
  · next none => exact ⟨⟨_, rfl⟩, fun _ => rfl, fun x channel score => absurd score (none c x channel)⟩

theorem State.entry_placeRecord (s : State) (r : ResultRecord) (k : Nat) : (s.placeRecord r).entry k = s.entry k := by
  have roster : (s.placeRecord r).roster = s.roster := (Moves.placeRecord s r).frame.2 .roster (by decide)
  rw [State.entry, roster]; rfl

theorem State.intake_logSheet (s : State) (r : ResultRecord) : (s.logSheet r).intake = s.intake := by
  have high (u : State) : u.highTest.intake = u.intake := by unfold State.highTest; split <;> rfl
  have band (u : State) : (u.countBand r).intake = u.intake := by unfold State.countBand; split <;> rfl
  unfold State.logSheet
  split
  · unfold State.fullReject; split <;> rfl
  · rw [State.placeRecord, high, band]; rfl

section
variable (s : State) (m : Marking) (x : Status)

theorem State.intake_setResult : (s.setResult m x).intake = s.intake := by unfold State.setResult; split <;> simp

theorem State.log_setResult : (s.setResult m x).log = s.log := by unfold State.setResult; split <;> simp

theorem State.chan_setResult (c : Nat) : (s.setResult m x).chan c = s.chan c := by unfold State.setResult; split <;> simp

theorem State.setResult_other (h : x ≠ .scored) (h' : x ≠ .referred) : s.setResult m x = s := by
  unfold State.setResult
  split
  · exact absurd rfl h
  · exact absurd rfl h'
  · rfl

end

theorem State.chan_takeSheet (s : State) (c : Nat) : s.takeSheet.chan c = s.chan c := rfl

theorem State.entry_takeSheet (s : State) (k : Nat) : s.takeSheet.entry k = s.entry k := rfl

theorem State.office_takeSheet (s : State) : s.takeSheet.office = s.office := rfl

/-! ## The stages of a completion (R144) -/

section
variable (s : State) (m : Marking)

/-- The part once the result of the work `m` is set and its record placed or turned away. -/
def State.entered : State :=
  let u := s.intake.slot m.slot
  let x := s.outcome u m
  (s.setResult m x.1).logSheet (s.recordOf u m x (decide (u.deadline < u.age)))

/-- The intake with the sheet's slot EMPTY and its verdict queued. -/
def Intake.vacated (t : Intake) (slot sheet : Nat) (late : Bool) (x : Status) : Intake :=
  { t.onSlot slot fun _ => Slot.blank with
    verdicts := t.verdicts ++ [⟨sheet, x.verdict, x, late, false⟩]
    marking := none
    stats := t.stats.complete late x }

/-- The part once the slot is EMPTY, the verdict queued and a waiting commit begun. -/
def State.vacated : State :=
  let u := s.intake.slot m.slot
  let t := (s.entered m).onIntake fun t => t.vacated m.slot u.sheet (decide (u.deadline < u.age)) (s.outcome u m).1
  match m.channel with
  | some c => t.beginCommit c
  | none => t

theorem State.intake_entered : (s.entered m).intake = s.intake := by
  rw [State.entered, State.intake_logSheet, State.intake_setResult]

theorem State.completeSheet_eq : s.completeSheet m = (s.vacated m).testGates.takeSheet := by
  unfold State.completeSheet State.vacated
  cases m.channel <;> rfl

theorem State.intake_vacated : (s.vacated m).intake = s.intake.vacated m.slot (s.intake.slot m.slot).sheet
    (decide ((s.intake.slot m.slot).deadline < (s.intake.slot m.slot).age)) (s.outcome (s.intake.slot m.slot) m).1 := by
  have begun (t : State) (c : Nat) : (t.beginCommit c).intake = t.intake := by unfold State.beginCommit; split <;> rfl
  unfold State.vacated
  dsimp only
  split
  · rw [begun, State.onIntake_intake, State.intake_entered]
  · rw [State.onIntake_intake, State.intake_entered]

theorem State.intake_testGates : s.testGates.intake = s.intake :=
  foldl_keeps State.intake State.testGate (fun t c => by
    unfold State.testGate
    split
    · exact foldl_keeps State.intake State.freeSlot (fun _ _ => rfl) _ t
    · rfl) _ s

theorem State.intake_completeSheet : (s.completeSheet m).intake =
    (s.intake.vacated m.slot (s.intake.slot m.slot).sheet
      (decide ((s.intake.slot m.slot).deadline < (s.intake.slot m.slot).age)) (s.outcome (s.intake.slot m.slot) m).1).take (s.vacated m).testGates.forms := by
  rw [State.completeSheet_eq, State.takeSheet, State.onIntake_intake, State.intake_testGates, State.intake_vacated]

theorem Intake.slot_take_other {t : Intake} (fs : PMap Form) {n : Nat} (away : n ∉ t.arrivals) :
    (t.take fs).slot n = t.slot n := by
  unfold Intake.take
  split
  · next k rest _ first =>
    have other : k ≠ n := fun same => away (first ▸ same ▸ List.mem_cons_self)
    simp [Intake.slot, Intake.onSlot, other]
  · rfl

/-- The sheet port after a completion: the verdict queued, the slot EMPTY, the counts (R144, R145, R147). -/
theorem State.sheet_completed (away : m.slot ∉ s.intake.arrivals) :
    let u := s.intake.slot m.slot
    let x := (s.outcome u m).1
    let late := decide (u.deadline < u.age)
    let t := (s.completeSheet m).intake
    t.verdicts = s.intake.verdicts ++ [⟨u.sheet, x.verdict, x, late, false⟩] ∧ t.slot m.slot = Slot.blank ∧
      t.stats = s.intake.stats.complete late x := by
  dsimp only
  rw [State.intake_completeSheet, Intake.take_verdicts, Intake.take_stats]
  refine ⟨rfl, ?_, rfl⟩
  rw [Intake.slot_take_other _ (by exact away)]
  simp [Intake.vacated, Intake.slot, Intake.onSlot]

theorem State.log_completeSheet : (s.completeSheet m).log = (s.entered m).log := by
  have begun (t : State) (c : Nat) : (t.beginCommit c).log = t.log := by unfold State.beginCommit; split <;> rfl
  have vacated : (s.vacated m).log = (s.entered m).log := by
    unfold State.vacated
    dsimp only
    split
    · exact begun _ _
    · rfl
  have gates : (s.vacated m).testGates.log = (s.vacated m).log := (Moves.testGates _).frame.2 .log (by decide)
  rw [State.completeSheet_eq, State.takeSheet, State.onIntake_log, gates, vacated]

theorem State.log_entered (placed : (s.outcome (s.intake.slot m.slot) m).1 ≠ .logFull) :
    (s.entered m).log = s.log.place (s.recordOf (s.intake.slot m.slot) m (s.outcome (s.intake.slot m.slot) m)
      (decide ((s.intake.slot m.slot).deadline < (s.intake.slot m.slot).age))) s.time.hallTime := by
  have time : ∀ x, (s.setResult m x).time = s.time := fun x => by unfold State.setResult; split <;> simp
  unfold State.entered State.logSheet
  dsimp only
  rw [if_neg (by exact placed), State.log_placeRecord, State.log_setResult, time]

theorem State.log_entered_full (full : (s.outcome (s.intake.slot m.slot) m).1 = .logFull) :
    (s.entered m).log = { s.log with armed := false } := by
  unfold State.entered State.logSheet
  dsimp only
  rw [if_pos (by exact full), State.log_fullReject, State.log_setResult]

/-- No field of a channel but its histogram changes with the record, and that only with a score. -/
theorem State.chan_entered (c : Nat) :
    (∃ h, (s.entered m).chan c = { s.chan c with histogram := h }) ∧
      ((s.outcome (s.intake.slot m.slot) m).2 = none → (s.entered m).chan c = s.chan c) := by
  have full (t : State) (n : Nat) : (t.fullReject n).chan c = t.chan c := by unfold State.fullReject; split <;> rfl
  unfold State.entered State.logSheet
  dsimp only
  split
  · rw [full, State.chan_setResult]; exact ⟨⟨_, rfl⟩, fun _ => rfl⟩
  · obtain ⟨same, unscored, -⟩ := State.chan_countBand ((s.setResult m (s.outcome (s.intake.slot m.slot) m).1).onLog
      fun g => g.place (s.recordOf (s.intake.slot m.slot) m (s.outcome (s.intake.slot m.slot) m)
        (decide ((s.intake.slot m.slot).deadline < (s.intake.slot m.slot).age)))
        (s.setResult m (s.outcome (s.intake.slot m.slot) m).1).time.hallTime)
      (s.recordOf (s.intake.slot m.slot) m (s.outcome (s.intake.slot m.slot) m)
        (decide ((s.intake.slot m.slot).deadline < (s.intake.slot m.slot).age))) c
    rw [State.chan_onLog, State.chan_setResult] at same unscored
    rw [State.placeRecord, State.chan_highTest]
    exact ⟨same, fun none => unscored (.inr none)⟩

theorem State.histogram_entered {c : Nat} {y : Score} (placed : (s.outcome (s.intake.slot m.slot) m).1 ≠ .logFull)
    (channel : m.channel = some c) (score : (s.outcome (s.intake.slot m.slot) m).2 = some y) :
    ((s.entered m).chan c).histogram = tabSet 0 (s.chan c).histogram (bandOf y.perMille)
      (satUp 65535 (tabGet 0 (s.chan c).histogram (bandOf y.perMille))) := by
  have unchanged (x : Status) (g : ResultLog → ResultLog) : ((s.setResult m x).onLog g).chan c = s.chan c := by
    rw [State.chan_onLog, State.chan_setResult]
  unfold State.entered State.logSheet
  dsimp only
  rw [if_neg (by exact placed), State.placeRecord, State.chan_highTest,
    (State.chan_countBand _ _ c).2.2 y channel score, unchanged]

theorem State.log_countBand (s : State) (r : ResultRecord) : (s.countBand r).log = s.log := by
  unfold State.countBand; split <;> rfl

theorem State.hall_countBand (s : State) (r : ResultRecord) : (s.countBand r).hall = s.hall := by
  unfold State.countBand; split <;> rfl

/-- LOG_HIGH is raised when the record brings the log to its high mark (R170, step 5). -/
theorem State.logHigh_placeRecord (s : State) (r : ResultRecord) (high : s.log.records.length + 1 = s.hall.highMark) :
    Category.logHigh ∈ (s.placeRecord r).office.flags := by
  rw [State.placeRecord, State.highTest, if_pos]
  · exact State.flag_notify _ (.logHigh _ _)
  · rw [State.log_countBand, State.hall_countBand, State.onLog_hall, ← high]
    simp [ResultLog.place]

theorem State.logHigh_entered (placed : (s.outcome (s.intake.slot m.slot) m).1 ≠ .logFull)
    (high : s.log.records.length + 1 = s.hall.highMark) : Category.logHigh ∈ (s.entered m).office.flags := by
  have hall : ∀ x, (s.setResult m x).hall = s.hall := fun x => by unfold State.setResult; split <;> simp
  unfold State.entered State.logSheet
  dsimp only
  rw [if_neg (by exact placed)]
  refine State.logHigh_placeRecord _ _ ?_
  rw [State.log_setResult, hall, high]

/-- The entries after the record is placed are those with the result set. -/
theorem State.entry_entered (k : Nat) :
    (s.entered m).entry k = (s.setResult m (s.outcome (s.intake.slot m.slot) m).1).entry k := by
  have full (t : State) (n : Nat) : (t.fullReject n).entry k = t.entry k := by unfold State.fullReject; split <;> rfl
  unfold State.entered State.logSheet
  dsimp only
  split
  · rw [full]
  · rw [State.entry_placeRecord]

theorem State.entry_vacated (k : Nat) : (s.vacated m).entry k = (s.entered m).entry k := by
  have begun (t : State) (c : Nat) : (t.beginCommit c).entry k = t.entry k := by unfold State.beginCommit; split <;> rfl
  unfold State.vacated
  dsimp only
  split
  · rw [begun]; rfl
  · rfl

theorem Moves.vacated :
    Moves [.log, .intake, .channels, .roster, .booklets, .seats, .flags, .notices] s (s.vacated m) := by
  have entered : Moves [.log, .intake, .channels, .roster, .booklets, .seats, .flags, .notices] s (s.entered m) :=
    ((Moves.setResult s m _).widen).next (.logSheet _ _)
  have emptied := fun late x => entered.next (.onIntake (s.entered m)
    (fun t => t.vacated m.slot (s.intake.slot m.slot).sheet late x)
    fun h => by unfold Intake.vacated; dsimp only; exact Intake.canon_onSlot _ _ h)
  unfold State.vacated
  dsimp only
  split
  · exact (emptied _ _).next (.beginCommit _ _)
  · exact emptied _ _

theorem State.chan_beginCommit (c d : Nat) : (s.beginCommit c).chan d =
    if c = d ∧ (s.chan d).stage = .pending then { s.chan d with stage := .running 0 } else s.chan d := by
  unfold State.beginCommit
  by_cases own : c = d
  · subst own
    by_cases waits : (s.chan c).stage = .pending <;> simp [waits]
  · split <;> simp [own]

theorem State.chan_vacated (c : Nat) : (s.vacated m).chan c =
    if m.channel = some c ∧ ((s.entered m).chan c).stage = .pending
    then { (s.entered m).chan c with stage := .running 0 } else (s.entered m).chan c := by
  unfold State.vacated
  dsimp only
  split
  · next d found => rw [State.chan_beginCommit]; simp only [found, Option.some.injEq]; rfl
  · next none => rw [if_neg (by simp [none])]; rfl

/-- A channel that no gate frees is, after the completion, as the vacated slot left it. -/
theorem State.chan_completeSheet {c : Nat} (stays : ((s.vacated m).chan c).state ≠ .releasing ∨ (s.vacated m).gateOpen c = false) :
    (s.completeSheet m).chan c = (s.vacated m).chan c := by
  rw [State.completeSheet_eq, State.chan_takeSheet]
  exact State.chan_testGates_stays (s := s.vacated m) fun opens => by
    rcases stays with other | shut
    · exact other opens.1
    · simp [shut] at opens

theorem State.raised_completeSheet {x : Category} (h : x ∈ (s.entered m).office.flags) :
    x ∈ (s.completeSheet m).office.flags := by
  have begun (t : State) (c : Nat) : (t.beginCommit c).office = t.office := by unfold State.beginCommit; split <;> rfl
  have vacated : (s.vacated m).office = (s.entered m).office := by
    unfold State.vacated
    dsimp only
    split
    · exact begun _ _
    · rfl
  rw [State.completeSheet_eq, State.office_takeSheet]
  exact (Moves.testGates (s.vacated m)).raised x (vacated ▸ h)

end

end Sys2Proof.Machine
end

section
/-! PROOF. SHEET_COMPLETION, outcome by outcome: O34. -/

namespace Sys2Proof.Machine

set_option Elab.async false

/-! ## The part once the last checks are made -/

/-- The part with the work come to `r`, its channel set in the slot. -/
def State.worked (s : State) (r : Marking) : State :=
  s.onIntake fun t => { t.onSlot r.slot fun u => { u with resolved := r.channel } with marking := some r }

section
variable (s : State) (r : Marking)

theorem State.slot_worked :
    (s.worked r).intake.slot r.slot = { s.intake.slot r.slot with resolved := r.channel } := by
  simp [State.worked, Intake.slot, Intake.onSlot]

/-- The status and score of the work `r` on its sheet. -/
def State.ends : Status × Option Score := s.outcome (s.intake.slot r.slot) r

/-- The sheet of the work `r` is late. -/
def State.isLate : Bool := decide ((s.intake.slot r.slot).deadline < (s.intake.slot r.slot).age)

theorem State.outcome_worked : (s.worked r).outcome ((s.worked r).intake.slot r.slot) r = s.ends r := by
  rw [State.slot_worked]; rfl

theorem State.late_worked : decide (((s.worked r).intake.slot r.slot).deadline < ((s.worked r).intake.slot r.slot).age) =
    s.isLate r := by
  rw [State.slot_worked]; rfl

theorem State.recordOf_worked (x : Status × Option Score) (late : Bool) :
    (s.worked r).recordOf ((s.worked r).intake.slot r.slot) r x late = s.recordOf (s.intake.slot r.slot) r x late := by
  rw [State.slot_worked]; rfl

/-- What the completion leaves, before what follows at once. -/
def State.completed : State := (s.worked r).completeSheet r

variable {s r} in
theorem exec_sheetCompletion {m : Marking} (marking : s.intake.marking = some m) (checked : s.checked 14 m = r)
    (slot : r.slot = m.slot) (done : r.failed.isSome = true ∨ r.made = 14) :
    exec .sheetCompletion s = .next (s.completed r).settle := by
  have worked : s.advance 14 = s.worked r := by
    rw [State.advance_of_working marking, checked, State.worked, slot]
  have completes : s.complete = s.completed r := by
    rw [State.complete, worked]
    exact if_pos done
  exact congrArg (fun t : State => Host.Outcome.next t.settle) completes

theorem State.completed_sheet (away : r.slot ∉ s.intake.arrivals) :
    (s.completed r).settle.intake.verdicts = s.intake.verdicts ++
        [⟨(s.intake.slot r.slot).sheet, (s.ends r).1.verdict, (s.ends r).1, s.isLate r, false⟩] ∧
      (s.completed r).settle.intake.slot r.slot = Slot.blank ∧
      (s.completed r).settle.intake.stats = s.intake.stats.complete (s.isLate r) (s.ends r).1 := by
  obtain ⟨verdicts, slot, stats⟩ := State.sheet_completed (s.worked r) r away
  rw [State.outcome_worked, State.late_worked] at verdicts stats
  rw [State.settle_verdicts, State.settle_slot, State.settle_sheetStats]
  exact ⟨verdicts.trans (by rw [State.slot_worked]; rfl), slot, stats⟩

variable {s r} in
theorem State.completed_log (placed : (s.ends r).1 ≠ .logFull) : (s.completed r).settle.log =
    s.log.place (s.recordOf (s.intake.slot r.slot) r (s.ends r) (s.isLate r)) s.time.hallTime := by
  have log := State.log_entered (s.worked r) r (by rw [State.outcome_worked]; exact placed)
  rw [State.outcome_worked, State.late_worked, State.recordOf_worked] at log
  rw [State.settle_log, State.completed, State.log_completeSheet, log]
  rfl

variable {s r} in
theorem State.completed_full (full : (s.ends r).1 = .logFull) : (s.completed r).settle.log = { s.log with armed := false } ∧
    (s.log.armed = true → Category.logFull ∈ (s.completed r).settle.office.flags) := by
  have full' : ((s.worked r).outcome ((s.worked r).intake.slot r.slot) r).1 = .logFull := by
    rw [State.outcome_worked]; exact full
  refine ⟨?_, fun armed => State.settle_raised _ (State.raised_completeSheet _ r ?_)⟩
  · rw [State.settle_log, State.completed, State.log_completeSheet, State.log_entered_full _ r full']; rfl
  · have unset : ∀ x, ((s.worked r).setResult r x).log.armed = true := fun x => by
      rw [State.log_setResult]; exact armed
    rw [State.entered, State.logSheet, if_pos (by exact full'), State.fullReject, if_pos (unset _)]
    exact State.flag_notify _ (.logFull _ _)

/-- The channel as the record and a waiting commit leave it. -/
theorem State.chan_worked (c : Nat) : ∃ h, ((s.worked r).vacated r).chan c = { s.chan c with
    histogram := h
    stage := if r.channel = some c ∧ (s.chan c).stage = .pending then .running 0 else (s.chan c).stage } := by
  obtain ⟨⟨h, entered⟩, -⟩ := State.chan_entered (s.worked r) r c
  refine ⟨h, ?_⟩
  have same : (s.worked r).chan c = s.chan c := rfl
  rw [State.chan_vacated, entered, same]
  by_cases waits : r.channel = some c ∧ (s.chan c).stage = .pending <;> simp [waits]

variable {s r} in
theorem State.gate_worked {c : Nat} (channel : r.channel = some c) (placed : (s.ends r).1 ≠ .logFull) :
    ((s.worked r).vacated r).gateOpen c = false := by
  have log := State.log_entered (s.worked r) r (by rw [State.outcome_worked]; exact placed)
  have vacated : ((s.worked r).vacated r).log = ((s.worked r).entered r).log := by
    unfold State.vacated State.beginCommit
    dsimp only
    split
    · split <;> rfl
    · rfl
  refine Bool.eq_false_iff.2 fun opens => ?_
  rw [State.gateOpen_eq, vacated, log] at opens
  exact opens.1 _ (List.mem_append_right _ (List.mem_singleton.2 rfl)) channel

variable {s r} in
/-- The channel of the sheet after its completion, unless its gate frees it. -/
theorem State.chan_completed {c : Nat} (stays : (s.chan c).state ≠ .releasing ∨ (r.channel = some c ∧ (s.ends r).1 ≠ .logFull)) :
    (s.completed r).settle.chan c = ((s.worked r).vacated r).chan c := by
  rw [State.settle_chan]
  refine State.chan_completeSheet _ r (stays.imp (fun other => ?_) fun ⟨channel, placed⟩ => State.gate_worked channel placed)
  obtain ⟨h, same⟩ := State.chan_worked s r c
  rw [same]
  exact other

variable {s r} in
theorem State.stage_completed {c : Nat} (stays : (s.chan c).state ≠ .releasing ∨ (r.channel = some c ∧ (s.ends r).1 ≠ .logFull)) :
    ((s.completed r).settle.chan c).stage =
      if r.channel = some c ∧ (s.chan c).stage = .pending then .running 0 else (s.chan c).stage := by
  obtain ⟨h, same⟩ := State.chan_worked s r c
  rw [State.chan_completed stays, same]

end

/-! ## What a completion does, by the state in which the work ends -/

theorem State.ends_of_failed {s : State} {r : Marking} {x : Status} (failed : r.failed = some x) : s.ends r = (x, none) := by
  rw [State.ends, State.outcome, failed]

theorem State.ends_of_working {s : State} {r : Marking} (working : r.failed = none) :
    (s.ends r).1 = .scored ∨ (s.ends r).1 = .referred := by
  rw [State.ends, State.outcome, working]
  dsimp only
  unfold referral
  split
  · exact .inr rfl
  · exact .inl rfl

/-- Work that will place a record is done, and its last checks change nothing. -/
theorem State.willPlace_done {s : State} {m : Marking} (will : m.willPlace = true) :
    (m.failed.isSome = true ∨ m.made = 14) ∧ s.checked 14 m = m ∧ (s.ends m).1 ≠ .logFull := by
  cases failed : m.failed with
  | none =>
    have made := (Marking.willPlace_of_working failed).1 will
    refine ⟨.inr made, State.checksFrom_done 0 (.inr (by omega)), ?_⟩
    rcases State.ends_of_working (s := s) failed with scored | referred
    · rw [scored]; nofun
    · rw [referred]; nofun
  | some x =>
    refine ⟨.inl rfl, State.checksFrom_done 0 (.inl (by rw [failed]; rfl)), ?_⟩
    rw [State.ends_of_failed failed]
    exact (Marking.willPlace_of_failed failed).1 will

theorem completion_of_done {m : Marking} {s : State} (marking : s.intake.marking = some m) (will : m.willPlace = true)
    (away : m.slot ∉ s.intake.arrivals) :
    let u := s.intake.slot m.slot
    let x := s.outcome u m
    let late := decide (u.deadline < u.age)
    (m.failed = none → x.1 = .scored ∨ x.1 = .referred) ∧
    ∃ t, exec .sheetCompletion s = .next t ∧
      t.log.records = s.log.records ++ [{ s.recordOf u m x late with number := s.log.next, time := s.time.hallTime }] ∧
      t.log.next = min 4294967295 (s.log.next + 1) ∧
      t.intake.verdicts = s.intake.verdicts ++ [⟨u.sheet, x.1.verdict, x.1, late, false⟩] ∧
      t.intake.slot m.slot = Slot.blank ∧
      (∀ c, m.channel = some c → (s.chan c).stage = .pending → (t.chan c).stage = .running 0) ∧
      t.pending = s.pending ∧ t.time = s.time ∧ t.hall = s.hall ∧ t.forms = s.forms ∧
      t.profiles = s.profiles ∧ t.office.responses = s.office.responses := by
  obtain ⟨done, checked, placed⟩ := State.willPlace_done (s := s) will
  obtain ⟨verdicts, slot, -⟩ := State.completed_sheet s m away
  have log := State.completed_log placed
  have run := exec_sheetCompletion marking checked rfl done
  have frame : Unchanged [.log, .intake, .channels, .roster, .booklets, .seats, .flags, .notices] s (s.completed m).settle := by
    have same : s.complete.settle = (s.completed m).settle := Host.Outcome.next.inj (Eq.trans rfl run)
    exact same ▸ (Moves.complete s).frame.settle
  refine ⟨State.ends_of_working, _, run, by rw [log]; rfl, by rw [log]; rfl, verdicts, slot, fun c channel waits => ?_,
    frame.1, frame.2 .time (by decide), frame.2 .hall (by decide), frame.2 .forms (by decide),
    frame.2 .profiles (by decide), frame.2 .responses (by decide)⟩
  rw [State.stage_completed (.inr ⟨channel, placed⟩), if_pos ⟨channel, waits⟩]

/-- The work of a sheet that passes every check (R159). -/
theorem State.checks_passed {s : State} {u : Slot} {f : Form} (n : Nat) {id paper c k : Nat} {e : Entry}
    (rises : mapRises 0 s.roster = true) (finds : s.finds u f id paper c k e) (open' : (s.chan c).state ≠ .releasing)
    (collected : e.state = .collected) (unmarked : e.result = .none) (free : ∀ j, (s.chan c).stage ≠ .running j)
    (room : s.log.records.length < 256) : s.checksFrom u 14 0 (.take n f) = s.keyed n f 14 id paper c k := by
  rw [State.checks_keyed n rises finds open' collected unmarked free (by omega),
    State.checksFrom_pass (n := 13) rfl rfl (by omega) (fun last => absurd last (by omega)) (by omega) (if_pos room)]
  exact State.checksFrom_done 14 (.inr (Nat.le_refl 14))

/-- The frame of a completion, gates not yet tested. -/
theorem State.vacated_canonical {s : State} {r : Marking} (canonical : s.canonical = true) :
    ((s.worked r).vacated r).canonical = true :=
  (Moves.vacated (s.worked r) r).canonical ((Moves.onIntake s _ fun h => by
    dsimp only; exact Intake.canon_onSlot _ _ h).canonical canonical)

theorem State.entry_completed {s : State} {r : Marking} (k : Nat) :
    (s.completed r).settle.entry k = ((s.worked r).vacated r).testGates.entry k := by
  rw [State.settle_entry, State.completed, State.completeSheet_eq, State.entry_takeSheet]

theorem State.entry_vacated_worked {s : State} {r : Marking} (k : Nat) :
    ((s.worked r).vacated r).entry k = ((s.worked r).setResult r (s.ends r).1).entry k := by
  rw [State.entry_vacated, State.entry_entered, State.outcome_worked]

/-- The result status that a scored sheet writes into the entry (R161). -/
theorem State.entry_setResult {s : State} {r : Marking} {k : Nat} {e : Entry} (found : s.entry k = some e)
    (slot : r.entry = some k) (referred : Bool) :
    (s.setResult r (if referred then .referred else .scored)).entry k =
      some { e with result := if referred then .referred else .scored } := by
  cases referred <;> simp [State.setResult, slot, found]

theorem completion_of_passing {n id paper c k : Nat} {f : Form} {e : Entry} {s : State}
    (marking : s.intake.marking = some (Marking.take n f)) (away : n ∉ s.intake.arrivals) (canonical : s.canonical = true)
    (finds : s.finds (s.intake.slot n) f id paper c k e) (open' : (s.chan c).state ≠ .releasing)
    (collected : e.state = .collected) (unmarked : e.result = .none) (free : ∀ j, (s.chan c).stage ≠ .running j)
    (room : s.log.records.length < 256) :
    let u := s.intake.slot n
    let p := s.profile (s.chan c).config.profile
    let late := decide (u.deadline < u.age)
    let x := (tallySheet p ((s.chan c).bank (s.chan c).active) f.questions f.options (u.darks.drop 120)).finish
      (s.chan c).generation
    let referred := decide (0 < p.refer ∧ p.refer ≤ x.unclear)
    let status := if referred then Status.referred else .scored
    let verdict := if referred then Verdict.review else .accept
    ∃ t, exec .sheetCompletion s = .next t ∧
      t.log.records = s.log.records ++ [⟨s.log.next, u.sheet, s.time.hallTime, verdict, status, late, some c, some id,
        some k, e.lastSeat, some x⟩] ∧
      t.log.next = min 4294967295 (s.log.next + 1) ∧
      t.intake.verdicts = s.intake.verdicts ++ [⟨u.sheet, verdict, status, late, false⟩] ∧
      t.intake.slot n = Slot.blank ∧ t.entry k = some { e with result := if referred then .referred else .scored } ∧
      (∀ b, tabGet 0 (t.chan c).histogram b = if b = min 19 (x.perMille / 50)
        then satUp 65535 (tabGet 0 (s.chan c).histogram b) else tabGet 0 (s.chan c).histogram b) ∧
      (t.chan c).stage = (if (s.chan c).stage = .pending then .running 0 else (s.chan c).stage) ∧
      (s.log.records.length + 1 = s.hall.highMark → Category.logHigh ∈ t.office.flags) := by
  intro u p late x referred status verdict
  have rises := State.roster_rises canonical
  obtain ⟨stands, -, own⟩ := State.channelLookup_some rises finds.2.2
  obtain ⟨r, hr⟩ : ∃ r, r = s.keyed n f 14 id paper c k := ⟨_, rfl⟩
  have slot : r.slot = n := by rw [hr]; rfl
  have channel : r.channel = some c := by rw [hr]; rfl
  have entry : r.entry = some k := by rw [hr]; rfl
  have checked : s.checked 14 (Marking.take n f) = r :=
    (State.checks_passed n rises finds open' collected unmarked free room).trans hr.symm
  have ends : s.ends r = (status, some x) := by
    have score : s.ends r = (referral p.refer x.unclear, some x) := by rw [hr]; rfl
    rw [score, referral]
    by_cases h : 0 < p.refer ∧ p.refer ≤ x.unclear <;> simp [status, referred, h]
  have verdict_eq : (s.ends r).1.verdict = verdict := by
    rw [ends]
    show (if referred then Status.referred else .scored).verdict = if referred then Verdict.review else .accept
    split <;> rfl
  have placed : (s.ends r).1 ≠ .logFull := by
    rw [ends]
    show (if referred then Status.referred else .scored) ≠ .logFull
    split <;> nofun
  have run := exec_sheetCompletion marking checked slot (.inr (by rw [hr]; rfl))
  have log := State.completed_log placed
  have record : { s.recordOf (s.intake.slot r.slot) r (s.ends r) (s.isLate r) with
      number := s.log.next, time := s.time.hallTime } = (⟨s.log.next, u.sheet, s.time.hallTime, verdict, status, late, some c,
        some id, some k, e.lastSeat, some x⟩ : ResultRecord) := by
    have seat : (s.markedEntry r).bind Entry.lastSeat = e.lastSeat := by rw [State.markedEntry, entry, Option.bind_some, stands]; rfl
    rw [State.recordOf, seat, verdict_eq, ends, channel, entry, State.isLate, slot, hr]
    rfl
  obtain ⟨verdicts, empty, -⟩ := State.completed_sheet s r (slot.symm ▸ away)
  have stays : (s.chan c).state ≠ .releasing ∨ (r.channel = some c ∧ (s.ends r).1 ≠ .logFull) := .inl open'
  refine ⟨_, run, ?_, ?_, ?_, slot ▸ empty, ?_, fun b => ?_, ?_, fun high => ?_⟩
  · rw [log, ← record]; rfl
  · rw [log]; rfl
  · rw [verdicts, verdict_eq, ends, State.isLate, slot]
  · rw [State.entry_completed]
    refine State.entry_testGates_stays (State.vacated_canonical canonical) ?_ ?_
    · rw [State.entry_vacated_worked, ends]
      exact State.entry_setResult (s := s.worked r) stands entry referred
    · obtain ⟨h, same⟩ := State.chan_worked s r c
      rw [show e.channel = c from own, same]
      exact fun opens => open' opens.1
  · have counted := State.histogram_entered (s.worked r) r (c := c) (y := x)
      (by rw [State.outcome_worked]; exact placed) channel (by rw [State.outcome_worked, ends])
    have vacated : (((s.worked r).vacated r).chan c).histogram = (((s.worked r).entered r).chan c).histogram := by
      rw [State.chan_vacated]; split <;> rfl
    rw [State.chan_completed stays, vacated, counted, tabGet_tabSet]
    by_cases band : bandOf x.perMille = b
    · subst band; exact (if_pos rfl).trans (if_pos rfl).symm
    · exact (if_neg band).trans (if_neg (Ne.symm band)).symm
  · rw [State.stage_completed stays]
    simp [channel]
  · exact State.settle_raised _ (State.raised_completeSheet _ r (State.logHigh_entered (s.worked r) r
      (by rw [State.outcome_worked]; exact placed) high))

/-- No failed check ends in a score. -/
theorem State.Rejects.unscored {s : State} {u : Slot} {f : Form} {x : Status} {id c k : Option Nat}
    (h : s.Rejects u f x id c k) : x ≠ .scored ∧ x ≠ .referred ∧ x.verdict = .reject ∧
      (x = .logFull → 256 ≤ s.log.records.length) := by
  cases h
  case logFull full => exact ⟨nofun, nofun, rfl, fun _ => full⟩
  all_goals exact ⟨nofun, nofun, rfl, nofun⟩

theorem completion_of_rejected {n : Nat} {f : Form} {x : Status} {id c k : Option Nat} {s : State}
    (marking : s.intake.marking = some (Marking.take n f)) (away : n ∉ s.intake.arrivals) (canonical : s.canonical = true)
    (rejects : s.Rejects (s.intake.slot n) f x id c k) :
    let u := s.intake.slot n
    let late := decide (u.deadline < u.age)
    let full := decide (256 ≤ s.log.records.length)
    let status := if full then Status.logFull else x
    let stats := s.intake.stats
    ∃ t, exec .sheetCompletion s = .next t ∧
      (if full then t.log = { s.log with armed := false } ∧ (s.log.armed = true → Category.logFull ∈ t.office.flags)
      else t.log.records = s.log.records ++ [⟨s.log.next, u.sheet, s.time.hallTime, .reject, x, late, c, id, k,
          (k.bind s.entry).bind Entry.lastSeat, none⟩] ∧
        t.log.next = min 4294967295 (s.log.next + 1)) ∧
      t.intake.verdicts = s.intake.verdicts ++ [⟨u.sheet, .reject, status, late, false⟩] ∧
      t.intake.slot n = Slot.blank ∧
      t.intake.stats = { stats with
        lateVerdicts := if late then statUp stats.lateVerdicts else stats.lateVerdicts
        logFull := if full then statUp stats.logFull else stats.logFull
        calFaults := if status = .calFault then statUp stats.calFaults else stats.calFaults } ∧
      (∀ j e, t.entry j = some e → s.entry j = some e) ∧ ∀ d, (t.chan d).histogram = (s.chan d).histogram := by
  intro u late full status stats
  obtain ⟨unscored, unreferred, reject, fills⟩ := rejects.unscored
  obtain ⟨r, checked, slot, failed, channel, candidate, entry⟩ := State.checks_rejects n (State.roster_rises canonical) rejects
  have status_eq : s.failure x = status := by
    show (if s.log.records.length < 256 then x else .logFull) = if full then .logFull else x
    by_cases room : s.log.records.length < 256
    · simp [full, room]
    · simp [full, room, Nat.le_of_not_lt room]
  have ends : s.ends r = (status, none) := by rw [State.ends_of_failed failed, status_eq]
  have is_full : status = .logFull ↔ full = true := by
    show (if full then Status.logFull else x) = .logFull ↔ _
    by_cases h : full = true
    · simp [h]
    · simp only [h]
      exact ⟨fun e => absurd (decide_eq_true (fills e)) h, nofun⟩
  have other : status ≠ .scored ∧ status ≠ .referred ∧ status.verdict = .reject := by
    show (if full then Status.logFull else x) ≠ .scored ∧ (if full then Status.logFull else x) ≠ .referred ∧
      (if full then Status.logFull else x).verdict = .reject
    split
    · exact ⟨nofun, nofun, rfl⟩
    · exact ⟨unscored, unreferred, reject⟩
  have run := exec_sheetCompletion marking checked slot (.inl (by rw [failed]; rfl))
  obtain ⟨verdicts, empty, counts⟩ := State.completed_sheet s r (slot.symm ▸ away)
  refine ⟨_, run, ?_, ?_, slot ▸ empty, ?_, fun j e he => ?_, fun d => ?_⟩
  · by_cases h : full = true
    · rw [if_pos h]
      exact State.completed_full (by rw [ends]; exact is_full.2 h)
    · rw [if_neg h]
      have placed : (s.ends r).1 ≠ .logFull := by rw [ends]; exact fun e => h (is_full.1 e)
      have same : status = x := if_neg h
      rw [State.completed_log placed]
      refine ⟨?_, rfl⟩
      rw [ResultLog.place, State.recordOf, State.markedEntry, entry, channel, candidate, ends, State.isLate, slot, ← same]
      simp only [other.2.2]
      rfl
  · rw [verdicts, ends, State.isLate, slot]
    simp only [other.2.2]
    rfl
  · rw [counts, ends, State.isLate, slot, SheetStats.complete]
    simp only [is_full]
    rfl
  · rw [State.entry_completed] at he
    have before := State.entry_of_testGates (State.vacated_canonical canonical) he
    rwa [State.entry_vacated_worked, ends, State.setResult_other _ _ _ other.1 other.2.1] at before
  · rw [State.settle_chan, State.completed, State.completeSheet_eq, State.chan_takeSheet, State.histogram_testGates,
      State.chan_vacated]
    have same := (State.chan_entered (s.worked r) r d).2 (by rw [State.outcome_worked, ends])
    rw [same]
    split <;> rfl

theorem completion_of_full {m : Marking} {s : State} (marking : s.intake.marking = some m) (away : m.slot ∉ s.intake.arrivals)
    (fails : m.failed = some .logFull ∨ (m.failed = none ∧ m.made = 0 ∧ (s.intake.slot m.slot).good = false ∧
      256 ≤ s.log.records.length)) :
    let u := s.intake.slot m.slot
    ∃ t, exec .sheetCompletion s = .next t ∧ t.log = { s.log with armed := false } ∧
      t.intake.verdicts = s.intake.verdicts ++ [⟨u.sheet, .reject, .logFull, decide (u.deadline < u.age), false⟩] ∧
      t.intake.stats.logFull = statUp s.intake.stats.logFull ∧ t.intake.slot m.slot = Slot.blank ∧
      (s.log.armed = true → Category.logFull ∈ t.office.flags) ∧
      ∀ c, m.channel = some c → (s.chan c).stage = .pending → (s.chan c).state ≠ .releasing →
        (t.chan c).stage = .running 0 := by
  obtain ⟨r, checked, slot, failed, channel⟩ : ∃ r, s.checked 14 m = r ∧ r.slot = m.slot ∧ r.failed = some .logFull ∧
      r.channel = m.channel := by
    rcases fails with failed | ⟨working, made, bad, full⟩
    · exact ⟨m, State.checksFrom_done 0 (.inl (by rw [failed]; rfl)), rfl, failed, rfl⟩
    · have fail : s.failure .badFrame = .logFull := if_neg (Nat.not_lt_of_le full)
      exact ⟨_, State.checksFrom_fail (n := 0) working made (by omega) nofun (by omega) (if_neg (by simp [bad])), rfl,
        congrArg some fail, rfl⟩
  have ends := State.ends_of_failed (s := s) failed
  have run := exec_sheetCompletion marking checked slot (.inl (by rw [failed]; rfl))
  obtain ⟨verdicts, empty, counts⟩ := State.completed_sheet s r (slot.symm ▸ away)
  obtain ⟨log, raised⟩ := State.completed_full (s := s) (r := r) (by rw [ends])
  refine ⟨_, run, log, ?_, ?_, slot ▸ empty, raised, fun c found waits other => ?_⟩
  · rw [verdicts, ends, State.isLate, slot]; rfl
  · rw [counts, ends]; rfl
  · rw [State.stage_completed (.inl other), if_pos ⟨channel.trans found, waits⟩]

/-- Settles O34: the work is done, passes its last checks, fails one of them, or fails with the log full. -/
theorem sheetCompletionPlacesTheRecord : Obligations.SheetCompletionPlacesTheRecord := by
  refine ⟨fun m s marking will away _ => completion_of_done marking will away, ?_, ?_, ?_⟩
  · intro n id paper c k f e s marking away canonical reads papers form found open' collected unmarked free room
    exact completion_of_passing marking away canonical ⟨⟨reads, papers⟩, form, found⟩ open' collected unmarked free room
  · intro n f x id c k s marking away canonical rejects
    exact completion_of_rejected marking away canonical rejects
  · intro m s marking away _ fails
    exact completion_of_full marking away fails

end Sys2Proof.Machine
end

section
/-! PROOF. The time base: edges, missing edges and the hold input: O5, O6, O7. -/

namespace Sys2Proof.Machine

set_option Elab.async false

/-! ## What a second tick and the judgements leave of the time base -/

theorem State.time_consume (s : State) (x : Consumer) : (s.consume x).time = s.time :=
  (Moves.consume s x).frame.2 .time (by decide)

theorem State.time_secondTick (s : State) (o : TickOrder) : (s.secondTick o).time = s.time.second :=
  foldl_keeps State.time State.consume State.time_consume _ _

/-- A second tick with `mid` within: hall time has advanced before it, and what it raises stands after. -/
theorem State.secondTickWith_mid (s : State) (o : TickOrder) (n : Nat) (mid : State → State) :
    ∃ u : State, u.time = s.time.second ∧ (s.secondTickWith o n mid).time = (mid u).time ∧
      ∀ x ∈ (mid u).office.flags, x ∈ (s.secondTickWith o n mid).office.flags :=
  ⟨((consumersOf o).take n).foldl State.consume (s.onTime TimeBase.second),
    foldl_keeps State.time State.consume State.time_consume _ _,
    foldl_keeps State.time State.consume State.time_consume _ _,
    (Moves.fold State.consume Moves.consume _ _).raised⟩

theorem State.time_goodEdge (s : State) (o : TickOrder) :
    (s.goodEdge o).time = if 500 ≤ s.time.divider then s.time.second else { s.time with divider := 0 } := by
  unfold State.goodEdge
  split
  · exact State.time_secondTick s o
  · rfl

theorem State.goodEdge_below {s : State} (below : s.time.divider < 500) (o : TickOrder) :
    s.goodEdge o = s.onTime fun b => { b with divider := 0 } := if_neg (by omega)

theorem TimeBase.second_eq (b : TimeBase) : b.second = { b with hallTime := nextHallTime b.hallTime, divider := 0 } := by
  rw [← TimeBase.second_hallTime]; rfl

theorem State.time_loseReference (s : State) (o : TickOrder) :
    (s.loseReference o).time = if s.time.refState = .good ∧ 1000 ≤ s.time.divider
      then { s.time with refState := .lost, good := 0, hallTime := nextHallTime s.time.hallTime, divider := 0 }
      else { s.time with refState := .lost, good := 0 } := by
  unfold State.loseReference
  dsimp only
  split
  · rw [State.time_secondTick, State.notify_time, TimeBase.second_eq]; rfl
  · rfl

theorem State.refLost_loseReference (s : State) (o : TickOrder) : Category.refLost ∈ (s.loseReference o).office.flags := by
  have raised := State.flag_notify (s.onTime fun b => { b with refState := .lost, good := 0 }) .refLost
  unfold State.loseReference
  dsimp only
  split
  · exact (Moves.secondTick _ o).raised _ raised
  · exact raised

theorem Moves.loseReference_below {s : State} (o : TickOrder) (h : ¬(s.time.refState = .good ∧ 1000 ≤ s.time.divider)) :
    Moves [.time, .flags, .notices] s (s.loseReference o) := by
  unfold State.loseReference
  dsimp only
  rw [if_neg h]
  exact ((Moves.onTime s _).widen).next (.notify _ _)

section
variable {s : State} (o : TickOrder)

theorem State.judgeBad_lost (lost : s.time.refState = .lost) : s.judgeBad o = s.onTime fun b => { b with good := 0 } := by
  rw [State.judgeBad, lost]

theorem State.judgeBad_counts (known : s.time.refState ≠ .lost) :
    s.judgeBad o = if 3 ≤ s.time.bad + 1 then (s.onTime fun b => { b with bad := b.bad + 1, good := 0 }).loseReference o
      else s.onTime fun b => { b with bad := b.bad + 1, good := 0 } := by
  unfold State.judgeBad
  split
  · next lost => exact absurd lost known
  · rfl

theorem State.judgeGood_lost (lost : s.time.refState = .lost) :
    s.judgeGood o = if 5 ≤ s.time.good + 1 then
        ((s.onTime fun b => { b with good := b.good + 1, refState := .good, bad := 0 }).notify .refBack).goodEdge o
      else s.onTime fun b => { b with good := b.good + 1 } := by
  rw [State.judgeGood, lost]; rfl

theorem State.judgeGood_known (known : s.time.refState ≠ .lost) :
    ∃ n, s.judgeGood o = (s.onTime fun b => { b with refState := .good, bad := 0, good := n }).goodEdge o := by
  unfold State.judgeGood
  split
  · exact ⟨s.time.good + 1, rfl⟩
  · next good => exact ⟨s.time.good, by rw [State.onTime, State.onTime, good]⟩
  · next lost => exact absurd lost known

end

/-! ## Edges -/

/-- The time base when an edge closes the period `p`, before it is judged (R20). -/
def TimeBase.closing (b : TimeBase) (n p : Nat) : TimeBase :=
  { b with prescaler := b.prescaler + n, openPeriod := some 0, missingTimer := 0, lastPeriod := some (p + n) }

section
variable {phase : Nat} {o : TickOrder} {s : State}

theorem exec_refsecEdge (inTime : s.time.missingTimer + s.clocksTo phase < Config.missingEdgeClocks) :
    exec (.refsecEdge phase o) s = .next ((s.onTime fun b => b.pass (s.clocksTo phase)).edge o).settle := by
  have none : (s.onTime fun b => b.pass (s.clocksTo phase)).missingTest o = s.onTime fun b => b.pass (s.clocksTo phase) :=
    if_neg (Nat.not_le_of_lt inTime)
  exact congrArg (fun t : State => Host.Outcome.next (t.edge o).settle) none

theorem exec_refsecEdge_closes {p : Nat} (inTime : s.time.missingTimer + s.clocksTo phase < Config.missingEdgeClocks)
    (opened : s.time.openPeriod = some p) :
    exec (.refsecEdge phase o) s = .next (if periodGood (p + s.clocksTo phase)
      then (s.onTime fun b => b.closing (s.clocksTo phase) p).judgeGood o
      else (s.onTime fun b => b.closing (s.clocksTo phase) p).judgeBad o).settle := by
  have open' : (s.onTime fun b => b.pass (s.clocksTo phase)).time.openPeriod = some (p + s.clocksTo phase) := by
    simp [TimeBase.pass, opened]
  rw [exec_refsecEdge inTime, State.edge]
  simp only [open']
  have closed : ((s.onTime fun b => b.pass (s.clocksTo phase)).onTime fun b =>
      { b with openPeriod := some 0, missingTimer := 0, lastPeriod := b.openPeriod.or b.lastPeriod }) =
      s.onTime fun b => b.closing (s.clocksTo phase) p := by
    simp [State.onTime, TimeBase.pass, TimeBase.closing, opened]
  rw [closed]

theorem exec_refsecEdge_good {p : Nat} (inTime : s.time.missingTimer + s.clocksTo phase < Config.missingEdgeClocks)
    (opened : s.time.openPeriod = some p) (good : periodGood (p + s.clocksTo phase) = true) :
    exec (.refsecEdge phase o) s = .next ((s.onTime fun b => b.closing (s.clocksTo phase) p).judgeGood o).settle := by
  rw [exec_refsecEdge_closes inTime opened, if_pos good]

theorem exec_refsecEdge_bad {p : Nat} (inTime : s.time.missingTimer + s.clocksTo phase < Config.missingEdgeClocks)
    (opened : s.time.openPeriod = some p) (bad : periodGood (p + s.clocksTo phase) = false) :
    exec (.refsecEdge phase o) s = .next ((s.onTime fun b => b.closing (s.clocksTo phase) p).judgeBad o).settle := by
  rw [exec_refsecEdge_closes inTime opened, if_neg (by simp [bad])]

end

/-- Settles O5, by the reference state and the judgement of the period closed. -/
theorem edgesOpenPeriodsAndTickFromTheDividersHalf : Obligations.EdgesOpenPeriodsAndTickFromTheDividersHalf := by
  intro phase o s inTime
  refine ⟨fun none => ?_, fun p opened => ⟨fun good known => ?_, fun good lost => ?_, fun bad lost => ?_, fun bad known => ?_⟩⟩
  · have opens : (s.onTime fun b => b.pass (s.clocksTo phase)).edge o = s.onTime fun b =>
        { b with prescaler := b.prescaler + s.clocksTo phase, openPeriod := some 0, missingTimer := 0 } := by
      simp [State.edge, State.onTime, TimeBase.pass, none]
    refine ⟨_, exec_refsecEdge inTime, ?_⟩
    rw [opens]
    exact ⟨State.settle_time _, (Moves.onTime s _).frame.settle⟩
  · obtain ⟨n, judged⟩ := State.judgeGood_known (s := s.onTime fun b => b.closing (s.clocksTo phase) p) o known
    refine ⟨_, exec_refsecEdge_good inTime opened good, ?_⟩
    rw [judged, State.settle_time, State.time_goodEdge, TimeBase.second_eq]
    refine ⟨?_, ?_, ?_, ?_, ?_, ?_, ?_, fun below => ?_⟩
    case refine_8 =>
      rw [State.goodEdge_below (by exact below)]
      exact (((Moves.onTime s _).next (.onTime _ _)).next (.onTime _ _)).frame.settle
    case refine_7 =>
      rw [apply_ite TimeBase.hallTime]; rfl
    all_goals split <;> rfl
  · refine ⟨_, exec_refsecEdge_good inTime opened good, ?_⟩
    rw [State.judgeGood_lost o (by exact lost)]
    by_cases few : s.time.good + 1 < 5
    · rw [if_pos few, if_neg (by exact Nat.not_le.2 few)]
      exact ⟨State.settle_time _, ((Moves.onTime s _).next (.onTime _ _)).frame.settle⟩
    · rw [if_neg few, if_pos (by exact Nat.le_of_not_lt few), State.settle_time, State.time_goodEdge, TimeBase.second_eq]
      have raised (u : State) : Category.refBack ∈ ((u.notify .refBack).goodEdge o).office.flags :=
        (Moves.goodEdge _ o).raised _ (State.flag_notify u .refBack)
      refine ⟨?_, ?_, ?_, State.settle_raised _ (raised _), ?_, fun below => ?_⟩
      case refine_5 =>
        rw [State.goodEdge_below (by exact below)]
        exact (((((Moves.onTime s _).widen).next (.onTime _ _)).next (.notify _ _)).next (.onTime _ _)).frame.settle
      case refine_4 =>
        rw [apply_ite TimeBase.hallTime]; rfl
      all_goals split <;> rfl
  · refine ⟨_, exec_refsecEdge_bad inTime opened bad, ?_⟩
    rw [State.judgeBad_lost o (by exact lost)]
    exact ⟨State.settle_time _, ((Moves.onTime s _).next (.onTime _ _)).frame.settle⟩
  · refine ⟨_, exec_refsecEdge_bad inTime opened bad, ?_⟩
    rw [State.judgeBad_counts o (by exact known)]
    by_cases few : s.time.bad + 1 < 3
    · rw [if_pos few, if_neg (by exact Nat.not_le.2 few)]
      exact ⟨State.settle_time _, ((Moves.onTime s _).next (.onTime _ _)).frame.settle⟩
    · rw [if_neg few, if_pos (by exact Nat.le_of_not_lt few), State.settle_time, State.time_loseReference]
      refine ⟨?_, ?_, State.settle_raised _ (State.refLost_loseReference _ o), ?_⟩
      · split <;> rfl
      · split <;> rfl
      · by_cases far : s.time.refState = .good ∧ 1000 ≤ s.time.divider
        · rw [if_pos far, if_pos (by exact far)]
          exact ⟨rfl, rfl⟩
        · rw [if_neg far, if_neg (by exact far)]
          exact ⟨rfl, ((((Moves.onTime s _).next (.onTime _ _)).widen).next (Moves.loseReference_below o (by exact far))).frame.settle⟩

/-! ## Missing edges -/

/-- The judgement of a missing edge `n` clocks on, made at its clock (R20). -/
theorem State.missingFirst_some {s : State} {n : Nat} (h : s.time.missingIn = some n) (o : TickOrder) :
    s.missingFirst o = (s.onTime fun b => b.pass n).judgeMissing o := by rw [State.missingFirst, h]

theorem State.missingFirst_none {s : State} (h : s.time.missingIn = none) (o : TickOrder) : s.missingFirst o = s := by
  rw [State.missingFirst, h]

/-- The time base when the missing edge is judged: the period discarded, the timer restarted (R20). -/
def TimeBase.missed (b : TimeBase) (n : Nat) : TimeBase :=
  { b with prescaler := b.prescaler + n, openPeriod := none, missingTimer := 0 }

theorem TimeBase.missingIn_some {b : TimeBase} {n : Nat} (h : b.missingIn = some n) :
    n = Config.missingEdgeClocks - b.missingTimer ∧ n + b.prescaler < Config.clocksPerTick := by
  unfold TimeBase.missingIn at h
  dsimp only at h
  split at h
  · next before => cases h; exact ⟨rfl, before⟩
  · cases h

theorem State.missingFirst_eq {s : State} {n : Nat} (h : s.time.missingIn = some n)
    (running : s.time.missingTimer ≤ Config.missingEdgeClocks) (o : TickOrder) :
    s.missingFirst o = (s.onTime fun b => b.missed n).judgeBad o := by
  obtain ⟨clocks, -⟩ := TimeBase.missingIn_some h
  have timer : s.time.missingTimer + n - Config.missingEdgeClocks = 0 := by omega
  rw [State.missingFirst_some h, State.judgeMissing]
  simp [State.onTime, TimeBase.pass, TimeBase.missed, timer]

/-! ### The 1 ms tick -/

theorem exec_tick1ms (low : Bool) (n : Nat) (o : TickOrder) (s : State) :
    exec (.tick1ms low n o) s = .next (s.tick low n o).settle := rfl

/-- The consumers of a 1 ms tick before its second tick leave the time base. -/
theorem State.time_ticked (s : State) :
    (s.tickLines.onIntake Intake.tick).tickCommits.time = s.time :=
  (((Moves.tickLines s).widen (k := [.channels, .intake])).next (.intakeTick _) |>.next (.tickCommits _)).frame.2 .time
    (by decide)

theorem State.time_changeHold (s : State) (x : HoldInput) (f : TimeBase → TimeBase) : (s.changeHold x f).time = f s.time := by
  have marked (t : State) : t.markOccupied.time = t.time := (Moves.markOccupied t).frame.2 .time (by decide)
  unfold State.changeHold
  dsimp only
  split
  · rfl
  · rw [marked]; rfl

theorem State.changeHold_same {s : State} {f : TimeBase → TimeBase} (h : (f s.time).held = s.time.held) (x : HoldInput) :
    s.changeHold x f = s.onTime f := if_pos h

theorem State.flag_changeHold {s : State} {f : TimeBase → TimeBase} (h : (f s.time).held ≠ s.time.held) (x : HoldInput) :
    Category.hallHoldChange ∈ (s.changeHold x f).office.flags := by
  unfold State.changeHold
  dsimp only
  rw [if_neg (by exact h)]
  exact (Moves.markOccupied _).raised _ (State.flag_notify _ (.hallHoldChange _ x))

/-- The tail of a 1 ms tick at which the divider owes nothing. -/
theorem State.tickTail_undue {s : State} (h : s.time.dividerDue = false) (n : Nat) (o : TickOrder) :
    s.tickTail n o = if s.time.pinDue then s.changePin else s := by
  unfold State.tickTail
  dsimp only
  rw [if_neg (by simp [h])]

theorem State.missingTest_early {s : State} (h : s.time.missingTimer < Config.missingEdgeClocks) (o : TickOrder) :
    s.missingTest o = s := if_neg (Nat.not_le_of_lt h)

theorem State.tick_eq (s : State) (low : Bool) (n : Nat) (o : TickOrder) : s.tick low n o =
    (((s.tickTime low o).tickLines.onIntake Intake.tick).tickCommits.tickTail n o).missingTest o := rfl

/-- A change of the debounced level leaves the reference, the divider, hall time and the missing-edge timer. -/
theorem TimeBase.flipPin_eq (b : TimeBase) : b.flipPin = { b with holdPin := !b.holdPin, holdCount := 0 } := rfl

theorem TimeBase.debounce_eq (b : TimeBase) (low : Bool) :
    ∃ phase count, b.debounce low = { b with samplePhase := phase, holdCount := count } := by
  unfold TimeBase.debounce TimeBase.sample
  split
  · exact ⟨_, _, rfl⟩
  · split <;> exact ⟨_, _, rfl⟩

theorem TimeBase.toTick_early {b : TimeBase} (h : b.missingTimer = 0) (low : Bool) :
    (b.ticked low).missingTimer < Config.missingEdgeClocks := by
  obtain ⟨phase, count, eq⟩ := TimeBase.debounce_eq b.toTick.divide low
  rw [TimeBase.ticked, eq]
  show b.missingTimer + (20000 - b.prescaler) < 30000000
  omega

/-- The part when a 1 ms tick has been counted, before a second tick or a change of the hold level that it brings. -/
def State.counted (s : State) (low : Bool) (o : TickOrder) : State :=
  ((s.tickTime low o).tickLines.onIntake Intake.tick).tickCommits

theorem State.tick_counted (s : State) (low : Bool) (n : Nat) (o : TickOrder) :
    s.tick low n o = ((s.counted low o).tickTail n o).missingTest o := rfl

theorem State.time_counted (s : State) (low : Bool) (o : TickOrder) :
    (s.counted low o).time = (s.missingFirst o).time.ticked low := State.time_ticked (s.tickTime low o)

theorem Moves.counted (s : State) (low : Bool) (o : TickOrder) :
    Moves [.time, .channels, .intake] (s.missingFirst o) (s.counted low o) := by
  have clock : Moves [.time, .channels, .intake] (s.missingFirst o) (s.tickTime low o) := (Moves.onTime _ _).widen
  exact ((clock.next (.tickLines _)).next (.intakeTick _)).next (.tickCommits _)

theorem State.time_changePin (s : State) : s.changePin.time = { s.time with holdPin := !s.time.holdPin, holdCount := 0 } :=
  State.time_changeHold s .pin TimeBase.flipPin

/-- A 1 ms tick that brings neither a second tick nor a missing edge. -/
theorem State.tick_undue {s u : State} {low : Bool} {o : TickOrder} (counted : s.counted low o = u)
    (undue : u.time.dividerDue = false) (early : u.time.missingTimer < Config.missingEdgeClocks) (n : Nat) :
    s.tick low n o = if u.time.pinDue then u.changePin else u := by
  have late : u.changePin.time.missingTimer < Config.missingEdgeClocks := by rw [State.time_changePin]; exact early
  rw [State.tick_counted, counted, State.tickTail_undue undue]
  split
  · exact State.missingTest_early late o
  · exact State.missingTest_early early o

theorem missingEdge_beforeTick (low : Bool) (at' : Nat) (o : TickOrder) (s : State) (n : Nat)
    (due : s.time.missingIn = some n) (running : s.time.missingTimer ≤ Config.missingEdgeClocks)
    (good : s.time.refState = .good) (bad : s.time.bad = 2) (far : 1000 ≤ s.time.divider) :
    ∃ t, exec (.tick1ms low at' o) s = .next t ∧ t.time.refState = .lost ∧ Category.refLost ∈ t.office.flags ∧
      t.time.hallTime = nextHallTime s.time.hallTime ∧ t.time.divider = 1 := by
  have lost : s.missingFirst o =
      ((s.onTime fun b => b.missed n).onTime fun b => { b with bad := b.bad + 1, good := 0 }).loseReference o := by
    rw [State.missingFirst_eq due running, State.judgeBad_counts o (by simp [TimeBase.missed, good]),
      if_pos (by simp [TimeBase.missed, bad])]
  obtain ⟨b, hb⟩ : ∃ b, b = (s.missingFirst o).time := ⟨_, rfl⟩
  obtain ⟨reference, hall, divider, timer⟩ :
      b.refState = .lost ∧ b.hallTime = nextHallTime s.time.hallTime ∧ b.divider = 0 ∧ b.missingTimer = 0 := by
    rw [hb, lost, State.time_loseReference, if_pos (by exact ⟨good, far⟩)]
    exact ⟨rfl, rfl, rfl, rfl⟩
  obtain ⟨phase, count, debounced⟩ := TimeBase.debounce_eq b.toTick.divide low
  obtain ⟨u, hu⟩ : ∃ u, s.counted low o = u := ⟨_, rfl⟩
  have ticked : u.time = { b.toTick.divide with samplePhase := phase, holdCount := count } := by
    rw [← hu, State.time_counted, ← hb]; exact debounced
  have undue : u.time.dividerDue = false := by
    rw [ticked]
    refine decide_eq_false ?_
    show ¬(if b.refState = .good then 1100 else 1000) ≤ b.divider + 1
    rw [divider]
    split <;> omega
  have early : u.time.missingTimer < Config.missingEdgeClocks := by
    rw [← hu, State.time_counted, ← hb]; exact TimeBase.toTick_early timer low
  have raised : Category.refLost ∈ u.office.flags :=
    hu ▸ (Moves.counted s low o).raised _ (by rw [lost]; exact State.refLost_loseReference _ o)
  have after : u.time.refState = .lost ∧ u.time.hallTime = nextHallTime s.time.hallTime ∧ u.time.divider = 1 := by
    rw [ticked]; exact ⟨reference, hall, congrArg (· + 1) divider⟩
  refine ⟨_, exec_tick1ms low at' o s, ?_⟩
  rw [State.tick_undue hu undue early, State.settle_time]
  split
  · rw [State.time_changePin]
    exact ⟨after.1, State.settle_raised _ ((Moves.changePin u).raised _ raised), after.2⟩
  · exact ⟨after.1, State.settle_raised _ raised, after.2⟩

/-- Settles O6: the judgement at its own clock, and within the tick that follows it. -/
theorem missingEdgeIsABadJudgement : Obligations.MissingEdgeIsABadJudgement := by
  refine ⟨fun o s n due running => ⟨fun known short => ?_, fun lost => ?_⟩, missingEdge_beforeTick⟩
  · refine ⟨_, rfl, ?_⟩
    rw [State.missingFirst_eq due running, State.judgeBad_counts o (by exact known), State.settle_time]
    by_cases third : 3 ≤ s.time.bad + 1
    · have near : ¬(s.time.refState = .good ∧ 1000 ≤ s.time.divider) := fun h => by omega
      rw [if_pos third, if_pos (by exact third), State.time_loseReference, if_neg (by exact near)]
      exact ⟨rfl, rfl, rfl, rfl, rfl, rfl, fun _ => State.settle_raised _ (State.refLost_loseReference _ o),
        ((((Moves.onTime s _).next (.onTime _ _)).widen).next (Moves.loseReference_below o (by exact near))).frame.settle⟩
    · rw [if_neg third, if_neg (by exact third)]
      exact ⟨rfl, rfl, rfl, rfl, rfl, rfl, fun h => absurd h third,
        ((((Moves.onTime s _).next (.onTime _ _)).widen)).frame.settle⟩
  · refine ⟨_, rfl, ?_⟩
    rw [State.missingFirst_eq due running, State.judgeBad_lost o (by exact lost)]
    exact ⟨State.settle_time _, ((Moves.onTime s _).next (.onTime _ _)).frame.settle⟩

/-! ## The hold input -/

/-- What the hold input and the office hold flag stand at. -/
def TimeBase.holds (b : TimeBase) : Bool × Nat × Nat × Bool := (b.holdPin, b.holdCount, b.samplePhase, b.officeHold)

section
variable (s : State) (o : TickOrder)

theorem State.holds_judgeBad : (s.judgeBad o).time.holds = s.time.holds := by
  unfold State.judgeBad
  split
  · rfl
  · dsimp only
    split
    · rw [State.time_loseReference]; split <;> rfl
    · rfl

theorem State.holds_missingTest : (s.missingTest o).time.holds = s.time.holds := by
  unfold State.missingTest
  split
  · exact State.holds_judgeBad _ o
  · rfl

theorem State.holds_missingFirst : (s.missingFirst o).time.holds = s.time.holds := by
  unfold State.missingFirst
  split
  · exact State.holds_judgeBad _ o
  · rfl

end

/-- The tail of a 1 ms tick with a change of the debounced level due takes that change, whatever second tick comes with it. -/
theorem State.tickTail_pin {u : State} (due : u.time.pinDue = true) (n : Nat) (o : TickOrder) :
    (u.tickTail n o).time.holds = (!u.time.holdPin, 0, u.time.samplePhase, u.time.officeHold) ∧
      (u.time.officeHold = false → Category.hallHoldChange ∈ (u.tickTail n o).office.flags) := by
  have changes {t : State} (office : t.time.officeHold = false) : Category.hallHoldChange ∈ t.changePin.office.flags :=
    State.flag_changeHold (by simp [TimeBase.held, TimeBase.flipPin, office]) .pin
  unfold State.tickTail
  simp only [due, if_true]
  split
  · obtain ⟨v, time, after, raised⟩ := State.secondTickWith_mid u o n State.changePin
    refine ⟨?_, fun office => raised _ (changes ?_)⟩
    · rw [after, State.time_changePin, time]; rfl
    · rw [time]; exact office
  · exact ⟨by rw [State.time_changePin]; rfl, changes⟩

theorem thirdSample_changesThePin (low : Bool) (at' : Nat) (o : TickOrder) (s : State) (last : s.time.samplePhase = 9)
    (two : 2 ≤ s.time.holdCount) (differs : low ≠ s.time.holdPin) :
    ∃ t, exec (.tick1ms low at' o) s = .next t ∧ t.time.holdPin = low ∧ t.time.holdCount = 0 ∧
      t.time.samplePhase = 0 ∧ (s.time.officeHold = false → Category.hallHoldChange ∈ t.office.flags) := by
  have first := State.holds_missingFirst s o
  simp only [TimeBase.holds, Prod.mk.injEq] at first
  obtain ⟨pin, count, phase, office⟩ := first
  obtain ⟨b, hb⟩ : ∃ b, b = (s.missingFirst o).time := ⟨_, rfl⟩
  rw [← hb] at pin count phase office
  obtain ⟨u, hu⟩ : ∃ u, s.counted low o = u := ⟨_, rfl⟩
  have sampled : u.time.holds = (s.time.holdPin, s.time.holdCount + 1, 0, s.time.officeHold) := by
    have ninth : ¬b.toTick.divide.samplePhase + 1 < 10 := by
      show ¬b.samplePhase + 1 < 10
      omega
    have other : ¬low = b.toTick.divide.holdPin := fun same => differs (same.trans pin)
    rw [← hu, State.time_counted, ← hb, TimeBase.ticked, TimeBase.debounce, if_neg ninth, TimeBase.sample, if_neg other]
    show (b.holdPin, b.holdCount + 1, 0, b.officeHold) = _
    rw [pin, count, office]
  simp only [TimeBase.holds, Prod.mk.injEq] at sampled
  obtain ⟨pin', count', phase', office'⟩ := sampled
  obtain ⟨holds, flag⟩ := State.tickTail_pin (u := u) (decide_eq_true (by omega)) at' o
  have tested := State.holds_missingTest (u.tickTail at' o) o
  rw [holds] at tested
  simp only [TimeBase.holds, Prod.mk.injEq] at tested
  obtain ⟨pin'', count'', phase'', -⟩ := tested
  refine ⟨_, exec_tick1ms low at' o s, ?_⟩
  rw [State.tick_counted, hu, State.settle_time, pin'', count'', phase'', pin', phase']
  refine ⟨?_, rfl, rfl, fun none => State.settle_raised _ ((Moves.missingTest _ o).raised _ (flag (office'.trans none)))⟩
  exact Bool.not_eq.2 (Ne.symm differs)

theorem exec_hallHold (tag : Byte) (h : Bool) (s : State) : exec (if h then .hallHold tag else .hallResume tag) s =
    .next (s.takeRequest tag 0x03#8 (·.hallHold h)).settle := by cases h <;> rfl

/-- Settles O7, input by input. -/
theorem hallHeldFollowsThePinAndTheOffice : Obligations.HallHeldFollowsThePinAndTheOffice := by
  intro s
  refine ⟨fun due => ?_, fun low at' o => thirdSample_changesThePin low at' o s, fun tag h takes => ?_⟩
  · have run : exec .holdinChange s = .next s.changePin.settle :=
      congrArg (fun t : State => Host.Outcome.next t.settle) (if_pos due)
    refine ⟨_, run, (State.settle_time _).trans (State.time_changePin s), fun office => ⟨?_, (Moves.changePin s).frame.settle⟩,
      fun office => ?_⟩
    · exact State.settle_raised _ (State.flag_changeHold (by simp [TimeBase.held, TimeBase.flipPin, office]) .pin)
    · rw [State.changePin, State.changeHold_same (by simp [TimeBase.held, TimeBase.flipPin, office])]
      exact (Moves.onTime s _).frame.settle
  · obtain ⟨t, run, served⟩ := State.served (exec_hallHold tag h s) takes rfl (Moves.changeHoldAnswer s.countFrame h)
    refine ⟨t, run, served.answered, ?_, served.unchanged.weaken (by decide), fun changes => ?_, fun same => ?_⟩
    · rw [served.eq, State.settle_time, State.respond_time]
      exact State.time_changeHold s.countFrame .office fun b => { b with officeHold := h }
    · exact served.raised (State.flag_changeHold (s := s.countFrame) (f := fun b => { b with officeHold := h }) changes .office)
    · have stands : s.countFrame.hallHold h = ⟨.ok, [], s.countFrame.onTime fun b => { b with officeHold := h }⟩ :=
        congrArg State.done (State.changeHold_same (s := s.countFrame) (f := fun b => { b with officeHold := h }) same .office)
      obtain ⟨t', run', served'⟩ := State.served (exec_hallHold tag h s) takes stands (.onTime _ _)
      cases run.symm.trans run'
      exact served'.unchanged.weaken (by decide)

end Sys2Proof.Machine
end

section
/-! PROOF. What a line's own work leaves of the others and of itself; the 1 ms tick: O3. -/

namespace Sys2Proof.Machine

set_option Elab.async false

/-! ## One line goes on -/

/-- From `s` to `t` line `l` has gone on: no other line has changed, and of the rest only warnings may have been told. -/
structure LineRun (l : Nat) (s t : State) : Prop where
  others : ∀ m, m ≠ l → t.line m = s.line m
  still : t.still = s.still
  told : ∀ k, mapGet s.warnings k = none → mapGet t.warnings k = none

theorem LineRun.refl {l : Nat} (s : State) : LineRun l s s := ⟨fun _ _ => rfl, rfl, fun _ => id⟩

theorem LineRun.trans {l : Nat} {s t u : State} (h : LineRun l s t) (g : LineRun l t u) : LineRun l s u :=
  ⟨fun m hm => (g.others m hm).trans (h.others m hm), g.still.trans h.still, fun k hk => g.told k (h.told k hk)⟩

theorem LineRun.onLine (s : State) (l : Nat) (f : Line → Line) : LineRun l s (s.onLine l f) :=
  ⟨fun m hm => by simp [Ne.symm hm], rfl, fun _ => id⟩

theorem LineRun.onStats (s : State) (l : Nat) (f : LineStats → LineStats) : LineRun l s (s.onStats l f) := .onLine s l _

theorem LineRun.send (s : State) (l : Nat) (x : Exchange) : LineRun l s (s.send l x) := .onLine s l _

theorem LineRun.onAddr (s : State) (l a : Nat) (f : AddrState → AddrState) : LineRun l s (s.onAddr l a f) := .onLine s l _

theorem LineRun.notify {l : Nat} (s : State) (x : Subject) : LineRun l s (s.notify x) := ⟨fun _ _ => rfl, rfl, fun _ => id⟩

theorem LineRun.spendWarning {l : Nat} (s : State) (i : Nat) : LineRun l s (s.spendWarning i) := by
  refine ⟨fun m _ => by simp, State.still_spendWarning s i, fun k hk => ?_⟩
  unfold State.spendWarning
  split
  · next j _ =>
    show mapGet (mapErase s.warnings j) k = none
    rw [mapGet_mapErase, hk]; simp
  · exact hk

theorem LineRun.sendPoll (s : State) (l a : Nat) : LineRun l s (s.sendPoll l a) :=
  ((LineRun.onAddr s l a _).trans (.onStats _ l _)).trans (.send _ l _)

theorem LineRun.pollStep (s : State) (l : Nat) : LineRun l s (s.pollStep l) := by
  unfold State.pollStep
  dsimp only
  split
  · exact .sendPoll _ _ _
  · split
    · exact ((LineRun.onAddr s l _ _).trans (.onStats _ l _)).trans (.send _ l _)
    · split
      · exact .sendPoll _ _ _
      · exact .refl _

theorem LineRun.arbitrate (s : State) (l : Nat) : LineRun l s (s.arbitrate l) := by
  unfold State.arbitrate
  split
  · exact .sendPoll _ _ _
  · split
    · exact ((LineRun.spendWarning s _).trans (.onStats _ l _)).trans (.send _ l _)
    · unfold State.noteStep
      split
      · exact ((LineRun.onLine s l _).trans (.onStats _ l _)).trans (.send _ l _)
      · exact (LineRun.onLine s l _).trans (.pollStep _ l)

theorem LineRun.setMarks {l : Nat} {xs : List Nat} (here : ∀ i ∈ xs, seatLine i = l) (s : State) :
    LineRun l s (xs.foldl State.setMark s) := by
  induction xs generalizing s with
  | nil => exact .refl s
  | cons i xs ih =>
    have first : LineRun l s (s.setMark i) := here i List.mem_cons_self ▸ .onLine s (seatLine i) _
    exact first.trans (ih (fun j hj => here j (List.mem_cons_of_mem _ hj)) _)

theorem State.usedSeats_line {s : State} {l i : Nat} (h : i ∈ s.usedSeats l) : seatLine i = l := by
  unfold State.usedSeats at h
  split at h
  · obtain ⟨p, mem, rfl⟩ := List.mem_map.1 h
    have passes := (List.mem_filter.1 mem).2
    simp only [Bool.and_eq_true, decide_eq_true_eq] at passes
    exact passes.1
  · cases h

theorem LineRun.endSweep (s : State) (l : Nat) : LineRun l s (s.endSweep l) := by
  have start : ∀ f, LineRun l s ((s.onLine l f).restartInterval l) := fun f => (LineRun.onLine s l f).trans (.onLine _ l _)
  unfold State.endSweep
  dsimp only
  split
  · exact ((start _).trans (.onLine _ l _)).trans (.setMarks (fun i hi => State.usedSeats_line hi) _)
  · exact start _

theorem LineRun.runLine (s : State) (l : Nat) : LineRun l s (s.runLine l) := by
  unfold State.runLine
  split
  · exact .refl _
  · split
    · exact .arbitrate _ _
    · unfold State.quietStep
      split
      · exact ((LineRun.onLine s l _).trans (.onStats _ l _)).trans (.send _ l _)
      · exact .refl _
    · unfold State.sweepStep
      split
      · exact ((LineRun.onLine s l _).trans (.onStats _ l _)).trans (.send _ l _)
      · exact (LineRun.endSweep _ _).trans (.arbitrate _ _)
    · unfold State.testStep
      split
      · exact (LineRun.onLine s l _).trans (.send _ l _)
      · exact (((LineRun.onLine s l _).trans (.onLine _ l _)).trans (.notify _ _)).trans (.arbitrate _ _)

/-- A line with an exchange in flight waits for its end. -/
theorem State.runLine_busy {s : State} {l : Nat} (busy : (s.line l).exchange ≠ none) : s.runLine l = s := by
  rw [State.runLine, if_pos (Option.isSome_iff_ne_none.2 busy)]

/-! ## What follows at once, for one line -/

theorem lineNumbers_nodup : lineNumbers.Nodup := List.nodup_range

theorem mem_lineNumbers (l : Nat) : l ∈ lineNumbers ↔ l < 7 := by simp [lineNumbers]

theorem State.line_settle (s : State) (l : Nat) : s.settle.line l = s.runLines.line l := by
  simp [State.settle, State.driveReady, State.becomeReady]

theorem State.warnings_settle (s : State) : s.settle.warnings = s.runLines.warnings := by
  simp [State.settle, State.driveReady, State.becomeReady]

/-- From `s` to `t` lines other than `l` have gone on. -/
structure Aside (l : Nat) (s t : State) : Prop where
  line : t.line l = s.line l
  still : t.still = s.still
  desks : DesksKept s t
  told : ∀ k, mapGet s.warnings k = none → mapGet t.warnings k = none

theorem Aside.refl {l : Nat} (s : State) : Aside l s s := ⟨rfl, rfl, .refl s, fun _ => id⟩

theorem Aside.runLine {l m : Nat} {s t : State} (h : Aside l s t) (other : m ≠ l) : Aside l s (t.runLine m) := by
  have run := LineRun.runLine t m
  exact ⟨(run.others l (Ne.symm other)).trans h.line, run.still.trans h.still, h.desks.trans (.runLine t m),
    fun k hk => run.told k (h.told k hk)⟩

/-- What follows at once, for line `l`: others may have gone on before it, and do after it. -/
theorem State.settle_split (s : State) {l : Nat} (hl : l < 7) : ∃ u, Aside l s u ∧ s.settle.line l = (u.runLine l).line l ∧
    ∀ k, mapGet (u.runLine l).warnings k = none → mapGet s.settle.warnings k = none := by
  rw [State.line_settle, State.warnings_settle]
  refine foldl_split State.runLine l (Aside l s) (fun t => ∃ u, Aside l s u ∧ t.line l = (u.runLine l).line l ∧
      ∀ k, mapGet (u.runLine l).warnings k = none → mapGet t.warnings k = none)
    (fun t m other h => h.runLine other) (fun t h => ⟨t, h, rfl, fun _ => id⟩) (fun t m other h => ?_) _ lineNumbers_nodup
    ((mem_lineNumbers l).2 hl) s (.refl s)
  obtain ⟨u, aside, line, told⟩ := h
  have run := LineRun.runLine t m
  exact ⟨u, aside, (run.others l (Ne.symm other)).trans line, fun k hk => run.told k (told k hk)⟩

/-- A line with an exchange in flight stands through what follows at once. -/
theorem State.settle_busy {s : State} {l : Nat} (busy : (s.line l).exchange ≠ none) : s.settle.line l = s.line l := by
  rw [State.line_settle]
  refine (foldl_invariant (fun t : State => t.line l = s.line l) State.runLine (fun t m h => ?_) lineNumbers s rfl)
  by_cases own : m = l
  · subst own
    rw [State.runLine_busy (by rw [h]; exact busy), h]
  · exact ((LineRun.runLine t m).others l (Ne.symm own)).trans h

/-! ## What an ACTIVE or QUIET line keeps of itself -/

/-- The fields of a line that sending a frame leaves. -/
def Line.core (n : Line) : Line := { n with addrs := [], marks := [], fifo := [], exchange := none, stats := LineStats.zero }

section
variable (s : State) (l : Nat)

theorem State.core_sendPoll (a : Nat) : ((s.sendPoll l a).line l).core = (s.line l).core := by
  simp [State.sendPoll, State.onAddr, State.onStats, State.send, Line.core, Line.onAddr]

theorem State.core_pollStep : ((s.pollStep l).line l).core = (s.line l).core := by
  unfold State.pollStep
  dsimp only
  split
  · exact State.core_sendPoll s l _
  · split
    · simp [State.sendDiscovery, State.onAddr, State.onStats, State.send, Line.core, Line.onAddr]
    · split
      · exact State.core_sendPoll s l _
      · rfl

theorem State.core_arbitrate : ((s.arbitrate l).line l).core = (s.line l).core := by
  unfold State.arbitrate
  split
  · exact State.core_sendPoll s l _
  · split
    · simp [State.sendClock, State.onStats, State.send, Line.core]
    · unfold State.noteStep
      split
      · simp [State.onStats, State.send, Line.core]
      · rw [State.core_pollStep]; simp [Line.core]

end

/-! ## The 1 ms tick on the lines -/

theorem LineRun.restartInterval (s : State) (l : Nat) : LineRun l s (s.restartInterval l) := .onLine s l _

theorem LineRun.discoveryRound (s : State) (l : Nat) : LineRun l s (s.discoveryRound l) :=
  foldl_invariant (fun t => LineRun l s t) _ (fun t a h => by
    split
    · exact h.trans (.onAddr t l a _)
    · exact h) _ s (.refl s)

theorem LineRun.advanceDiscovery (s : State) (l : Nat) : LineRun l s (s.advanceDiscovery l) := by
  unfold State.advanceDiscovery
  split
  · exact (LineRun.onLine s l _).trans (.discoveryRound _ l)
  · exact .onLine s l _

theorem LineRun.endInterval (s : State) (l : Nat) : LineRun l s (s.endInterval l) := by
  unfold State.endInterval
  dsimp only
  split
  · exact ((LineRun.restartInterval s l).trans (.onLine _ l _)).trans (.advanceDiscovery _ l)
  · exact .restartInterval s l

theorem LineRun.tickLine (s : State) (l : Nat) : LineRun l s (s.tickLine l) := by
  unfold State.tickLine
  dsimp only
  split
  · exact (LineRun.onLine s l _).trans (.endInterval _ l)
  · exact .onLine s l _

theorem State.timer_advanceDiscovery (s : State) (l : Nat) :
    ((s.advanceDiscovery l).line l).timer = (s.line l).timer ∧
      ((s.advanceDiscovery l).line l).interval = (s.line l).interval ∧
      ((s.advanceDiscovery l).line l).exchange = (s.line l).exchange ∧
      ((s.advanceDiscovery l).line l).state = (s.line l).state := by
  have round (t : State) : ((t.discoveryRound l).line l).timer = (t.line l).timer ∧
      ((t.discoveryRound l).line l).interval = (t.line l).interval ∧
      ((t.discoveryRound l).line l).exchange = (t.line l).exchange ∧
      ((t.discoveryRound l).line l).state = (t.line l).state :=
    foldl_invariant (fun u : State => (u.line l).timer = (t.line l).timer ∧ (u.line l).interval = (t.line l).interval ∧
        (u.line l).exchange = (t.line l).exchange ∧ (u.line l).state = (t.line l).state) _ (fun u a h => by
      split
      · simpa [State.onAddr, Line.onAddr] using h
      · exact h) _ t ⟨rfl, rfl, rfl, rfl⟩
  unfold State.advanceDiscovery
  split
  · obtain ⟨timer, interval, exchange, state⟩ := round (s.onLine l fun n => { n with discovery := 0 })
    exact ⟨by simp [timer], by simp [interval], by simp [exchange], by simp [state]⟩
  · simp

/-- An interval end restarts the timer, with its length taken anew (R106). -/
theorem State.timer_endInterval (s : State) (l : Nat) :
    ((s.endInterval l).line l).timer = 0 ∧ ((s.endInterval l).line l).interval = s.pollInterval l ∧
      ((s.endInterval l).line l).exchange = (s.line l).exchange ∧ ((s.endInterval l).line l).state = (s.line l).state := by
  have owed (n : Line) (xs : List Nat) : (n.oweAll xs).timer = n.timer ∧ (n.oweAll xs).interval = n.interval ∧
      (n.oweAll xs).exchange = n.exchange ∧ (n.oweAll xs).state = n.state :=
    foldl_invariant (fun m : Line => m.timer = n.timer ∧ m.interval = n.interval ∧ m.exchange = n.exchange ∧
        m.state = n.state) _ (fun m a h => by dsimp only; split <;> exact h) xs n ⟨rfl, rfl, rfl, rfl⟩
  unfold State.endInterval
  dsimp only
  split
  · obtain ⟨timer, interval, exchange, state⟩ := State.timer_advanceDiscovery
      ((s.restartInterval l).onLine l fun n => n.oweAll (s.presentAddrs l)) l
    rw [timer, interval, exchange, state, State.line_onLine, if_pos rfl, (owed _ _).1, (owed _ _).2.1, (owed _ _).2.2.1,
      (owed _ _).2.2.2]
    simp [State.restartInterval]
  · simp [State.restartInterval]

/-- A 1 ms tick counts on the timer of a line, or ends its interval (R106). -/
theorem State.timer_tickLine (s : State) (l : Nat) :
    (if (s.line l).timer + 1 < (s.line l).interval then
      ((s.tickLine l).line l).timer = (s.line l).timer + 1 ∧ ((s.tickLine l).line l).interval = (s.line l).interval
    else ((s.tickLine l).line l).timer = 0 ∧ ((s.tickLine l).line l).interval = s.pollInterval l) ∧
      ((s.tickLine l).line l).exchange = (s.line l).exchange ∧ ((s.tickLine l).line l).state = (s.line l).state := by
  unfold State.tickLine
  dsimp only
  by_cases below : (s.line l).timer + 1 < (s.line l).interval
  · have undue : (s.onLine l fun n => { n with timer := n.timer + 1 }).intervalDue l = false :=
      decide_eq_false (by simpa using below)
    rw [if_pos below, if_neg (by simp [undue])]
    simp
  · have due : (s.onLine l fun n => { n with timer := n.timer + 1 }).intervalDue l = true :=
      decide_eq_true (by simpa using below)
    obtain ⟨timer, interval, exchange, state⟩ :=
      State.timer_endInterval (s.onLine l fun n => { n with timer := n.timer + 1 }) l
    rw [if_neg below, if_pos due]
    exact ⟨⟨timer, interval⟩, by simpa using exchange, by simpa using state⟩

theorem Aside.tickLine {l m : Nat} {s t : State} (h : Aside l s t) (other : m ≠ l) : Aside l s (t.tickLine m) := by
  have run := LineRun.tickLine t m
  have desks := (Moves.tickLine t m).frame.2 .presence (by decide)
  exact ⟨(run.others l (Ne.symm other)).trans h.line, run.still.trans h.still, h.desks.trans desks,
    fun k hk => run.told k (h.told k hk)⟩

/-- A 1 ms tick taken by the line controller, for line `l`. -/
theorem State.tickLines_split (s : State) {l : Nat} (hl : l < 7) :
    ∃ u, Aside l s u ∧ s.tickLines.line l = (u.tickLine l).line l := by
  refine foldl_split State.tickLine l (Aside l s) (fun t => ∃ u, Aside l s u ∧ t.line l = (u.tickLine l).line l)
    (fun t m other h => h.tickLine other) (fun t h => ⟨t, h, rfl⟩) (fun t m other h => ?_) _ lineNumbers_nodup
    ((mem_lineNumbers l).2 hl) s (.refl s)
  obtain ⟨u, aside, line⟩ := h
  exact ⟨u, aside, ((LineRun.tickLine t m).others l (Ne.symm other)).trans line⟩

theorem Aside.pollInterval {l : Nat} {s t : State} (h : Aside l s t) (m : Nat) : t.pollInterval m = s.pollInterval m := by
  have hall : t.hall = s.hall := by rw [← State.still_hall t, h.still, State.still_hall]
  rw [State.pollInterval, State.pollInterval, hall]

/-- A free ACTIVE or QUIET line leaves its timer as it stands when it goes on. -/
theorem State.core_runLine {s : State} {l : Nat} (working : (s.line l).exchange ≠ none ∨ (s.line l).state = .active ∨
    (s.line l).state = .quiet) : ((s.runLine l).line l).timer = (s.line l).timer ∧
      ((s.runLine l).line l).interval = (s.line l).interval := by
  by_cases busy : (s.line l).exchange = none
  · rw [State.runLine, if_neg (by simp [busy])]
    rcases working with sending | active | quiet
    · exact absurd busy sending
    · rw [active]
      have core := State.core_arbitrate s l
      show ((s.arbitrate l).line l).timer = _ ∧ ((s.arbitrate l).line l).interval = _
      exact ⟨(congrArg Line.timer core :), (congrArg Line.interval core :)⟩
    · rw [quiet]
      show ((s.quietStep l).line l).timer = _ ∧ ((s.quietStep l).line l).interval = _
      unfold State.quietStep
      split <;> simp [State.onStats, State.send, Line.flush]
  · rw [State.runLine_busy busy]
    exact ⟨rfl, rfl⟩

/-- The timer of a line after a 1 ms tick taken by the line controller and what follows at once (R18, R106). -/
theorem State.timer_tickLines {s u : State} {l : Nat} (hl : l < 7) (line : u.line l = s.tickLines.line l)
    (working : (s.line l).exchange ≠ none ∨ (s.line l).state = .active ∨ (s.line l).state = .quiet) :
    if (s.line l).timer + 1 < (s.line l).interval then
      (u.settle.line l).timer = (s.line l).timer + 1 ∧ (u.settle.line l).interval = (s.line l).interval
    else (u.settle.line l).timer = 0 ∧ (u.settle.line l).interval = s.pollInterval l := by
  obtain ⟨v, before, ticked⟩ := s.tickLines_split hl
  obtain ⟨w, after, settled, -⟩ := u.settle_split hl
  obtain ⟨counts, exchange, state⟩ := v.timer_tickLine l
  rw [← ticked, ← line, ← after.line, before.line] at counts exchange state
  obtain ⟨timer, interval⟩ := State.core_runLine (by rw [exchange, state]; exact working)
  rw [settled, timer, interval, ← before.pollInterval l]
  exact counts

/-! ## The 1 ms tick on the slots and on the commits -/

/-- A 1 ms tick for the commit of a channel (R156). -/
def Channel.tickCommit (c : Channel) : Channel :=
  match c.stage with
  | .running n => if 20 ≤ n + 1 then { c with stage := .running (n + 1) }.commit else { c with stage := .running (n + 1) }
  | _ => c

theorem Channel.stage_tickCommit {c : Channel} {n : Nat} (running : c.stage = .running n) (more : n + 1 < 20) :
    c.tickCommit.stage = .running (n + 1) := by
  rw [Channel.tickCommit, running]
  dsimp only
  rw [if_neg (by omega)]

theorem State.chan_resumeSheet (s : State) (c d : Nat) : (s.resumeSheet c).chan d = s.chan d := by
  unfold State.resumeSheet
  split
  · split
    · unfold State.advance
      split <;> rfl
    · rfl
  · rfl

theorem State.age_advance (s : State) (reach n : Nat) : ((s.advance reach).intake.slot n).age = (s.intake.slot n).age := by
  cases marking : s.intake.marking with
  | none => rw [State.advance_of_idle marking]
  | some m =>
    have slots : ∃ f : Slot → Slot, (∀ r, (f r).age = r.age) ∧
        (s.advance reach).intake.slot n = (s.intake.onSlot m.slot f).slot n := by
      rw [State.advance_of_working marking]
      exact ⟨fun r => { r with resolved := (s.checked reach m).channel }, fun _ => rfl, rfl⟩
    obtain ⟨f, same, slots⟩ := slots
    rw [slots, Intake.slot_onSlot]
    split
    · next own => rw [same, own]
    · rfl

theorem State.age_resumeSheet (s : State) (c n : Nat) : ((s.resumeSheet c).intake.slot n).age = (s.intake.slot n).age := by
  unfold State.resumeSheet
  split
  · split
    · exact s.age_advance 14 n
    · rfl
  · rfl

theorem State.chan_tickCommit (s : State) (c d : Nat) :
    (s.tickCommit c).chan d = if c = d then (s.chan c).tickCommit else s.chan d := by
  unfold State.tickCommit
  split
  · next n running =>
    have ticked : (s.chan c).tickCommit = if 20 ≤ n + 1 then { s.chan c with stage := .running (n + 1) }.commit
        else { s.chan c with stage := .running (n + 1) } := by rw [Channel.tickCommit, running]
    dsimp only
    rw [ticked]
    split
    · rw [State.endCommit, State.chan_resumeSheet, State.chan_onChan, State.chan_onChan, State.chan_onChan, if_pos rfl]
      split <;> rfl
    · exact State.chan_onChan ..
  · next idle =>
    have stands : (s.chan c).tickCommit = s.chan c := by
      rw [Channel.tickCommit]
      split
      · next n running => exact absurd running (idle n)
      · rfl
    split
    · next own => rw [stands, own]
    · rfl

theorem State.age_tickCommit (s : State) (c n : Nat) : ((s.tickCommit c).intake.slot n).age = (s.intake.slot n).age := by
  unfold State.tickCommit
  split
  · dsimp only
    split
    · exact State.age_resumeSheet _ c n
    · rfl
  · rfl

theorem State.lines_tickCommit (s : State) (c : Nat) : (s.tickCommit c).lines = s.lines := by
  unfold State.tickCommit
  split
  · dsimp only
    split
    · unfold State.endCommit State.resumeSheet
      split
      · split
        · unfold State.advance
          split <;> rfl
        · rfl
      · rfl
    · rfl
  · rfl

theorem State.chan_tickCommits (s : State) {c : Nat} (hc : c < 16) : s.tickCommits.chan c = (s.chan c).tickCommit :=
  foldl_split State.tickCommit c (fun t => t.chan c = s.chan c) (fun t => t.chan c = (s.chan c).tickCommit)
    (fun t d other h => by rw [State.chan_tickCommit, if_neg other, h])
    (fun t h => by rw [State.chan_tickCommit, if_pos rfl, h])
    (fun t d other h => by rw [State.chan_tickCommit, if_neg other, h])
    channelNumbers channelNumbers_nodup ((mem_channelNumbers c).2 hc) s rfl

/-- What a 1 ms tick leaves of the channels, its commits apart. -/
theorem State.sitting_tickCommits (s : State) (c : Nat) : (s.tickCommits.chan c).state = (s.chan c).state ∧
    (s.tickCommits.chan c).writeElapsed = (s.chan c).writeElapsed := by
  have one (x : Channel) : x.tickCommit.state = x.state ∧ x.tickCommit.writeElapsed = x.writeElapsed := by
    unfold Channel.tickCommit
    split
    · split
      · unfold Channel.commit
        dsimp only
        split <;> exact ⟨rfl, rfl⟩
      · exact ⟨rfl, rfl⟩
    · exact ⟨rfl, rfl⟩
  refine foldl_invariant (fun t : State => (t.chan c).state = (s.chan c).state ∧
    (t.chan c).writeElapsed = (s.chan c).writeElapsed) State.tickCommit (fun t d h => ?_) channelNumbers s ⟨rfl, rfl⟩
  rw [State.chan_tickCommit]
  split
  · next own =>
    rw [own]
    exact ⟨(one _).1.trans h.1, (one _).2.trans h.2⟩
  · exact h

/-- Every WAITING or SCORING slot ages (R137). -/
theorem Intake.age_tick (t : Intake) {n : Nat} (hn : n < 4) : (t.tick.slot n).age =
    if (t.slot n).state = .waiting ∨ (t.slot n).state = .scoring then satUp 65535 (t.slot n).age else (t.slot n).age := by
  have slots : n ∈ slotNumbers := by simp [slotNumbers]; omega
  refine foldl_split (fun (t : Intake) n => t.onSlot n fun r =>
      if r.state = .waiting ∨ r.state = .scoring then { r with age := satUp 65535 r.age } else r) n
    (fun u => u.slot n = t.slot n) (fun u => (u.slot n).age =
      if (t.slot n).state = .waiting ∨ (t.slot n).state = .scoring then satUp 65535 (t.slot n).age else (t.slot n).age)
    (fun u m other h => ?_) (fun u h => ?_) (fun u m other h => ?_) slotNumbers (by decide) slots t rfl
  · rw [Intake.slot_onSlot, if_neg other, h]
  · rw [Intake.slot_onSlot, if_pos rfl, h]
    split <;> rfl
  · rw [Intake.slot_onSlot, if_neg other, h]

/-! ## A tick that brings nothing due -/

theorem State.missingFirst_early {s : State} {low : Bool} (early : (s.time.ticked low).missingTimer < Config.missingEdgeClocks)
    (o : TickOrder) : s.missingFirst o = s := by
  refine State.missingFirst_none (if_neg fun before => ?_) o
  obtain ⟨phase, count, eq⟩ := TimeBase.debounce_eq s.time.toTick.divide low
  rw [TimeBase.ticked, eq] at early
  have passed : s.time.missingTimer + (20000 - s.time.prescaler) < 30000000 := early
  have short : 30000000 - s.time.missingTimer + s.time.prescaler < 20000 := before
  omega

/-- What has been counted by a 1 ms tick before which no missing edge is judged. -/
theorem State.counted_early {s : State} {low : Bool} (early : (s.time.ticked low).missingTimer < Config.missingEdgeClocks)
    (o : TickOrder) : s.counted low o =
      (((s.onTime fun b => b.ticked low).tickLines.onIntake Intake.tick).tickCommits) := by
  rw [State.counted, State.tickTime, State.missingFirst_early early]
  rfl

theorem State.lines_tickCommits (s : State) : s.tickCommits.lines = s.lines :=
  foldl_keeps State.lines State.tickCommit State.lines_tickCommit channelNumbers s

theorem State.age_tickCommits (s : State) (n : Nat) : (s.tickCommits.intake.slot n).age = (s.intake.slot n).age :=
  foldl_keeps (fun t : State => (t.intake.slot n).age) State.tickCommit (fun t c => t.age_tickCommit c n) channelNumbers s

/-- Settles O3. -/
theorem tick1msCounts : Obligations.Tick1msCounts := by
  intro low at' o s b undue pin early
  obtain ⟨phase, count, debounced⟩ := TimeBase.debounce_eq s.time.toTick.divide low
  obtain ⟨v, hv⟩ : ∃ v, (s.onTime fun b => b.ticked low).tickLines = v := ⟨_, rfl⟩
  have counted := State.counted_early early o
  rw [hv] at counted
  have lines := (Moves.tickLines (s.onTime fun b => b.ticked low)).frame
  rw [hv] at lines
  have frame := Moves.counted s low o
  have time := State.time_counted s low o
  rw [State.missingFirst_early early] at frame time
  obtain ⟨u, hu⟩ : ∃ u, s.counted low o = u := ⟨_, rfl⟩
  rw [hu] at counted frame time
  have stands : s.tick low at' o = u := by
    rw [State.tick_undue hu (by rw [time]; exact undue) (by rw [time]; exact early), time]
    exact if_neg fun h => Bool.false_ne_true (pin.symm.trans h)
  refine ⟨_, exec_tick1ms low at' o s, ?_⟩
  rw [stands]
  have chan (c : Nat) : (v.onIntake Intake.tick).chan c = s.chan c := by
    rw [State.chan, State.onIntake_channels, lines.2 .channels (by decide)]
    rfl
  refine ⟨(State.settle_time u).trans time, ?_, ?_, ?_, fun n hn => ?_, fun c n hc running more => ?_, fun c => ?_,
    fun l hl working => ?_, frame.frame.settle⟩
  · exact (congrArg TimeBase.prescaler debounced :)
  · exact (congrArg TimeBase.divider debounced :)
  · exact (congrArg TimeBase.hallTime debounced :)
  · have slots : v.intake.slot n = s.intake.slot n := by rw [Intake.slot, (lines.2 .intake (by decide)).2.1]; rfl
    rw [State.settle_slot, counted, State.age_tickCommits, State.onIntake_intake, Intake.age_tick _ hn, slots]
  · have ticked := (v.onIntake Intake.tick).chan_tickCommits hc
    rw [← counted] at ticked
    rw [State.settle_chan, ticked, chan]
    exact Channel.stage_tickCommit running more
  · obtain ⟨state, elapsed⟩ := (v.onIntake Intake.tick).sitting_tickCommits c
    rw [State.settle_chan, counted, state, elapsed, chan]
    exact ⟨rfl, rfl⟩
  · refine State.timer_tickLines (s := s.onTime fun b => b.ticked low) hl ?_ working
    rw [hv, counted, State.line, State.lines_tickCommits, State.onIntake_lines]
    rfl

end Sys2Proof.Machine
end

section
/-! PROOF. Key commits (R155, R156): through a second tick every channel keeps its banks and the place of its commit, so the
1 ms tick that brings the count to 20 leaves what the commit's end left. -/

namespace Sys2Proof.Machine

set_option Elab.async false

/-- What a channel holds of its keys: the place of its commit, the generation and the banks. -/
def Channel.keys (c : Channel) : CommitStage × Nat × Bank × PMap KeyEntry × PMap KeyEntry :=
  (c.stage, c.generation, c.active, c.bankA, c.bankB)

/-- From `s` to `t` every channel has kept its banks and the place of its commit. -/
def KeysKept (s t : State) : Prop := ∀ d, (t.chan d).keys = (s.chan d).keys

theorem KeysKept.refl (s : State) : KeysKept s s := fun _ => rfl

theorem KeysKept.trans {s t u : State} (h : KeysKept s t) (g : KeysKept t u) : KeysKept s u :=
  fun d => (g d).trans (h d)

theorem KeysKept.of_moves {k : List Part} {s t : State} (h : Moves k s t) (apart : Part.channels ∉ k := by decide) :
    KeysKept s t := fun d => by rw [State.chan, h.frame.2 .channels apart]; rfl

theorem KeysKept.onChan (s : State) (c : Nat) (f : Channel → Channel) (same : ∀ x, (f x).keys = x.keys) :
    KeysKept s (s.onChan c f) := fun d => by
  rw [State.chan_onChan]
  split
  · next own => rw [same, own]
  · rfl

theorem KeysKept.ite {s t u : State} {p : Prop} [Decidable p] (h : KeysKept s t) (g : KeysKept s u) :
    KeysKept s (if p then t else u) := by split <;> assumption

theorem KeysKept.fold {α : Type} (f : State → α → State) (h : ∀ t a, KeysKept t (f t a)) (xs : List α) (s : State) :
    KeysKept s (xs.foldl f s) :=
  foldl_invariant (KeysKept s) f (fun t a g => g.trans (h t a)) xs s (.refl s)

/-- A step that writes the clock of one channel alone keeps the keys. -/
theorem OnePhase.keys {c : Nat} {s t : State} (h : OnePhase c s t) : KeysKept s t := fun d => by
  by_cases own : d = c
  · rw [own]
    exact (congrArg Channel.keys h.clocks :)
  · rw [h.others d own]

theorem KeysKept.countEntry (s : State) (k : Nat) : KeysKept s (s.countEntry k) := by
  cases found : s.entry k with
  | none => rw [State.countEntry, found]; exact .refl s
  | some e => exact (OnePhase.countEntry s k e.channel fun e' h => by rw [found] at h; cases h; rfl).keys

theorem KeysKept.writingSecond (s : State) (c : Nat) : KeysKept s (s.writingSecond c) := by
  have amended (t : State) : KeysKept t (t.secondAmendment c) := .ite (OnePhase.applyPending t c).keys (.refl t)
  have closed (t : State) : KeysKept t (t.secondClose c) := .ite (OnePhase.closeOnce t c).keys (.refl t)
  exact ((((KeysKept.onChan s c _ (by intro _; rfl)).trans (amended _)).trans (.fold _ KeysKept.countEntry _ _)).trans
    (closed _)).trans (OnePhase.secondBase _ c).keys

theorem KeysKept.startWriting (s : State) (c : Nat) : KeysKept s (s.startWriting c) :=
  (((KeysKept.onChan s c _ (by intro _; rfl)).trans (OnePhase.startWriters (c := c) _ c).keys).trans
    (OnePhase.applyPending _ c).keys).trans (.of_moves (Moves.notify _ _))

theorem KeysKept.startChannel (s : State) (c : Nat) : KeysKept s (s.startChannel c) :=
  .ite (((KeysKept.onChan s c _ (by intro _; rfl)).trans (OnePhase.enterPhase _ c _).keys).trans
    (.of_moves (Moves.markEntries _ c _))) (.startWriting s c)

theorem KeysKept.readingSecond (s : State) (c : Nat) : KeysKept s (s.readingSecond c) := by
  unfold State.readingSecond
  have marked := (KeysKept.onChan s c (fun ch => { ch with readElapsed := ch.readElapsed + 1 }) (by intro _; rfl)).trans
    (.of_moves (Moves.readingMarks _ c))
  exact .ite (marked.trans (.startWriting _ c)) marked

theorem KeysKept.tickChannel (s : State) (c : Nat) : KeysKept s (s.tickChannel c) := by
  have attempt : KeysKept s (s.timedAttempt c) := by
    unfold State.timedAttempt
    split
    · exact (OnePhase.enterPhase s c _).keys
    · exact (KeysKept.onChan s c _ (by intro _; rfl)).trans (.of_moves (Moves.notify _ _))
  have held : KeysKept s (s.heldSecond c) := .onChan s c _ (by intro _; rfl)
  unfold State.tickChannel
  split
  · exact .ite attempt (.refl s)
  · exact .ite (.startChannel s c) (.refl s)
  · exact .ite held (.readingSecond s c)
  · exact .ite held (.writingSecond s c)
  · exact .ite held (.writingSecond s c)
  · exact .refl s

theorem KeysKept.passTick (s : State) (c : Nat) : KeysKept s (s.passTick c) :=
  ((KeysKept.of_moves (Moves.giveTick s _)).trans (.tickChannel _ c)).trans (.of_moves (Moves.giveTick _ _))

theorem KeysKept.consume (s : State) (x : Consumer) : KeysKept s (s.consume x) := by
  cases x with
  | sitting => exact .fold _ KeysKept.passTick _ s
  | seats => exact .of_moves (Moves.tickSeats s)
  | signals => exact .of_moves (Moves.tickSignals s)

theorem KeysKept.secondTick (s : State) (o : TickOrder) : KeysKept s (s.secondTick o) :=
  (KeysKept.of_moves (Moves.onTime s _)).trans (.fold _ KeysKept.consume _ _)

theorem KeysKept.judgeBad (s : State) (o : TickOrder) : KeysKept s (s.judgeBad o) := by
  have lose (t : State) : KeysKept t (t.loseReference o) := by
    have told : KeysKept t ((t.onTime fun b => { b with refState := .lost, good := 0 }).notify .refLost) :=
      (KeysKept.of_moves (Moves.onTime t _)).trans (.of_moves (Moves.notify _ _))
    exact .ite (told.trans (.secondTick _ o)) told
  unfold State.judgeBad
  split
  · exact .of_moves (Moves.onTime s _)
  · exact .ite ((KeysKept.of_moves (Moves.onTime s _)).trans (lose _)) (.of_moves (Moves.onTime s _))

theorem KeysKept.missingFirst (s : State) (o : TickOrder) : KeysKept s (s.missingFirst o) := by
  unfold State.missingFirst
  split
  · exact ((KeysKept.of_moves (Moves.onTime s _)).trans (.of_moves (Moves.onTime _ _))).trans (.judgeBad _ o)
  · exact .refl s

theorem KeysKept.missingTest (s : State) (o : TickOrder) : KeysKept s (s.missingTest o) :=
  .ite ((KeysKept.of_moves (Moves.onTime s _)).trans (.judgeBad _ o)) (.refl s)

theorem KeysKept.tickTail (s : State) (n : Nat) (o : TickOrder) : KeysKept s (s.tickTail n o) := by
  have pin (t : State) : KeysKept t (if s.time.pinDue then t.changePin else t) :=
    .ite (.of_moves (Moves.changePin t)) (.refl t)
  refine .ite ?_ (pin s)
  exact (((KeysKept.of_moves (Moves.onTime s _)).trans (.fold _ KeysKept.consume _ _)).trans (pin _)).trans
    (.fold _ KeysKept.consume _ _)

/-- The keys after a 1 ms tick are those that the commits leave. -/
theorem State.keys_tick (s : State) (low : Bool) (n : Nat) (o : TickOrder) {c : Nat} (hc : c < 16) :
    ((s.tick low n o).settle.chan c).keys = (s.chan c).tickCommit.keys := by
  obtain ⟨v, hv⟩ : ∃ v, (s.tickTime low o).tickLines.onIntake Intake.tick = v := ⟨_, rfl⟩
  have counted : s.counted low o = v.tickCommits := by rw [← hv]; rfl
  have before : KeysKept s v := by
    rw [← hv]
    exact ((KeysKept.missingFirst s o).trans (.of_moves (Moves.onTime _ _))).trans
      ((KeysKept.of_moves (Moves.tickLines _)).trans (.of_moves (Moves.intakeTick _)))
  have tick (x y : Channel) (h : x.keys = y.keys) : x.tickCommit.keys = y.tickCommit.keys := by
    obtain ⟨stage, generation, active, a, b⟩ := by simpa only [Channel.keys, Prod.mk.injEq] using h
    unfold Channel.tickCommit Channel.commit Channel.keys
    rw [stage, active]
    split
    · split
      · dsimp only
        split <;> simp [*]
      · simp [generation, a, b]
    · simp [*]
  rw [State.settle_chan, State.tick_counted, counted, KeysKept.missingTest _ o c, KeysKept.tickTail _ n o c,
    State.chan_tickCommits v hc]
  exact tick _ _ (before c)

/-- What the end of a commit leaves of the keys. -/
theorem Committed.of_keys {s t : State} {c : Nat} (h : (t.chan c).keys = (s.chan c).commit.keys) : Committed s t c := by
  obtain ⟨stage, generation, active, a, b⟩ := by simpa only [Channel.keys, Prod.mk.injEq] using h
  unfold Committed
  rw [stage, generation, active, a, b]
  unfold Channel.commit Channel.bank
  cases which : (s.chan c).active <;> simp [a, b, Channel.commit, which]

theorem State.keys_endCommit (s : State) (c : Nat) : ((s.endCommit c).chan c) = (s.chan c).commit := by
  rw [State.endCommit, State.chan_resumeSheet, State.chan_onChan, if_pos rfl]

theorem Channel.keys_tickCommit {c : Channel} {n : Nat} (running : c.stage = .running n) (last : 19 ≤ n) :
    c.tickCommit.keys = c.commit.keys := by
  have ends : c.tickCommit = { c with stage := .running (n + 1) }.commit := by
    rw [Channel.tickCommit, running]
    dsimp only
    rw [if_pos (by omega)]
  rw [ends]
  unfold Channel.commit
  cases c.active <;> rfl

/-- Settles O35, clause by clause. -/
theorem keyCommitSwapsTheBanks : Obligations.KeyCommitSwapsTheBanks := by
  intro tag c s hc
  refine ⟨fun takes used idle => ?_, fun running => ?_, fun n low at' o running last => ?_⟩
  · have answer : s.countFrame.keyCommit c = ⟨.ok, [], s.countFrame.onChan c fun ch =>
        { ch with stage := if s.countFrame.scoringResolved c then .pending else .running 0 }⟩ := by
      have free : (s.countFrame.chan c).committing = false := decide_eq_false (not_not.2 idle)
      rw [State.keyCommit, if_neg (by omega), if_neg (by exact used), free, if_neg Bool.false_ne_true, State.unless_none]
    obtain ⟨t, run, served⟩ := State.served (i := .keyCommit tag c) rfl takes answer (.onChan _ c _)
    refine ⟨t, run, served.answered, ?_, served.unchanged.weaken (by decide)⟩
    rw [served.chan, State.chan_onChan, if_pos rfl]
    rfl
  · have run : exec (.keyCommitEnd c) s = .next (s.endCommit c).settle := by
      show Host.Outcome.next (State.settle (match (s.chan c).stage with | _ => _)) = _
      rw [running]
      rfl
    have after : (s.endCommit c).settle.chan c = (s.chan c).commit := by rw [State.settle_chan, State.keys_endCommit]
    refine ⟨_, run, .of_keys (by rw [after]), ?_, (Moves.endCommit s c).frame.settle⟩
    rw [after, Channel.commit]
    cases (s.chan c).active <;> rfl
  · refine ⟨_, exec_tick1ms low at' o s, .of_keys ?_⟩
    rw [State.keys_tick s low at' o (by omega), Channel.keys_tickCommit running last]

end Sys2Proof.Machine
end

section
/-! PROOF. What the office reads: status, flags, results and histograms (R172, R176, R187, R191), and the statistics read and
cleared (R193). -/

namespace Sys2Proof.Machine

set_option Elab.async false

/-! ## A request whose answer leaves its own frame uncounted, or clears flags -/

/-- A request whose owner answers `code` and `out` and leaves `u`, by the frame alone. -/
theorem State.replied {k : List Part} {s u : State} {i : Instr} {tag kind : Byte} {f : State → Answer} {code : Code}
    {out : List Byte} (run : exec i s = .next (s.takeRequest tag kind f).settle) (h : s.takesRequest)
    (answer : f s.countFrame = ⟨code, out, u⟩) (frame : Unchanged k s.countFrame u) (h1 : .responses ∉ k := by decide) :
    ∃ t, exec i s = .next t ∧ t = (u.respond ⟨tag, kind, code, out⟩).settle ∧
      t.office.responses = s.office.responses ++ [⟨tag, kind, code, out⟩] ∧
      Unchanged (.responses :: .framesIn :: k) s t := by
  refine ⟨_, run, by rw [State.takeRequest_eq h answer], ?_, ?_⟩
  · have same : u.office.responses = s.office.responses := frame.2 .responses h1
    rw [State.takeRequest_eq h answer, State.settle_responses, State.respond_responses, same]
  · rw [State.takeRequest_eq h answer]
    refine Unchanged.settle ⟨frame.1, fun p hp => ?_⟩
    simp only [List.mem_cons, not_or] at hp
    exact Part.same_trans (Part.same_countFrame s p hp.2.1)
      (Part.same_trans (frame.2 p hp.2.2) (Part.same_respond _ _ p hp.1))

/-- A request that its owner answers with what stands. -/
theorem State.reads {s : State} {i : Instr} {tag kind : Byte} {f : State → Answer} {out : List Byte}
    (run : exec i s = .next (s.takeRequest tag kind f).settle) (h : s.takesRequest)
    (answer : f s.countFrame = ⟨.ok, out, s.countFrame⟩) :
    ∃ t, exec i s = .next t ∧ Answered s t tag kind .ok out ∧ Unchanged [.responses, .framesIn] s t := by
  obtain ⟨t, ran, served⟩ := State.served run h answer (.refl (k := []) _)
  exact ⟨t, ran, served.answered, served.unchanged⟩

/-! ## No wiring test ends at once -/

/-- No free line is TESTING, so that none ends its wiring test at once. -/
def State.noTestEnds (s : State) : Prop := ∀ l, l < 7 → (s.line l).state = .testing → (s.line l).exchange ≠ none

theorem State.office_runLine {s : State} {l : Nat} (h : (s.line l).state = .testing → (s.line l).exchange ≠ none) :
    (s.runLine l).office = s.office := by
  unfold State.runLine
  split
  · rfl
  · next free =>
    split
    · exact State.office_arbitrate s l
    · unfold State.quietStep
      split <;> simp
    · unfold State.sweepStep
      split <;> simp
    · next testing => exact absurd (Option.isSome_iff_ne_none.2 (h testing)) free

theorem State.office_runLines {s : State} (h : s.noTestEnds) : s.runLines.office = s.office := by
  have all (xs : List Nat) : xs.Nodup → ∀ t : State, t.office = s.office →
      (∀ l ∈ xs, (t.line l).state = .testing → (t.line l).exchange ≠ none) → (xs.foldl State.runLine t).office = s.office := by
    induction xs with
    | nil => exact fun _ t same _ => same
    | cons x xs ih =>
      intro nd t same quiet
      obtain ⟨fresh, nd⟩ := List.nodup_cons.1 nd
      refine ih nd (t.runLine x) ((State.office_runLine (quiet x List.mem_cons_self)).trans same) fun l hl => ?_
      rw [(LineRun.runLine t x).others l fun own => fresh (own ▸ hl)]
      exact quiet l (List.mem_cons_of_mem x hl)
  exact all _ lineNumbers_nodup s rfl fun l hl => h l ((mem_lineNumbers l).1 hl)

theorem State.settled_quiet {s : State} (h : s.noTestEnds) :
    s.settle.office.flags = s.office.flags ∧ s.settle.office.stats = s.office.stats := by
  rw [State.settle_office, State.office_runLines h]
  obtain ⟨-, -, -, -, -, flags, stats⟩ := Office.startTx_keeps { s.office with ready := s.office.ready || s.runLines.readyNow }
  exact ⟨flags, stats⟩

/-! ## Status, flags, results, histograms -/

theorem flagsCleared_frame (s : State) : Unchanged [.flags] s (s.onOffice fun o => { o with flags := [] }) := by
  refine ⟨rfl, fun p hp => ?_⟩
  cases p <;> simp_all [Part.same, State.presence]

theorem readFlags_clears (tag : Byte) (s : State) (takes : s.takesRequest) :
    ∃ t, exec (.readFlags tag) s = .next t ∧
      Answered s t tag 0x05#8 .ok (Category.all.flatMap fun c => bBool (decide (c ∈ s.office.flags))) ∧
      (∀ c, c ≠ .lineTestDone → c ≠ .noticeLost → c ∉ t.office.flags) ∧
      ((∀ l, l < 7 → (s.line l).state = .testing → (s.line l).exchange ≠ none) → t.office.flags = []) ∧
      Unchanged [.flags, .responses, .framesIn] s t := by
  obtain ⟨t, run, eq, responses, frame⟩ :=
    State.replied (i := .readFlags tag) rfl takes rfl (flagsCleared_frame s.countFrame)
  refine ⟨t, run, ⟨responses, ?_⟩, fun c h1 h2 => ?_, fun quiet => ?_, frame.weaken (by decide)⟩
  · rw [eq, State.settle_framesIn]
    rfl
  · rw [eq]
    exact fun h => absurd ((State.settle_flags _ c h1 h2).1 h) (List.not_mem_nil)
  · rw [eq, (State.settled_quiet (by exact quiet)).1]
    rfl

/-- Settles O51, request by request. -/
theorem readsReturnWhatStands : Obligations.ReadsReturnWhatStands := by
  intro tag s takes
  refine ⟨?_, readFlags_clears tag s takes, fun start => ?_, fun start most more => ?_, fun start most some few => ?_,
    fun c beyond => ?_, fun c within => ?_⟩
  · refine State.reads (i := .readStatus tag) rfl takes ?_
    show (⟨.ok, s.countFrame.statusBytes, s.countFrame⟩ : Answer) = _
    rw [State.statusBytes_eq]
    rfl
  · exact State.refused (i := .readResults tag start 0) rfl takes rfl
  · refine State.refused (i := .readResults tag start most) rfl takes ?_
    show State.readResults _ _ _ = _
    rw [State.readResults, if_neg (by omega), if_pos more]
  · refine State.reads (i := .readResults tag start most) rfl takes ?_
    show State.readResults _ _ _ = _
    rw [State.readResults, if_neg (by omega), if_neg (by omega)]
    have bytes : ResultRecord.bytes = recordPayload := funext ResultRecord.bytes_eq
    rw [bytes]
    rfl
  · refine State.refused (i := .readHistogram tag c) rfl takes ?_
    show State.readHistogram _ _ = _
    rw [State.readHistogram, if_pos beyond]
  · refine State.reads (i := .readHistogram tag c) rfl takes ?_
    show State.readHistogram _ _ = _
    rw [State.readHistogram, if_neg (by omega)]
    rfl

/-! ## Statistics -/

theorem State.clearGroup_line {l : Nat} (hl : l ≤ 6) (s : State) : s.clearGroup l = s.onStats l fun _ => LineStats.zero := by
  unfold State.clearGroup
  split
  · omega
  · omega
  · omega
  · rfl

/-- The counters of the office link all 0 (R193). -/
theorem officeCleared_frame (s : State) : Unchanged [.framesIn, .badFrames, .noticesSent, .protectedReads] s
    (s.onOffice fun o => { o with stats := ⟨0, 0, 0, 0, 0⟩ }) := by
  refine ⟨rfl, fun p hp => ?_⟩
  cases p <;> simp_all [Part.same, State.presence]

theorem Moves.sheetStats (s : State) (x : SheetStats) : Moves [.intake] s (s.onIntake fun t => { t with stats := x }) :=
  .onIntake s _ id

theorem Moves.bookletStats (s : State) (x : BookletStats) : Moves [.booklets] s { s with bookletStats := x } := by
  refine .of_fields rfl (fun p hp hq => ?_) id rfl rfl
  cases p <;> simp_all [Part.same]

/-- What STATS_CLEAR sets to 0, group by group (R193). -/
theorem State.clearGroups_eq (s : State) : statsGroups.foldl State.clearGroup s =
    ({ (lineNumbers.foldl (fun t l => t.onStats l fun _ => LineStats.zero) s).onIntake
      (fun t => { t with stats := ⟨0, 0, 0, 0, 0, 0, 0⟩ }) with bookletStats := ⟨0, 0, 0⟩ } : State).onOffice
        fun o => { o with stats := ⟨0, 0, 0, 0, 0⟩ } := rfl

theorem Unchanged.trans_widen {k k' : List Part} {s t u : State} (h : Unchanged k s t) (g : Unchanged k' t u)
    {both : List Part} (sub : ∀ p ∈ k, p ∈ both := by decide) (sub' : ∀ p ∈ k', p ∈ both := by decide) :
    Unchanged both s u :=
  ⟨g.1.trans h.1, fun p hp => Part.same_trans (h.2 p fun i => hp (sub p i)) (g.2 p fun i => hp (sub' p i))⟩

theorem stats_fold (s : State) {l : Nat} (hl : l < 7) :
    (lineNumbers.foldl (fun t l => t.onStats l fun _ => LineStats.zero) s).line l =
      { s.line l with stats := LineStats.zero } :=
  foldl_split (fun (t : State) l => t.onStats l fun _ => LineStats.zero) l (fun t => t.line l = s.line l)
    (fun t => t.line l = { s.line l with stats := LineStats.zero })
    (fun t m other h => by rw [State.onStats, State.line_onLine, if_neg other, h])
    (fun t h => by rw [State.onStats, State.line_onLine, if_pos rfl, h])
    (fun t m other h => by rw [State.onStats, State.line_onLine, if_neg other, h])
    lineNumbers lineNumbers_nodup ((mem_lineNumbers l).2 hl) s rfl

theorem statsClear_clears (tag : Byte) (s : State) (takes : s.takesRequest) : ∃ t, exec (.statsClear tag) s = .next t ∧
    t.office.responses = s.office.responses ++ [⟨tag, 0x03#8, .ok, []⟩] ∧ t.office.stats.framesIn = 0 ∧
    t.office.stats.badFrames = 0 ∧ t.office.stats.noticesSent = 0 ∧ t.office.stats.protectedReads = 0 ∧
    (s.noTestEnds → t.office.stats.noticesDropped = 0) ∧
    (∀ l, l < 7 → (s.line l).exchange ≠ none → (t.line l).stats = ⟨0, 0, 0, 0, 0, 0, 0, 0, 0⟩) ∧
    t.intake.stats = ⟨0, 0, 0, 0, 0, 0, 0⟩ ∧ t.bookletStats = ⟨0, 0, 0⟩ ∧
    t.intake.slots = s.intake.slots ∧ t.booklets = s.booklets ∧
    Unchanged [.intake, .booklets, .responses, .framesIn, .badFrames, .noticesSent, .protectedReads] s t := by
  obtain ⟨v, hv⟩ : ∃ v, lineNumbers.foldl (fun (t : State) l => t.onStats l fun _ => LineStats.zero) s.countFrame = v :=
    ⟨_, rfl⟩
  have lines : Moves [] s.countFrame v := by
    rw [← hv]
    exact .fold _ (fun t l => .onStats t l _) _ _
  have quiet : s.noTestEnds → v.noTestEnds := fun h l hl => by
    rw [← hv, stats_fold s.countFrame hl]
    exact h l hl
  obtain ⟨t, run, eq, responses, frame⟩ := State.replied (i := .statsClear tag) rfl takes
    (congrArg State.done ((State.clearGroups_eq s.countFrame).trans (by rw [hv])))
    ((((lines.widen (k := [.intake, .booklets])).next (.sheetStats _ _)).next (.bookletStats _ _)).frame.trans_widen
      (officeCleared_frame _) (both := [.intake, .booklets, .framesIn, .badFrames, .noticesSent, .protectedReads]))
  refine ⟨t, run, responses, ?_, ?_, ?_, ?_, fun h => ?_, fun l hl busy => ?_, ?_, ?_, ?_, ?_, frame.weaken (by decide)⟩
  · rw [eq, State.settle_framesIn]; rfl
  · rw [eq, State.settle_badFrames]; rfl
  · rw [eq, State.settle_noticesSent]; rfl
  · rw [eq, State.settle_protectedReads]; rfl
  · rw [eq, (State.settled_quiet (by exact quiet h)).2]; rfl
  · have line : v.line l = { s.line l with stats := LineStats.zero } := by rw [← hv, stats_fold s.countFrame hl]; rfl
    rw [eq, State.settle_busy (by show (v.line l).exchange ≠ none; rw [line]; exact busy)]
    show (v.line l).stats = _
    rw [line]; rfl
  · rw [eq, State.settle_sheetStats]; rfl
  · rw [eq, State.settle_bookletStats]; rfl
  · rw [eq, State.settle_slots]
    exact (lines.frame.2 .intake (by decide)).2.1
  · rw [eq, State.settle_booklets]
    exact (lines.frame.2 .booklets (by decide)).1

theorem readStats_clears {g : Nat} (hg : g ≤ 9) (s : State) (clear : Bool) :
    s.countFrame.readStats g clear = ⟨.ok, countersAnswered s g, if clear then s.countFrame.clearGroup g else s.countFrame⟩ := by
  rw [State.readStats, if_neg (by omega), State.groupBytes_eq]

/-- Settles O52, group by group. -/
theorem statisticsAreReadAndCleared : Obligations.StatisticsAreReadAndCleared := by
  intro tag s takes quiet
  refine ⟨fun g beyond clear => ?_, fun g hg => ?_, fun l hl => ?_, ?_, ?_, ?_, statsClear_clears tag s takes⟩
  · exact State.refused (i := .readStats tag g clear) rfl takes (if_pos beyond)
  · exact State.reads (i := .readStats tag g false) rfl takes (readStats_clears hg s false)
  · have cleared := (readStats_clears (g := l) (by omega) s true).trans
      (congrArg (Answer.mk .ok (countersAnswered s l)) (State.clearGroup_line hl s.countFrame))
    obtain ⟨t, run, served⟩ := State.served (i := .readStats tag l true) rfl takes cleared (.onStats _ l _)
    refine ⟨t, run, served.answered, fun busy => ?_, fun m other busy => ?_, served.unchanged⟩
    · rw [served.eq, State.settle_busy (by simpa [State.onStats] using busy)]
      simp [State.onStats, LineStats.zero]
    · rw [served.eq, State.settle_busy (by simpa [State.onStats, Ne.symm other] using busy)]
      simp [State.onStats, Ne.symm other]
  · obtain ⟨t, run, served⟩ := State.served (i := .readStats tag 7 true) rfl takes
      (readStats_clears (by decide) s true) (.sheetStats _ _)
    refine ⟨t, run, served.answered.1, ?_, ?_, served.unchanged.weaken (by decide)⟩
    · rw [served.eq, State.settle_sheetStats]; rfl
    · exact (served.unchanged.2 .booklets (by decide)).2
  · obtain ⟨t, run, served⟩ := State.served (i := .readStats tag 8 true) rfl takes
      (readStats_clears (by decide) s true) (.bookletStats _ _)
    refine ⟨t, run, served.answered, ?_, ?_, ?_, served.unchanged.weaken (by decide)⟩
    · rw [served.eq, State.settle_bookletStats]; rfl
    · rw [served.eq, State.settle_booklets]; rfl
    · exact (served.unchanged.2 .intake (by decide)).2.2.2.2.2
  · obtain ⟨t, run, eq, responses, frame⟩ := State.replied (i := .readStats tag 9 true) rfl takes
      (readStats_clears (by decide) s true) (officeCleared_frame _)
    refine ⟨t, run, responses, ?_, ?_, ?_, ?_, fun h => ?_, frame.weaken (by decide)⟩
    · rw [eq, State.settle_framesIn]; rfl
    · rw [eq, State.settle_badFrames]; rfl
    · rw [eq, State.settle_noticesSent]; rfl
    · rw [eq, State.settle_protectedReads]; rfl
    · rw [eq, (State.settled_quiet (by exact h)).2]; rfl

end Sys2Proof.Machine
end

section
/-! PROOF. Desk messages (R112, R185): what a run of notes leaves in the FIFOs, and the counts of the notes queued and
dropped. -/

namespace Sys2Proof.Machine

set_option Elab.async false

/-! ## Notes queued one after another -/

/-- The places free in the FIFO of a line; none while it is QUIET (R112). -/
def Line.room (n : Line) : Nat := if n.state = .quiet then 0 else 16 - n.fifo.length

theorem Line.takesNote_iff (n : Line) : n.takesNote = true ↔ 0 < n.room := by
  unfold Line.takesNote Line.room
  simp only [Bool.and_eq_true, decide_eq_true_eq]
  by_cases quiet : n.state = .quiet
  · simp [quiet]
  · rw [if_neg quiet]
    exact ⟨fun h => Nat.sub_pos_of_lt h.2, fun h => ⟨quiet, Nat.lt_of_sub_pos h⟩⟩

/-- What one note leaves of its line, where it is queued and where it is dropped (R112). -/
theorem Line.queueNote_spec (n : Line) (a : Nat) (x : NoteContent) :
    (n.queueNote a x).state = n.state ∧ (n.queueNote a x).exchange = n.exchange ∧
      (n.queueNote a x).room = n.room - 1 ∧
      (n.queueNote a x).fifo = n.fifo ++ if n.takesNote then [⟨a, x⟩] else [] := by
  unfold Line.queueNote
  by_cases takes : n.takesNote = true
  · have some := n.takesNote_iff.1 takes
    unfold Line.room at some ⊢
    rw [if_pos takes, if_pos takes]
    refine ⟨rfl, rfl, ?_, rfl⟩
    split at some
    · exact absurd some (Nat.lt_irrefl 0)
    · next working =>
      rw [if_neg (by exact working), if_neg working, List.length_append, List.length_singleton]
      omega
  · have full : ¬0 < n.room := fun h => takes (n.takesNote_iff.2 h)
    rw [if_neg takes, if_neg takes]
    refine ⟨rfl, rfl, ?_, by simp⟩
    show n.room = n.room - 1
    omega

/-- The sum of a count over the lines when it is one more at line `l`. -/
theorem sum_range_add_single (N l δ : Nat) (hl : l < N) {f g : Nat → Nat} (same : ∀ i, i ≠ l → f i = g i)
    (more : f l = g l + δ) : ((List.range N).map f).sum = ((List.range N).map g).sum + δ := by
  have sums (h : Nat → Nat) : ((List.range N).map h).sum = ∑ i ∈ Finset.range N, h i := rfl
  have rest : ∑ i ∈ (Finset.range N).erase l, f i = ∑ i ∈ (Finset.range N).erase l, g i :=
    Finset.sum_congr rfl fun i hi => same i (Finset.ne_of_mem_erase hi)
  have mem := Finset.mem_range.2 hl
  have left : f l + ∑ i ∈ (Finset.range N).erase l, f i = _ := Finset.add_sum_erase _ f mem
  have right : g l + ∑ i ∈ (Finset.range N).erase l, g i = _ := Finset.add_sum_erase _ g mem
  rw [sums, sums, ← left, ← right, more, rest]
  omega

/-- The addresses of the notes of a run that go to line `l`. -/
def notesTo (ps : List (Nat × Nat)) (l : Nat) : List Nat := (ps.filter fun p => decide (p.1 = l)).map Prod.snd

theorem notesTo_cons (p : Nat × Nat) (ps : List (Nat × Nat)) (l : Nat) :
    notesTo (p :: ps) l = if p.1 = l then p.2 :: notesTo ps l else notesTo ps l := by
  unfold notesTo
  by_cases own : p.1 = l <;> simp [own]

/-- What a run of notes leaves: in each FIFO those that found room, and their counts over the lines. -/
theorem queueOne_run (x : NoteContent) (N : Nat) (ps : List (Nat × Nat)) (within : ∀ p ∈ ps, p.1 < N) (s : State)
    (q d : Nat) :
    let r := ps.foldl (queueOne x) (s, q, d)
    (∀ l, (r.1.line l).exchange = (s.line l).exchange ∧ (r.1.line l).fifo = (s.line l).fifo ++
      ((notesTo ps l).take (s.line l).room).map fun a => ⟨a, x⟩) ∧
      r.2.1 = q + ((List.range N).map fun l => min (s.line l).room (notesTo ps l).length).sum ∧
      r.2.1 + r.2.2 = q + d + ps.length := by
  induction ps generalizing s q d with
  | nil =>
    refine ⟨fun l => ⟨rfl, by simp [notesTo]⟩, ?_, rfl⟩
    simp [notesTo]
  | cons p ps ih =>
    obtain ⟨l, a⟩ := p
    have hl : l < N := within (l, a) List.mem_cons_self
    obtain ⟨lines, queued, total⟩ := ih (fun p h => within p (List.mem_cons_of_mem _ h)) (s.queueNote l a x)
      (if (s.line l).takesNote then q + 1 else q) (if (s.line l).takesNote then d else d + 1)
    obtain ⟨-, exchange, room, fifo⟩ := (s.line l).queueNote_spec a x
    have here : (s.queueNote l a x).line l = (s.line l).queueNote a x := by rw [State.queueNote, State.line_onLine, if_pos rfl]
    have apart {m : Nat} (other : m ≠ l) : (s.queueNote l a x).line m = s.line m := by
      rw [State.queueNote, State.line_onLine, if_neg (Ne.symm other)]
    have takes := (s.line l).takesNote_iff
    refine ⟨fun m => ?_, ?_, ?_⟩
    · obtain ⟨idle, left⟩ := lines m
      refine ⟨idle.trans ?_, left.trans ?_⟩
      · by_cases own : m = l
        · rw [own, here, exchange]
        · rw [apart own]
      · rw [notesTo_cons]
        by_cases own : m = l
        · rw [own, here, fifo, room, if_pos rfl, List.append_assoc]
          congr 1
          by_cases some : 0 < (s.line l).room
          · rw [if_pos (takes.2 some)]
            obtain ⟨n, hn⟩ : ∃ n, (s.line l).room = n + 1 := ⟨_, (Nat.succ_pred_eq_of_pos some).symm⟩
            simp [hn]
          · rw [if_neg fun h => some (takes.1 h), Nat.eq_zero_of_not_pos some]
            simp
        · rw [apart own, if_neg (Ne.symm own)]
    · refine queued.trans ?_
      have moved := sum_range_add_single N l (if (s.line l).takesNote then 1 else 0) hl
        (f := fun m => min (s.line m).room (notesTo ((l, a) :: ps) m).length)
        (g := fun m => min ((s.queueNote l a x).line m).room (notesTo ps m).length)
        (fun m other => by simp only [notesTo_cons, apart other, if_neg (Ne.symm other)])
        (by
          simp only [notesTo_cons, here, room, if_true, List.length_cons]
          split
          · next some => have := takes.1 some; omega
          · next full => have : ¬0 < (s.line l).room := fun h => full (takes.2 h); omega)
      rw [moved]
      split <;> omega
    · refine total.trans ?_
      rw [List.length_cons]
      split <;> omega

/-! ## The seats OCCUPIED by a channel -/

theorem mapKeys_pairwise {α : Type} {m : PMap α} {a : Nat} (h : mapRises a m = true) :
    (mapKeys m).Pairwise (· < ·) ∧ ∀ k ∈ mapKeys m, a ≤ k := by
  induction m generalizing a with
  | nil => exact ⟨List.Pairwise.nil, fun k hk => nomatch hk⟩
  | cons p m ih =>
    obtain ⟨i, v⟩ := p
    simp only [mapRises, Bool.and_eq_true, decide_eq_true_eq] at h
    obtain ⟨rises, above⟩ := ih h.2
    refine ⟨List.pairwise_cons.2 ⟨fun k hk => above k hk, rises⟩, fun k hk => ?_⟩
    rcases List.mem_cons.1 hk with rfl | hk
    · exact h.1
    · exact Nat.le_trans h.1 (Nat.le_of_lt (above k hk))

theorem State.seats_rises {s : State} (canonical : s.canonical = true) : mapRises 0 s.seats = true := by
  simp only [State.canonical, canon, Bool.and_eq_true] at canonical
  tauto

theorem State.mem_seatedOf {s : State} (canonical : s.canonical = true) (c i : Nat) :
    i ∈ s.seatedOf c ↔ s.occupiedBy i c = true := by
  unfold State.seatedOf State.occupiedBy
  simp only [List.mem_map, List.mem_filter]
  constructor
  · rintro ⟨p, ⟨mem, sits⟩, rfl⟩
    have found : s.seat p.1 = p.2 := by
      rw [State.seat, tabGet, mapGet_of_mem (State.seats_rises canonical) mem]
      rfl
    rw [found]
    exact sits
  · intro sits
    cases found : mapGet s.seats i with
    | none =>
      have blank : s.seat i = Seat.blank := by rw [State.seat, tabGet, found]; rfl
      rw [blank] at sits
      exact absurd sits Bool.false_ne_true
    | some x =>
      have same : s.seat i = x := by rw [State.seat, tabGet, found]; rfl
      rw [same] at sits
      exact ⟨(i, x), ⟨mapGet_mem found, sits⟩, rfl⟩

/-- The addresses at line `l` of the seats OCCUPIED by a channel, ascending (R185). -/
theorem State.notesTo_seatedOf {s : State} (canonical : s.canonical = true) (c l : Nat) :
    notesTo ((s.seatedOf c).map fun i => (seatLine i, seatAddr i)) l =
      ((List.range 64).filter fun j => s.occupiedBy (64 * l + j) c).map (· + 1) := by
  have here : (s.seatedOf c).filter (fun i => decide (seatLine i = l)) =
      ((List.range 64).filter fun j => s.occupiedBy (64 * l + j) c).map (64 * l + ·) := by
    have ascending : ((s.seatedOf c).filter fun i => decide (seatLine i = l)).Pairwise (· < ·) :=
      (mapKeys_pairwise (mapRises_filter _ (State.seats_rises canonical))).1.filter _
    have desks : (((List.range 64).filter fun j => s.occupiedBy (64 * l + j) c).map (64 * l + ·)).Pairwise (· < ·) :=
      List.pairwise_map.2 ((List.pairwise_lt_range.filter _).imp fun h => Nat.add_lt_add_left h _)
    refine ascending.sortedLT.eq_of_mem_iff desks.sortedLT fun i => ?_
    simp only [List.mem_filter, List.mem_map, List.mem_range, decide_eq_true_eq, State.mem_seatedOf canonical]
    constructor
    · rintro ⟨sits, line⟩
      have line : i / 64 = l := line
      refine ⟨i % 64, ⟨Nat.mod_lt i (by decide), ?_⟩, by omega⟩
      have same : 64 * l + i % 64 = i := by omega
      rwa [same]
    · rintro ⟨j, ⟨small, sits⟩, rfl⟩
      exact ⟨sits, show (64 * l + j) / 64 = l by omega⟩
  have pick (xs : List Nat) : notesTo (xs.map fun i => (seatLine i, seatAddr i)) l =
      (xs.filter fun i => decide (seatLine i = l)).map seatAddr := by
    rw [notesTo, List.filter_map, List.map_map]
    rfl
  rw [pick, here, List.map_map]
  refine List.map_congr_left fun j hj => ?_
  have small : j < 64 := List.mem_range.1 (List.mem_of_mem_filter hj)
  show (64 * l + j) % 64 + 1 = j + 1
  omega

/-! ## Desk messages -/

/-- A desk message whose target calls for the notes `ps`, all on lines below `N`. -/
theorem State.message_goes {tag : Byte} {target : DeskTarget} {m : Nat} {s : State} {ps : List (Nat × Nat)}
    (takes : s.takesRequest) (hm : m ≤ 63) (targets : s.countFrame.messageTargets target = .ok ps) (N : Nat)
    (within : ∀ p ∈ ps, p.1 < N) : ∃ t q d, exec (.deskMessage tag target m) s = .next t ∧
      Answered s t tag 0x0A#8 .ok (be 2 q ++ be 2 d) ∧
      q = ((List.range N).map fun l => min (s.line l).room (notesTo ps l).length).sum ∧ q + d = ps.length ∧
      (∀ l, (s.line l).exchange ≠ none → (t.line l).fifo = (s.line l).fifo ++
        ((notesTo ps l).take (s.line l).room).map fun a => ⟨a, .message (s.message m)⟩) ∧
      Unchanged [.responses, .framesIn] s t := by
  obtain ⟨r, hr⟩ : ∃ r, ps.foldl (queueOne (.message (s.message m))) (s.countFrame, 0, 0) = r := ⟨_, rfl⟩
  have answer : s.countFrame.deskMessage target m = ⟨.ok, be 2 r.2.1 ++ be 2 r.2.2, r.1⟩ := by
    rw [State.deskMessage, if_neg (by omega), targets, ← hr]
    rfl
  have moves := Moves.deskMessage s.countFrame target m
  rw [answer] at moves
  obtain ⟨t, run, served⟩ := State.served (i := .deskMessage tag target m) rfl takes answer moves
  have all := queueOne_run (.message (s.message m)) N ps within s.countFrame 0 0
  rw [hr] at all
  obtain ⟨lines, queued, total⟩ := all
  refine ⟨t, r.2.1, r.2.2, run, served.answered, queued.trans (Nat.zero_add _), total.trans (Nat.zero_add _),
    fun l busy => ?_, served.unchanged⟩
  obtain ⟨exchange, fifo⟩ := lines l
  rw [served.eq, State.settle_busy (by rw [State.line_respond, exchange]; exact busy)]
  exact fifo

theorem State.message_refused {tag : Byte} {target : DeskTarget} {m : Nat} {s : State} {code : Code}
    (takes : s.takesRequest) (hm : m ≤ 63) (targets : s.countFrame.messageTargets target = .error code) :
    Refuses s (.deskMessage tag target m) tag 0x0A#8 code := by
  refine State.refused (i := .deskMessage tag target m) rfl takes ?_
  show State.deskMessage _ _ _ = _
  rw [State.deskMessage, if_neg (by omega), targets]

theorem Line.take_one (n : Line) (a : Nat) (x : NoteContent) :
    ([a].take n.room).map (fun a => (⟨a, x⟩ : Note)) = if n.takesNote then [⟨a, x⟩] else [] := by
  by_cases some : 0 < n.room
  · rw [if_pos (n.takesNote_iff.2 some), List.take_of_length_le (by exact some)]
    rfl
  · rw [if_neg fun h => some (n.takesNote_iff.1 h), Nat.eq_zero_of_not_pos some]
    rfl

/-- A desk message with one note. -/
theorem State.message_one {tag : Byte} {target : DeskTarget} {m l a : Nat} {s : State} (takes : s.takesRequest)
    (hm : m ≤ 63) (targets : s.countFrame.messageTargets target = .ok [(l, a)]) : MessageGoes s tag target m l a := by
  obtain ⟨t, q, d, run, answered, queued, total, fifo, frame⟩ :=
    State.message_goes (tag := tag) takes hm targets (l + 1) (by simp)
  have own : notesTo [(l, a)] l = [a] := by simp [notesTo]
  have apart {i : Nat} (other : i ≠ l) : notesTo [(l, a)] i = [] := by simp [notesTo, Ne.symm other]
  have one := sum_range_add_single (l + 1) l (min (s.line l).room 1) (Nat.lt_succ_self l)
    (f := fun i => min (s.line i).room (notesTo [(l, a)] i).length) (g := fun _ => 0)
    (fun i other => by simp [apart other]) (by simp [own])
  have count : q = min (s.line l).room 1 := by rw [queued, one]; simp
  have takesNote := (s.line l).takesNote_iff
  have length : q + d = 1 := total
  refine ⟨t, run, ?_, fun busy => ?_, frame⟩
  · by_cases some : 0 < (s.line l).room
    · have hq : q = 1 := by omega
      have hd : d = 0 := by omega
      rw [if_pos (takesNote.2 some)]
      rwa [hq, hd] at answered
    · have hq : q = 0 := by omega
      have hd : d = 1 := by omega
      rw [if_neg fun h => some (takesNote.1 h)]
      rwa [hq, hd] at answered
  · rw [fifo l busy, own, Line.take_one]

/-- The notes of a run go each to one line. -/
theorem sum_notesTo (N : Nat) (ps : List (Nat × Nat)) (within : ∀ p ∈ ps, p.1 < N) :
    ((List.range N).map fun l => (notesTo ps l).length).sum = ps.length := by
  induction ps with
  | nil => simp [notesTo]
  | cons p ps ih =>
    rw [List.length_cons, ← ih fun p h => within p (List.mem_cons_of_mem _ h)]
    exact sum_range_add_single N p.1 1 (within p List.mem_cons_self)
      (fun l other => by rw [notesTo_cons, if_neg (Ne.symm other)]) (by rw [notesTo_cons, if_pos rfl, List.length_cons])

theorem length_filter_eq_sum (p : Nat → Bool) (f : Nat → Nat) (same : ∀ i, f i = if p i then 1 else 0) (xs : List Nat) :
    (xs.map f).sum = (xs.filter p).length := by
  induction xs with
  | nil => rfl
  | cons x xs ih =>
    rw [List.map_cons, List.sum_cons, ih, same, List.filter_cons]
    split <;> simp [Nat.add_comm]

theorem notesTo_hall {l : Nat} (hl : l < 7) : notesTo (lineNumbers.map fun i => (i, 0)) l = [0] := by
  interval_cases l <;> rfl

/-- Settles O54, target by target. -/
theorem deskMessageCountsItsNotes : Obligations.DeskMessageCountsItsNotes := by
  intro tag target m s takes text
  refine ⟨fun beyond => ?_, fun hm => ?_, fun hm i => ⟨fun beyond => ?_, fun hi unused => ?_, fun hi used => ?_⟩,
    fun hm l => ⟨fun beyond => ?_, fun hl => ?_⟩, fun hm c => ⟨fun beyond => ?_, fun hc canonical bound => ?_⟩⟩
  · exact State.refused (i := .deskMessage tag target m) rfl takes (if_pos beyond)
  · obtain ⟨t, q, d, run, answered, queued, total, fifo, frame⟩ := State.message_goes (tag := tag) (target := .hall) takes hm
      rfl 7 (by decide)
    refine ⟨t, q, d, run, answered, total, ?_, fun l hl busy => ?_, frame⟩
    · rw [queued, ← length_filter_eq_sum _ (fun l => if (s.line l).takesNote then 1 else 0) fun _ => rfl]
      refine congrArg List.sum (List.map_congr_left fun l hl => ?_)
      have takesNote := (s.line l).takesNote_iff
      rw [notesTo_hall (List.mem_range.1 hl), List.length_singleton]
      split
      · next some => have := takesNote.1 some; omega
      · next full => have : ¬0 < (s.line l).room := fun h => full (takesNote.2 h); omega
    · rw [fifo l busy, notesTo_hall hl, Line.take_one]
  · exact State.message_refused takes hm (if_pos beyond)
  · exact State.message_refused takes hm ((if_neg (by omega)).trans (if_pos unused))
  · exact State.message_one takes hm ((if_neg (by omega)).trans (if_neg (by rw [Bool.not_eq_false]; exact used)))
  · exact State.message_refused takes hm (if_pos beyond)
  · exact State.message_one takes hm (if_neg (by omega))
  · exact State.message_refused takes hm (if_pos beyond)
  · intro desks room
    have canonical' : s.countFrame.canonical = true := canonical
    have addressed (l : Nat) : notesTo ((s.countFrame.seatedOf c).map fun i => (seatLine i, seatAddr i)) l = (desks l).map (· + 1) :=
      State.notesTo_seatedOf canonical' c l
    have within : ∀ p ∈ (s.countFrame.seatedOf c).map (fun i => (seatLine i, seatAddr i)), p.1 < 6 := by
      intro p hp
      obtain ⟨i, hi, rfl⟩ := List.mem_map.1 hp
      have sits : s.occupiedBy i c = true := (State.mem_seatedOf canonical' c i).1 hi
      have small : i < 384 := by
        by_contra big
        have none := bound i (by omega)
        unfold State.occupiedBy at sits
        split at sits
        · next k occ => rw [occ] at none; cases none
        · cases sits
      show i / 64 < 6
      omega
    obtain ⟨t, q, d, run, answered, queued, total, fifo, frame⟩ := State.message_goes (tag := tag) (target := .channel c)
      takes hm (if_neg (by omega)) 6 within
    refine ⟨t, q, d, run, answered, ?_, ?_, fun l hl busy => ?_, frame⟩
    · rw [queued]
      refine congrArg List.sum (List.map_congr_left fun l hl => ?_)
      rw [addressed, List.length_map]
      rfl
    · rw [total, ← sum_notesTo 6 _ within]
      refine congrArg List.sum (List.map_congr_left fun l hl => ?_)
      rw [addressed, List.length_map]
    · rw [fifo l busy, addressed, ← List.map_take, List.map_map]
      rfl

end Sys2Proof.Machine
end

section
/-! PROOF. RESET_SITTINGS (R194): what it leaves of the tables, and of the lines through what follows at once. -/

namespace Sys2Proof.Machine

set_option Elab.async false

/-! ## A table with every entry changed -/

theorem tabGet_tabMap {α : Type} [DecidableEq α] {d : α} {m : PMap α} (rises : mapRises 0 m = true) {f : α → α}
    (blank : f d = d) (i : Nat) : tabGet d (tabMap d f m) i = f (tabGet d m i) := by
  have rises' : mapRises 0 (tabMap d f m) = true := mapRises_filter _ (mapRises_map (fun p => f p.2) rises)
  have mem (w : α) : (i, w) ∈ tabMap d f m ↔ (∃ v, (i, v) ∈ m ∧ f v = w) ∧ w ≠ d := by
    simp only [tabMap, List.mem_filter, List.mem_map, decide_eq_true_eq, Prod.mk.injEq, Prod.exists]
    constructor
    · rintro ⟨⟨j, v, hv, rfl, rfl⟩, h⟩
      exact ⟨⟨v, hv, rfl⟩, h⟩
    · rintro ⟨⟨v, hv, rfl⟩, h⟩
      exact ⟨⟨i, v, hv, rfl, rfl⟩, h⟩
  unfold tabGet
  cases after : mapGet (tabMap d f m) i with
  | some w =>
    obtain ⟨⟨v, hv, fv⟩, -⟩ := (mem w).1 (mapGet_mem after)
    rw [mapGet_of_mem rises hv]
    exact fv.symm
  | none =>
    cases before : mapGet m i with
    | none => exact blank.symm
    | some v =>
      by_contra other
      have listed := (mem (f v)).2 ⟨⟨v, mapGet_mem before, rfl⟩, fun h => other h.symm⟩
      rw [mapGet_of_mem rises' listed] at after
      cases after

theorem State.channels_rises {s : State} (canonical : s.canonical = true) : mapRises 0 s.channels = true := by
  simp only [State.canonical, canon, Bool.and_eq_true] at canonical
  tauto

/-! ## The counters of a line whose marks are empty -/

/-- From `s` to `t` the counters of line `l` have kept all but the polls and the notes sent. -/
def SentOnly (l : Nat) (s t : State) : Prop :=
  ∃ p n, (t.line l).stats = { (s.line l).stats with polls := p, notesSent := n }

theorem SentOnly.refl {l : Nat} (s : State) : SentOnly l s s := ⟨_, _, rfl⟩

theorem SentOnly.trans {l : Nat} {s t u : State} (h : SentOnly l s t) (g : SentOnly l t u) : SentOnly l s u := by
  obtain ⟨p, n, h⟩ := h
  obtain ⟨p', n', g⟩ := g
  exact ⟨p', n', by rw [g, h]⟩

theorem SentOnly.of_stats {l : Nat} {s t : State} (h : (t.line l).stats = (s.line l).stats) : SentOnly l s t :=
  ⟨_, _, h.trans rfl⟩

theorem SentOnly.of_poll {l : Nat} {s t : State} (h : (t.line l).stats = (s.line l).stats.poll) : SentOnly l s t :=
  ⟨_, _, h.trans rfl⟩

theorem SentOnly.of_note {l : Nat} {s t : State} (h : (t.line l).stats = (s.line l).stats.note) : SentOnly l s t :=
  ⟨_, _, h.trans rfl⟩

section
variable (s : State) (l : Nat)

theorem SentOnly.sendPoll (a : Nat) : SentOnly l s (s.sendPoll l a) :=
  .of_poll (by simp [State.sendPoll, State.send, State.onStats, State.onAddr, Line.onAddr])

theorem SentOnly.pollStep : SentOnly l s (s.pollStep l) := by
  unfold State.pollStep
  dsimp only
  split
  · exact .sendPoll s l _
  · split
    · exact .of_poll (by simp [State.sendDiscovery, State.send, State.onStats, State.onAddr, Line.onAddr])
    · split
      · exact .sendPoll s l _
      · exact .refl s

/-- With no mark to serve the arbiter sends a poll or a note. -/
theorem SentOnly.arbitrate (unmarked : (s.line l).marks = []) : SentOnly l s (s.arbitrate l) := by
  have none : s.markServed l = none := by
    unfold State.markServed
    rw [unmarked]
    split <;> rfl
  unfold State.arbitrate
  split
  · exact .sendPoll s l _
  · rw [none]
    dsimp only
    unfold State.noteStep
    split
    · exact .of_note (by simp [State.send, State.onStats])
    · refine SentOnly.trans (.of_stats ?_) (.pollStep _ l)
      simp

/-- A line with no mark, none of whose seats is HELD or OCCUPIED, sends no CLOCK frame when it goes on. -/
theorem SentOnly.runLine (unmarked : (s.line l).marks = []) (unused : s.usedSeats l = []) : SentOnly l s (s.runLine l) := by
  unfold State.runLine
  split
  · exact .refl s
  · split
    · exact .arbitrate s l unmarked
    · unfold State.quietStep
      split
      · exact .of_note (by simp [State.send, State.onStats, Line.flush])
      · exact .refl s
    · unfold State.sweepStep
      split
      · exact .of_poll (by simp [State.send, State.onStats])
      · have swept : ((s.endSweep l).line l).marks = [] ∧ ((s.endSweep l).line l).stats = (s.line l).stats := by
          unfold State.endSweep
          rw [unused]
          dsimp only
          split <;> simp [State.restartInterval, unmarked]
        exact (SentOnly.of_stats swept.2).trans (.arbitrate _ l swept.1)
    · unfold State.testStep
      dsimp only
      split
      · exact .of_stats (by simp [State.send])
      · have ended : ((s.endTest l).line l).marks = [] ∧ ((s.endTest l).line l).stats = (s.line l).stats := by
          simp [State.endTest, State.restartInterval, unmarked]
        exact (SentOnly.of_stats ended.2).trans (.arbitrate _ l ended.1)

end

/-- A run over the lines, each step of which changes its own line alone, leaves every other line. -/
theorem lines_beyond {f : State → Nat → State} (own : ∀ t l m, m ≠ l → (f t l).line m = t.line m) (s : State) {l : Nat}
    (hl : 7 ≤ l) : (lineNumbers.foldl f s).line l = s.line l := by
  have all (xs : List Nat) (apart : ∀ m ∈ xs, l ≠ m) (t : State) : (xs.foldl f t).line l = t.line l := by
    induction xs generalizing t with
    | nil => rfl
    | cons m xs ih =>
      rw [List.foldl_cons, ih fun n hn => apart n (List.mem_cons_of_mem _ hn)]
      exact own t m l (apart m List.mem_cons_self)
  exact all lineNumbers (fun m hm same => absurd ((mem_lineNumbers m).1 hm) (by omega)) s

theorem State.settle_beyond (s : State) {l : Nat} (hl : 7 ≤ l) : s.settle.line l = s.line l := by
  rw [State.line_settle]
  exact lines_beyond (fun t l => (LineRun.runLine t l).others) s hl

theorem State.told_settle (s : State) (k : Nat) (h : mapGet s.warnings k = none) : mapGet s.settle.warnings k = none := by
  rw [State.warnings_settle]
  exact foldl_invariant (fun t : State => mapGet t.warnings k = none) State.runLine
    (fun t m g => (LineRun.runLine t m).told k g) lineNumbers s h

/-! ## The lines at RESET_SITTINGS (R122) -/

/-- A line at RESET_SITTINGS. -/
def Line.blanked (n : Line) : Line := if n.state = .active then { n.flush with fifo := [⟨0, .blank⟩] } else n.flush

theorem State.line_blankLine (s : State) (l m : Nat) :
    (s.blankLine l).line m = if l = m then (s.line l).blanked else s.line m := by
  unfold State.blankLine Line.blanked
  dsimp only
  by_cases active : (s.line l).state = .active
  · rw [if_pos active, if_pos active, State.queueNote, State.line_onLine, State.line_onLine, State.line_onLine, if_pos rfl]
    split
    · have takes : (s.line l).flush.takesNote = true := by simp [Line.takesNote, Line.flush, active, Config.fifoSize]
      rw [Line.queueNote, if_pos takes]
      rfl
    · rfl
  · rw [if_neg active, if_neg active, State.line_onLine]

theorem State.lines_blanked (s : State) {l : Nat} (hl : l < 7) :
    (lineNumbers.foldl State.blankLine s).line l = (s.line l).blanked :=
  foldl_split State.blankLine l (fun t => t.line l = s.line l) (fun t => t.line l = (s.line l).blanked)
    (fun t m other h => by rw [State.line_blankLine, if_neg other, h])
    (fun t h => by rw [State.line_blankLine, if_pos rfl, h])
    (fun t m other h => by rw [State.line_blankLine, if_neg other, h])
    lineNumbers lineNumbers_nodup ((mem_lineNumbers l).2 hl) s rfl

theorem State.lines_blanked_beyond (s : State) {l : Nat} (hl : 7 ≤ l) :
    (lineNumbers.foldl State.blankLine s).line l = s.line l :=
  lines_beyond (fun t l m other => by rw [State.line_blankLine, if_neg (Ne.symm other)]) s hl

theorem Line.blanked_spec (n : Line) : n.blanked.marks = [] ∧ n.blanked.state = n.state ∧ n.blanked.stats = n.stats ∧
    n.blanked.exchange = n.exchange.map Exchange.forget ∧
    n.blanked.fifo = if n.state = .active then [⟨0, .blank⟩] else [] := by
  unfold Line.blanked
  split <;> exact ⟨rfl, rfl, rfl, rfl, rfl⟩

/-! ## RESET_SITTINGS -/

theorem State.seat_endSittings {s : State} (canonical : s.canonical = true) (i : Nat) :
    s.endSittings.seat i = (s.seat i).ended := tabGet_tabMap (State.seats_rises canonical) rfl i

theorem State.chan_endSittings {s : State} (canonical : s.canonical = true) (c : Nat) :
    s.endSittings.chan c = (s.chan c).ended := tabGet_tabMap (State.channels_rises canonical) rfl c

theorem State.unused_endSittings {s u : State} (h : u.seats = s.endSittings.seats) (l : Nat) : u.usedSeats l = [] := by
  unfold State.usedSeats
  split
  · rw [h, List.map_eq_nil_iff, List.filter_eq_nil_iff]
    intro p hp
    simp only [State.endSittings, tabMap, List.mem_filter, List.mem_map] at hp
    obtain ⟨⟨q, -, rfl⟩, -⟩ := hp
    simp [Seat.ended, Occupancy.slot]
  · rfl

/-- Settles O55: the tables are those of the end of every sitting, and each line is blanked before it goes on. -/
theorem resetSittingsEndsEverySitting : Obligations.ResetSittingsEndsEverySitting := by
  intro tag s canonical takes
  obtain ⟨u, hu⟩ : ∃ u, lineNumbers.foldl State.blankLine s.countFrame.endSittings = u := ⟨_, rfl⟩
  have answer : s.countFrame.resetSittings = ⟨.ok, [], u⟩ := congrArg State.done hu
  have moves := Moves.resetSittings s.countFrame
  rw [answer] at moves
  have blanking : Moves [] s.countFrame.endSittings u := hu ▸ .fold _ Moves.blankLine _ _
  have blank := blanking.frame
  have line {l : Nat} (hl : l < 7) : u.line l = (s.line l).blanked := by rw [← hu, State.lines_blanked _ hl]; rfl
  have warnings : u.warnings = [] := by
    rw [← hu]
    refine foldl_invariant (fun t : State => t.warnings = []) State.blankLine (fun t m h => ?_) lineNumbers _ rfl
    unfold State.blankLine
    dsimp only
    split <;> exact h
  obtain ⟨t, run, served⟩ := State.served (i := .resetSittings tag) rfl takes answer moves
  have intake : u.intake.slots = [] ∧ u.intake.arrivals = [] ∧ u.intake.verdicts = [] ∧ u.intake.marking = none ∧
      u.intake.stats = s.intake.stats := by
    obtain ⟨-, slots, arrivals, verdicts, marking, stats⟩ := blank.2 .intake (by decide)
    exact ⟨slots, arrivals, verdicts, marking, stats⟩
  obtain ⟨slots, arrivals, verdicts, marking, stats⟩ := intake
  obtain ⟨v, hv⟩ : ∃ v, u.respond ⟨tag, 0x03#8, .ok, []⟩ = v := ⟨_, rfl⟩
  have eq : t = v.settle := by rw [served.eq, hv]
  have line' {l : Nat} (hl : l < 7) : v.line l = (s.line l).blanked := by rw [← hv, State.line_respond, line hl]
  refine ⟨t, run, served.answered, fun i => ?_, ?_, ?_, ?_, fun c => ?_, ?_, ?_, ?_, ?_, ?_, ?_, fun quiet => ?_, fun k => ?_,
    fun l hl busy => ?_, fun l => ?_, served.unchanged.weaken (by decide)⟩
  · rw [served.seat, blank.seat]
    exact State.seat_endSittings (s := s.countFrame) canonical i
  · rw [served.eq, State.settle_roster, State.respond_roster]
    exact blank.2 .roster (by decide)
  · rw [served.eq, State.settle_booklets, State.respond_booklets]
    exact (blank.2 .booklets (by decide)).1
  · rw [served.eq, State.settle_bookletStats, State.respond_bookletStats]
    exact (blank.2 .booklets (by decide)).2
  · rw [served.chan, blank.chan]
    exact State.chan_endSittings (s := s.countFrame) canonical c
  · rw [served.eq, State.settle_log, State.respond_log]
    exact blank.2 .log (by decide)
  · rw [served.eq, State.settle_slots, State.respond_intake, slots]
  · rw [served.eq, State.settle_arrivals, State.respond_intake, arrivals]
  · rw [served.eq, State.settle_verdicts, State.respond_intake, verdicts]
  · rw [served.eq, State.settle_marking, State.respond_intake, marking]
  · rw [served.eq, State.settle_sheetStats, State.respond_intake, stats]
  · have still : v.noTestEnds := fun l hl testing => by
      obtain ⟨-, state, -, exchange, -⟩ := (s.line l).blanked_spec
      rw [line' hl, state] at testing
      rw [line' hl, exchange]
      simpa using quiet l hl testing
    have office : v.office.stats = s.countFrame.office.stats := by
      rw [← hv, State.respond_stats, ← hu]
      refine congrArg Office.stats (foldl_keeps State.office State.blankLine (fun t m => ?_) lineNumbers _)
      unfold State.blankLine
      dsimp only
      split <;> rfl
    rw [eq, (State.settled_quiet still).2, office]
    rfl
  · rw [eq]
    exact State.told_settle v k (by rw [← hv]; show mapGet u.warnings k = none; rw [warnings]; rfl)
  · obtain ⟨marks, state, -, exchange, fifo⟩ := (s.line l).blanked_spec
    have inFlight : (v.line l).exchange ≠ none := by
      rw [line' hl, exchange]
      simpa using busy
    rw [eq, State.settle_busy inFlight, line' hl]
    exact ⟨marks, state, fifo⟩
  · by_cases hl : l < 7
    · obtain ⟨marks, -, stats, exchange, -⟩ := (s.line l).blanked_spec
      refine ⟨fun busy => ?_, ?_⟩
      · have inFlight : (v.line l).exchange ≠ none := by
          rw [line' hl, exchange]
          simpa using busy
        rw [eq, State.settle_busy inFlight, line' hl, stats]
      · obtain ⟨w, aside, settled, -⟩ := v.settle_split hl
        have seats : w.seats = s.countFrame.endSittings.seats := by
          rw [← State.still_seats w, aside.still, State.still_seats, ← hv]
          exact blank.2 .seats (by decide)
        have sent := SentOnly.runLine w l (by rw [aside.line, line' hl, marks]) (State.unused_endSittings seats l)
        rw [eq, settled, ← stats, ← line' hl, ← aside.line]
        exact sent
    · have same : t.line l = s.line l := by
        rw [eq, State.settle_beyond v (Nat.le_of_not_lt hl), ← hv, State.line_respond, ← hu,
          State.lines_blanked_beyond _ (Nat.le_of_not_lt hl)]
        rfl
      rw [same]
      exact ⟨fun _ => rfl, _, _, rfl⟩

end Sys2Proof.Machine
end

section
/-! PROOF. READ_TABLE (R154, R180): its checks in order, and the bytes of the entries. -/

namespace Sys2Proof.Machine

set_option Elab.async false

/-! ## The checks -/

/-- READ_TABLE of a table, as its checks take it in order. -/
theorem State.read_eq {s : State} {table lo hi : Nat} (span : tableSpan table = some (lo, hi)) (first n : Nat) :
    s.read table first n =
      if n = 0 then s.refuse .range
      else if 16 < n ∨ 1021 < (s.entriesBytes table first n hi).length then s.refuse .tooLong
      else if first < lo ∨ hi < first + n then s.refuse .range
      else if table = 9 then ⟨.ok, s.entriesBytes table first n hi,
        s.onOffice fun o => { o with stats := { o.stats with protectedReads := statUp o.stats.protectedReads } }⟩
      else ⟨.ok, s.entriesBytes table first n hi, s⟩ := by
  rw [State.read, span]
  rfl

/-- The entries of a range inside the table are those named (R180). -/
theorem State.entriesBytes_inside (s : State) {table first n hi : Nat} (inside : first + n ≤ hi) :
    s.entriesBytes table first n hi = (List.range n).flatMap fun j => s.tableBytes table (first + j) := by
  rw [State.entriesBytes, List.filter_eq_self.2, List.flatMap_map]
  intro i hi'
  obtain ⟨j, hj, rfl⟩ := List.mem_map.1 hi'
  have small := List.mem_range.1 hj
  exact decide_eq_true (by omega)

theorem flatMap_zeros {α : Type} (xs : List α) {f : α → List Byte} (zero : ∀ x, f x = List.replicate 4 0#8) :
    xs.flatMap f = List.replicate (4 * xs.length) 0#8 := by
  induction xs with
  | nil => rfl
  | cons x xs ih =>
    rw [List.flatMap_cons, ih, zero, List.replicate_append_replicate, List.length_cons, Nat.mul_succ, Nat.add_comm]

/-- KEYS reads as the zero entry (R154). -/
theorem State.keysBytes_length (s : State) (first n hi : Nat) : (s.entriesBytes 9 first n hi).length ≤ 4 * n := by
  rw [State.entriesBytes, flatMap_zeros (f := s.tableBytes 9) _ fun _ => rfl, List.length_replicate]
  refine Nat.mul_le_mul_left 4 ((List.length_filter_le _ _).trans ?_)
  rw [List.length_map, List.length_range]

theorem Moves.protectedRead (s : State) : Moves [.protectedReads] s
    (s.onOffice fun o => { o with stats := { o.stats with protectedReads := statUp o.stats.protectedReads } }) := by
  refine .onOffice s _ (fun p hp => ?_) (Nat.le_refl _) fun _ => id
  cases p <;> simp_all [Part.same, State.presence]

theorem readTable_answers (tag : Byte) (first n : Nat) (s : State) (takes : s.takesRequest) (table lo hi : Nat)
    (span : tableSpan table = some (lo, hi)) :
    let long := decide (16 < n) || decide (1021 < (s.entriesBytes table first n hi).length)
    (n = 0 → Refuses s (.readTable tag table first n) tag 0x01#8 .range) ∧
    (n ≠ 0 → long = true → Refuses s (.readTable tag table first n) tag 0x01#8 .tooLong) ∧
    (n ≠ 0 → long = false → first < lo ∨ hi < first + n →
      Refuses s (.readTable tag table first n) tag 0x01#8 .range) ∧
    (table ≠ 9 → n ≠ 0 → long = false → lo ≤ first → first + n ≤ hi →
      ∃ t, exec (.readTable tag table first n) s = .next t ∧
        Answered s t tag 0x01#8 .ok ((List.range n).flatMap fun j => s.tableBytes table (first + j)) ∧
        Unchanged [.responses, .framesIn] s t) := by
  intro long
  have eq := State.read_eq (s := s.countFrame) span first n
  have tooLong : long = true ↔ 16 < n ∨ 1021 < (s.countFrame.entriesBytes table first n hi).length := by
    rw [Bool.or_eq_true, decide_eq_true_eq, decide_eq_true_eq]
    rfl
  have fits : long = false → ¬(16 < n ∨ 1021 < (s.countFrame.entriesBytes table first n hi).length) := fun h => by
    rw [← tooLong, h]
    exact Bool.false_ne_true
  refine ⟨fun none => ?_, fun some h => ?_, fun some h out => ?_, fun keys some h h1 h2 => ?_⟩
  · refine State.refused (i := .readTable tag table first n) rfl takes (eq.trans ?_)
    rw [if_pos none]
  · refine State.refused (i := .readTable tag table first n) rfl takes (eq.trans ?_)
    rw [if_neg some, if_pos (tooLong.1 h)]
  · refine State.refused (i := .readTable tag table first n) rfl takes (eq.trans ?_)
    rw [if_neg some, if_neg (fits h), if_pos out]
  · refine State.reads (i := .readTable tag table first n) rfl takes (eq.trans ?_)
    rw [if_neg some, if_neg (fits h), if_neg (by omega), if_neg keys, State.entriesBytes_inside _ h2]
    rfl

theorem readKeys_answers (tag : Byte) (first n : Nat) (s : State) (takes : s.takesRequest) :
    (n = 0 ∨ (n ≤ 16 ∧ 3200 < first + n) → Refuses s (.readKeys tag first n) tag 0x01#8 .range) ∧
    (16 < n → Refuses s (.readKeys tag first n) tag 0x01#8 .tooLong) ∧
    (n ≠ 0 → n ≤ 16 → first + n ≤ 3200 → ∃ t, exec (.readKeys tag first n) s = .next t ∧
      Answered s t tag 0x01#8 .ok (List.replicate (4 * n) 0#8) ∧
      t.office.stats.protectedReads = statUp s.office.stats.protectedReads ∧
      Unchanged [.responses, .framesIn, .protectedReads] s t) := by
  have eq := State.read_eq (s := s.countFrame) (table := 9) rfl first n
  have short : n ≤ 16 → ¬(16 < n ∨ 1021 < (s.countFrame.entriesBytes 9 first n 3200).length) := fun few h => by
    have := State.keysBytes_length s.countFrame first n 3200
    omega
  refine ⟨fun out => ?_, fun many => ?_, fun some few inside => ?_⟩
  · refine State.refused (i := .readKeys tag first n) rfl takes (eq.trans ?_)
    by_cases none : n = 0
    · rw [if_pos none]
    · obtain ⟨few, past⟩ := out.resolve_left none
      rw [if_neg none, if_neg (short few), if_pos (.inr past)]
  · refine State.refused (i := .readKeys tag first n) rfl takes (eq.trans ?_)
    rw [if_neg (by omega), if_pos (.inl many)]
  · have zeros : s.countFrame.entriesBytes 9 first n 3200 = List.replicate (4 * n) 0#8 := by
      rw [State.entriesBytes_inside _ inside,
        flatMap_zeros (f := fun j => s.countFrame.tableBytes 9 (first + j)) _ fun _ => rfl, List.length_range]
    rw [if_neg some, if_neg (short few), if_neg (by omega), if_pos rfl, zeros] at eq
    obtain ⟨t, run, served⟩ := State.served (i := .readKeys tag first n) rfl takes eq (.protectedRead _)
    refine ⟨t, run, served.answered, ?_, served.unchanged⟩
    rw [served.eq, State.settle_protectedReads]
    rfl

theorem tableSpan_eq (table : Nat) : tableSpan table = [none, some (0, 1), some (0, 384), some (1, 9), some (0, 512),
    some (0, 16), some (0, 8), some (0, 4), some (0, 4), some (0, 3200), some (0, 64), some (0, 8),
    some (0, 392)].getD table none := by
  by_cases listed : table < 13
  · interval_cases table <;> rfl
  · obtain ⟨n, rfl⟩ : ∃ n, table = n + 13 := ⟨table - 13, by omega⟩
    rfl

/-! ## The entries -/

theorem Signal.bytes_eq (g : Signal) : g.bytes =
    (match (g.pending.getD g.entry).source with
      | .none => [0#8]
      | .channel c => [1#8] ++ b1 c
      | .hallHeld => [2#8]
      | .refLost => [3#8]) ++ b1 (g.pending.getD g.entry).condition.code ++ bBool (g.pending.getD g.entry).flash ++
        bBool (g.pending.getD g.entry).activeLow ++ bBool (g.active != g.entry.activeLow) := by
  unfold Signal.bytes
  dsimp only
  cases (g.pending.getD g.entry).source <;> rfl

theorem Seat.bytes_eq (r : Seat) : r.bytes =
    bBool r.configured ++ b1 r.row ++ b1 r.column ++ bBool r.accessible ++ bBool (!r.inService) ++
      match r.occ with
      | .free => [0#8]
      | .held k n => [1#8] ++ be 2 k ++ be 2 n
      | .occupied k => [2#8] ++ be 2 k
      | .clearing n => [3#8] ++ be 2 n := by
  unfold Seat.bytes
  cases r.inService <;> cases r.occ <;> rfl

theorem Channel.runtimeBytes_eq (c : Channel) : c.runtimeBytes =
    b1 c.state.code ++ be 2 c.length ++ be 2 c.readElapsed ++ be 2 c.writeElapsed ++ bBool c.closed ++ bBool c.spent ++
      bBool c.hold ++ be 3 c.holdSeconds ++ bOpt (be 2) (c.amendment.map Amendment.length) ++
      bBool (decide (c.active = .b)) ++ b1 c.generation ++ bBool (decide (c.stage ≠ .idle)) := by
  unfold Channel.runtimeBytes Channel.committing
  cases c.active <;> simp [bBool]

theorem State.presenceBytes_eq (s : State) {i l a : Nat}
    (h : (i < 384 ∧ l = i / 64 ∧ a = i % 64 + 1) ∨ (384 ≤ i ∧ l = 6 ∧ a = i - 383)) :
    s.presenceBytes i = bBool (s.configured l a) ++ b1 (s.presence l a).code ++ b1 ((s.line l).addr a).missed ++
      [BitVec.ofInt 8 ((s.line l).addr a).owed] ++ b1 (s.line l).state.code := by
  obtain ⟨seat, line, address⟩ | ⟨station, line, address⟩ := h
  · rw [State.presenceBytes, if_pos seat, line, address]
    simp only [State.addrBytes, bInt, State.presence, seatLine, seatAddr]
  · rw [State.presenceBytes, if_neg (by omega), line, address]
    simp only [State.addrBytes, bInt, State.presence]

theorem State.rosterBytes_used (s : State) {i : Nat} {e : Entry} (used : s.entry i = some e) :
    s.rosterBytes i = [1#8] ++ packed 4 e.id ++ b1 e.channel ++ b1 e.cls ++ bOpt (be 2) e.fixed ++ b1 e.state.code ++
      bOpt (be 2) e.seat ++ bOpt (be 2) e.lastSeat ++ b1 e.percent ++ be 2 e.budget ++ bBool e.accessible ++
      be 2 e.allowed ++ be 2 e.written ++ be 2 e.remaining ++ b1 e.breaks ++
      (b1 e.booklets.length ++ e.booklets.flatMap fun b => packed 3 b ++ bBool (s.isReturned b)) ++
      bOpt (be 3) e.finish ++ b1 e.result.code ++ bBool e.late ++ bBool e.relaxed ++ bBool e.moved ++
      bBool e.budgetOut ++ bBool e.deskLost := by
  have one : bBool true = [1#8] := by decide
  have listed : s.rosterBytes i = bBool true ++ s.entryBytes e := by rw [State.rosterBytes, used]
  rw [listed, one]
  delta State.entryBytes bList
  simp only [List.append_assoc]

/-- Settles O43: the checks, the tables by code, and the bytes of each table's entry. -/
theorem readTableReturnsTheEntries : Obligations.ReadTableReturnsTheEntries := by
  refine ⟨fun tag first n s takes => ⟨fun table lo hi span => readTable_answers tag first n s takes table lo hi span,
    fun table unknown => ?_, readKeys_answers tag first n s takes⟩, tableSpan_eq, fun s i => ?_⟩
  · refine State.refused (i := .readTable tag table first n) rfl takes ?_
    show State.read _ _ _ _ = _
    rw [State.read, unknown]
  · refine ⟨rfl, Seat.bytes_eq (s.seat i), ?_, fun free => ?_, fun e used => ?_, ?_, rfl, rfl, ?_, ?_, Signal.bytes_eq _,
      fun l a h => s.presenceBytes_eq h⟩
    · show (s.station i).bytes = _
      unfold Station.bytes
      cases (s.station i).role <;> rfl
    · show s.rosterBytes i = _
      rw [State.rosterBytes, free]
      rfl
    · exact s.rosterBytes_used used
    · show s.chanBytes i = _
      rw [State.chanBytes, Channel.runtimeBytes_eq]
      simp only [List.append_assoc]
    · show (s.profile i).bytes = _
      unfold Profile.bytes
      cases (s.profile i).asWrong <;> rfl
    · show bList (fun b => [b]) (s.message i) = _
      rw [bList, List.flatMap_singleton']

end Sys2Proof.Machine
end

section
/-! PROOF. The end of an exchange (R99, R100): its outcome judged, and what it leaves of the desks and of the counters of its
line, through the start of a wiring test that waited and what follows at once. -/

namespace Sys2Proof.Machine

set_option Elab.async false

/-! ## The outcome of an exchange -/

/-- The judgement of an outcome. -/
def Heard.judged : Heard → Judged
  | .bad => .badCheck
  | .silent => .silent
  | _ => .good

theorem Heard.good_iff (h : Heard) : h.good = true ↔ h.judged = .good := by cases h <;> simp [Heard.good, Heard.judged]

/-- What a reply is judged (R99). -/
theorem Exchange.hear_judged (x : Exchange) (l : Nat) (bytes : List Byte) :
    (x.answeredBy l bytes → (x.hear l bytes).judged = .good) ∧ (¬x.answeredBy l bytes → x.hear l bytes = .bad) := by
  obtain ⟨a, kind⟩ := x
  unfold Exchange.answeredBy Exchange.hear
  cases reply : readReply bytes with
  | none => exact ⟨fun ⟨_, _, h, _⟩ => (nomatch h), fun _ => rfl⟩
  | some r =>
    obtain ⟨b, k, body⟩ := r
    dsimp only
    by_cases own : b = a
    · subst own
      rw [if_pos rfl]
      cases kind with
      | poll =>
        simp only [ExchangeKind.hear, Option.some.injEq, Prod.mk.injEq]
        by_cases called : k = 0x81
        · cases event : readEvent body with
          | none => simp [called, event, Heard.judged]
          | some v => by_cases known : v.definedFor l = true <;> simp [called, event, known, Heard.judged]
        · simp [called, Heard.judged]
      | discover sweep => by_cases called : k = 0x81 ∧ readEvent body = some .idle <;>
          simp_all [ExchangeKind.hear, Heard.judged]
      | clock c again => by_cases called : k = 0x82 ∧ body = [] <;> simp_all [ExchangeKind.hear, Heard.judged]
      | note c => by_cases called : k = 0x82 ∧ body = [] <;> simp_all [ExchangeKind.hear, Heard.judged]
      | test i => by_cases called : k = 0x85 ∧ body.length = 2 <;> simp_all [ExchangeKind.hear, Heard.judged]
      | broadcast c => simp [ExchangeKind.hear]
    · rw [if_neg own]
      exact ⟨fun ⟨_, _, h, _⟩ => absurd (congrArg (fun r => (r.map Prod.fst).getD 0) h) (by simpa using own), fun _ => rfl⟩

section
variable {s : State} {l : Fin 7} {x : Exchange}

theorem exec_reply (flight : (s.line l).exchange = some x) (calls : x.callsForReply = true) (bytes : List Byte) :
    exec (.lineReplyReceived l bytes) s = .next (s.endExchange l x (x.hear l bytes)).settle := by
  show Host.Outcome.next (s.lineReply l bytes).settle = _
  rw [State.lineReply, flight]
  dsimp only
  rw [if_pos calls]

theorem exec_silence (flight : (s.line l).exchange = some x) (calls : x.callsForReply = true) :
    exec (.replyWindowClose l) s = .next (s.endExchange l x .silent).settle := by
  show Host.Outcome.next (s.windowClose l).settle = _
  rw [State.windowClose, flight]
  dsimp only
  rw [if_pos calls]

/-- A command that ends an exchange hands on an outcome of its judgement. -/
theorem exec_ends {i : Instr} {o : Judged} (flight : (s.line l).exchange = some x) (calls : x.callsForReply = true)
    (ends : x.endsBy l i o) : ∃ h, h.judged = o ∧ exec i s = .next (s.endExchange l x h).settle := by
  cases o with
  | good =>
    obtain ⟨bytes, rfl, answered⟩ := ends
    exact ⟨_, (x.hear_judged l bytes).1 answered, exec_reply flight calls bytes⟩
  | badCheck =>
    obtain ⟨bytes, rfl, other⟩ := ends
    exact ⟨.bad, rfl, (x.hear_judged l bytes).2 other ▸ exec_reply flight calls bytes⟩
  | silent =>
    have silence : i = .replyWindowClose l := ends
    exact ⟨.silent, rfl, silence ▸ exec_silence flight calls⟩

end

/-! ## The missed-reply count (R100) -/

/-- The state of a drop address after an outcome. -/
def AddrState.judge (r : AddrState) (good : Bool) : AddrState :=
  if r.presence = .present then
    if good then { r with missed := 0 } else if 2 ≤ r.missed then r.become .lost else { r with missed := r.missed + 1 }
  else r

theorem State.lines_deskGone (s : State) (i : Nat) : (s.deskGone i).lines = s.lines := by
  unfold State.deskGone
  split
  · simp
  · rfl

/-- A presence set anew to anything but PRESENT changes no line but at its address. -/
theorem State.lines_setPresence (s : State) (l a : Nat) {p : Presence} (gone : p ≠ .present) :
    (s.setPresence l a p).lines = (s.onAddr l a fun r => r.become p).lines := by
  unfold State.setPresence
  dsimp only
  split
  · rfl
  · rw [if_neg fun h => gone h.1]
    split
    · exact State.lines_deskGone _ _
    · rfl

theorem State.lines_raiseLossBy (s : State) (l : Nat) (x : Exchange) : (s.raiseLossBy l x).lines = s.lines := by
  unfold State.raiseLossBy
  split <;> rfl

/-- A line beside its drop addresses. -/
def Line.rest (n : Line) : Line := { n with addrs := [] }

theorem State.addr_onAddr (s : State) (l a : Nat) (f : AddrState → AddrState) (m b : Nat) :
    ((s.onAddr l a f).line m).addr b = if l = m ∧ a = b then f ((s.line l).addr a) else (s.line m).addr b := by
  rw [State.onAddr, State.line_onLine]
  by_cases line : l = m
  · rw [if_pos line, Line.addr_onAddr]
    by_cases own : a = b
    · rw [if_pos own, if_pos ⟨line, own⟩]
    · rw [if_neg own, if_neg fun h => own h.2, line]
  · rw [if_neg line, if_neg fun h => line h.1]

theorem State.rest_onAddr (s : State) (l a : Nat) (f : AddrState → AddrState) (m : Nat) :
    ((s.onAddr l a f).line m).rest = (s.line m).rest := by
  rw [State.onAddr, State.line_onLine]
  split
  · next line => rw [line]; rfl
  · rfl

/-- The missed-reply count of an outcome: its address judged, and of no line anything else. -/
theorem State.line_countMiss (s : State) (l : Nat) (x : Exchange) (h : Heard) (m : Nat) :
    (∀ b, ((s.countMiss l x h).line m).addr b =
      if l = m ∧ x.addr = b then ((s.line l).addr x.addr).judge h.good else (s.line m).addr b) ∧
      ((s.countMiss l x h).line m).rest = (s.line m).rest := by
  have presence : s.presence l x.addr = ((s.line l).addr x.addr).presence := rfl
  unfold State.countMiss
  by_cases present : s.presence l x.addr = .present
  · rw [if_pos present]
    have judge : ((s.line l).addr x.addr).judge h.good = if h.good then { (s.line l).addr x.addr with missed := 0 }
        else if 2 ≤ ((s.line l).addr x.addr).missed then ((s.line l).addr x.addr).become .lost
        else { (s.line l).addr x.addr with missed := ((s.line l).addr x.addr).missed + 1 } := if_pos (presence ▸ present)
    rw [judge]
    split
    · exact ⟨fun b => State.addr_onAddr .., State.rest_onAddr ..⟩
    · split
      · have lines : (s.loseDesk l x).lines = (s.onAddr l x.addr fun r => r.become .lost).lines := by
          rw [State.loseDesk, State.lines_setPresence _ _ _ (by decide), State.onAddr, State.onLine, State.onAddr,
            State.onLine, State.line, State.lines_raiseLossBy]
          rfl
        rw [State.line, lines]
        exact ⟨fun b => State.addr_onAddr .., State.rest_onAddr ..⟩
      · exact ⟨fun b => State.addr_onAddr .., State.rest_onAddr ..⟩
  · rw [if_neg present]
    have judge : ((s.line l).addr x.addr).judge h.good = (s.line l).addr x.addr := if_neg (presence ▸ present)
    refine ⟨fun b => ?_, rfl⟩
    split
    · next own => rw [judge, own.1, own.2]
    · rfl

/-- An outcome that loses no desk changes its missed-reply count alone. -/
theorem Unchanged.countMiss {s : State} {l : Nat} {x : Exchange} {h : Heard}
    (stands : s.presence l x.addr ≠ .present ∨ h.good = true ∨ ((s.line l).addr x.addr).missed < 2) :
    Unchanged [.presence] s (s.countMiss l x h) := by
  have one (f : AddrState → AddrState) : Unchanged [.presence] s (s.onAddr l x.addr f) :=
    ⟨rfl, fun p hp => by cases p <;> simp_all [Part.same]⟩
  unfold State.countMiss
  split
  · next present =>
    split
    · exact one _
    · next bad =>
      rw [if_neg (by have := (stands.resolve_left fun h => h present).resolve_left bad; omega)]
      exact one _
  · exact .refl _ s

/-- The third outcome in a row without a good reply loses the desk. -/
theorem State.countMiss_loses {s : State} {l : Nat} {x : Exchange} {h : Heard} (present : s.presence l x.addr = .present)
    (bad : ¬h.good = true) (third : 2 ≤ ((s.line l).addr x.addr).missed) : s.countMiss l x h = s.loseDesk l x := by
  rw [State.countMiss, if_pos present, if_neg bad, if_pos third]

theorem State.loseDesk_told {s : State} {l : Nat} {x : Exchange} (told : ∀ i, x.kind ≠ .test i) :
    Category.deskLost ∈ (s.loseDesk l x).office.flags := by
  refine (Moves.setPresence _ l x.addr .lost).raised _ ?_
  unfold State.raiseLossBy
  split
  · next i kind => exact absurd kind (told i)
  · exact State.flag_notify _ _

theorem Unchanged.loseDesk_test {s : State} {l : Nat} {x : Exchange} {i : Nat} (kind : x.kind = .test i) :
    Unchanged [.presence, .seats, .roster] s (s.loseDesk l x) := by
  have silent : s.raiseLossBy l x = s := by rw [State.raiseLossBy, kind]
  rw [State.loseDesk, silent]
  exact (Moves.setPresence s l x.addr .lost).frame

/-! ## The start of a wiring test that waited (R114) -/

theorem Line.startTest_spec (n : Line) (b : Nat) : n.startTest.stats = n.stats ∧ n.startTest.state = n.state ∧
    n.startTest.exchange = n.exchange ∧ n.startTest.marks = n.marks ∧ n.startTest.fifo = n.fifo ∧
    n.startTest.addr b = if n.testWaits = true ∧ n.exchange = none then AddrState.at (n.addr b).presence else n.addr b := by
  have waits : n.testWaits = true ↔ n.testDue = true ∧ n.state = .testing := by
    rw [Line.testWaits, Bool.and_eq_true, decide_eq_true_eq]
  unfold Line.startTest
  obtain ⟨marks, fifo, -, exchange, state, stats⟩ := n.zeroCounts_keeps
  split
  · next starts =>
    rw [if_pos ⟨waits.2 ⟨starts.1, starts.2.1⟩, starts.2.2⟩]
    exact ⟨stats, state, exchange, marks, fifo, n.zeroCounts_addr b⟩
  · next stays =>
    rw [if_neg fun h => stays ⟨(waits.1 h.1).1, (waits.1 h.1).2, h.2⟩]
    exact ⟨rfl, rfl, rfl, rfl, rfl, rfl⟩

/-! ## What follows at once: the counters of outcomes, and an address that no frame goes to -/

/-- The counters of a line that no frame sent changes: of the outcomes, and of taps at a wrong seat (R121). -/
def Line.heard (n : Line) : Nat × Nat × Nat × Nat :=
  (n.stats.replies, n.stats.badCheck, n.stats.missed, n.stats.wrongSeat)

section
variable (s : State) (l : Nat)

theorem State.heard_sendPoll (a : Nat) : ((s.sendPoll l a).line l).heard = (s.line l).heard := by
  simp [State.sendPoll, State.send, State.onStats, State.onAddr, Line.onAddr, LineStats.poll, Line.heard]

theorem State.heard_pollStep : ((s.pollStep l).line l).heard = (s.line l).heard := by
  unfold State.pollStep
  dsimp only
  split
  · exact s.heard_sendPoll l _
  · split
    · simp [State.sendDiscovery, State.send, State.onStats, State.onAddr, Line.onAddr, LineStats.poll, Line.heard]
    · split
      · exact s.heard_sendPoll l _
      · rfl

theorem State.heard_arbitrate : ((s.arbitrate l).line l).heard = (s.line l).heard := by
  unfold State.arbitrate
  split
  · exact s.heard_sendPoll l _
  · split
    · simp [State.sendClock, State.onStats, State.send, Line.heard]
    · unfold State.noteStep
      split
      · simp [State.onStats, State.send, LineStats.note, Line.heard]
      · rw [State.heard_pollStep]
        simp [Line.heard]

end

theorem Line.heard_setMark (n : Line) (a : Nat) : (n.setMark a).heard = n.heard := by
  unfold Line.setMark
  split <;> rfl

theorem State.heard_endSweep (s : State) (l : Nat) : ((s.endSweep l).line l).heard = (s.line l).heard := by
  unfold State.endSweep
  dsimp only
  split
  · refine (foldl_keeps (fun t : State => (t.line l).heard) State.setMark (fun t i => ?_) _ _).trans ?_
    · rw [State.setMark, State.line_onLine]
      split
      · next own => rw [Line.heard_setMark, own]
      · rfl
    · simp [State.restartInterval, Line.heard]
  · simp [State.restartInterval, Line.heard]

theorem State.heard_runLine (s : State) (l : Nat) : ((s.runLine l).line l).heard = (s.line l).heard := by
  unfold State.runLine
  split
  · rfl
  · split
    · exact s.heard_arbitrate l
    · unfold State.quietStep
      split
      · simp [State.send, State.onStats, Line.flush, LineStats.note, Line.heard]
      · rfl
    · unfold State.sweepStep
      split
      · simp [State.send, State.onStats, LineStats.poll, Line.heard]
      · rw [State.heard_arbitrate, State.heard_endSweep]
    · unfold State.testStep
      dsimp only
      split
      · simp [State.send, Line.heard]
      · rw [State.heard_arbitrate]
        simp [State.endTest, State.restartInterval, Line.heard]

theorem State.heard_settle (s : State) (l : Nat) : (s.settle.line l).heard = (s.line l).heard := by
  rw [State.line_settle]
  refine foldl_keeps (fun t : State => (t.line l).heard) State.runLine (fun t m => ?_) lineNumbers s
  by_cases own : l = m
  · rw [own, State.heard_runLine]
  · rw [(LineRun.runLine t m).others l own]

theorem OutcomeCounted.of_heard {s t : State} {l : Nat} {h : Heard}
    (counted : (t.line l).heard = ({ s.line l with stats := (s.line l).stats.hear h } : Line).heard) :
    OutcomeCounted s t l h.judged := by
  obtain ⟨replies, bad, missed, -⟩ := by simpa only [Line.heard, Prod.mk.injEq] using counted
  unfold OutcomeCounted
  dsimp only
  rw [replies, bad, missed]
  cases h <;> simp [LineStats.hear, Heard.judged]

/-- No frame goes to the address of itself: it is not PRESENT, and no discovery poll is due. -/
def AddrState.idle (r : AddrState) : Prop := r.presence ≠ .present ∧ r.due = false

section
variable {s : State} {l a : Nat} (idle : ((s.line l).addr a).idle)
include idle

theorem State.addr_sendPoll {b : Nat} (present : s.presence l b = .present) :
    ((s.sendPoll l b).line l).addr a = (s.line l).addr a := by
  have other : b ≠ a := fun own => idle.1 (own ▸ present)
  simp [State.sendPoll, State.onStats, State.send, State.onAddr, Line.onAddr, Line.addr, other]

theorem State.addr_pollStep : ((s.pollStep l).line l).addr a = (s.line l).addr a := by
  unfold State.pollStep
  dsimp only
  split
  · next b most =>
    exact State.addr_sendPoll idle (State.presence_of_mem (List.mem_of_mem_filter (Line.mostOwed_mem most)))
  · split
    · next b found =>
      have due : ((s.line l).addr b).due = true := by simpa using List.find?_some found
      have other : b ≠ a := fun own => absurd (own ▸ due) (by rw [idle.2]; exact Bool.false_ne_true)
      simp [State.sendDiscovery, State.onStats, State.send, State.onAddr, Line.onAddr, Line.addr, other]
    · split
      · next b least =>
        exact State.addr_sendPoll idle (State.presence_of_mem (List.mem_of_mem_filter (Line.leastOwed_mem least)))
      · rfl

theorem State.addr_arbitrate : ((s.arbitrate l).line l).addr a = (s.line l).addr a := by
  unfold State.arbitrate
  split
  · next b found => exact State.addr_sendPoll idle (State.presence_of_mem (List.mem_of_find?_eq_some found))
  · split
    · simp [State.sendClock, State.onStats, State.send, Line.addr]
    · unfold State.noteStep
      split
      · simp [State.onStats, State.send, Line.addr]
      · have same : ((s.onLine l fun m => { m with fifo := [] }).line l).addr a = (s.line l).addr a := by simp [Line.addr]
        rw [State.addr_pollStep (by rw [same]; exact idle), same]

theorem State.addr_runLine : ((s.runLine l).line l).addr a = (s.line l).addr a := by
  unfold State.runLine
  split
  · rfl
  · split
    · exact State.addr_arbitrate idle
    · unfold State.quietStep
      split
      · simp [State.onStats, State.send, Line.flush, Line.addr]
      · rfl
    · unfold State.sweepStep
      split
      · simp [State.onStats, State.send, Line.addr]
      · have same : ((s.endSweep l).line l).addr a = (s.line l).addr a := by
          unfold State.endSweep
          dsimp only
          split
          · refine (foldl_keeps (fun t : State => (t.line l).addr a) State.setMark (fun t i => ?_) _ _).trans ?_
            · rw [State.setMark, State.line_onLine]
              split
              · next own => unfold Line.setMark; split <;> simp [Line.addr, own]
              · rfl
            · simp [State.restartInterval, Line.addr]
          · simp [State.restartInterval, Line.addr]
        rw [State.addr_arbitrate (by rw [same]; exact idle), same]
    · unfold State.testStep
      dsimp only
      split
      · simp [State.send, Line.addr]
      · have same : ((s.endTest l).line l).addr a = (s.line l).addr a := by
          simp [State.endTest, State.restartInterval, Line.addr]
        rw [State.addr_arbitrate (by rw [same]; exact idle), same]

theorem State.addr_settle (hl : l < 7) : (s.settle.line l).addr a = (s.line l).addr a := by
  obtain ⟨u, aside, line, -⟩ := s.settle_split hl
  rw [line, State.addr_runLine (by rw [aside.line]; exact idle), aside.line]

end

/-! ## The missed-reply count, to the end -/

section
variable {s w v : State} {l : Nat} {x : Exchange} {h : Heard} (before : Unchanged [] s w)
  (after : Unchanged [] (w.countMiss l x h) v)
include before after

/-- A presence after the end of an exchange. -/
theorem State.presence_ended (m b : Nat) : (v.onLine l Line.startTest).settle.presence m b =
    if l = m ∧ x.addr = b then (((w.line l).addr x.addr).judge h.good).presence else s.presence m b := by
  have started : (v.onLine l Line.startTest).presence m b = v.presence m b := by
    rw [State.presence, State.presence, State.line_onLine]
    split
    · next own =>
      subst own
      obtain ⟨-, -, -, -, -, addr⟩ := (v.line l).startTest_spec b
      rw [addr]
      split <;> rfl
    · rfl
  rw [State.settle_presence, started, (after.2 .presence (by decide) m b).1]
  show (((w.countMiss l x h).line m).addr b).presence = _
  rw [(State.line_countMiss w l x h m).1 b]
  split
  · rfl
  · exact (before.2 .presence (by decide) m b).1

/-- What the end of an exchange changes, when the count of R100 changes `k`. -/
theorem Unchanged.ended {k : List Part} (counted : Unchanged k w (w.countMiss l x h)) (desks : Part.presence ∈ k) :
    Unchanged k s (v.onLine l Line.startTest).settle := by
  have started : Unchanged k v (v.onLine l Line.startTest) :=
    (Moves.startTest v l).frame.weaken fun p hp => List.mem_singleton.1 hp ▸ desks
  exact ((((before.weaken fun _ h => nomatch h).trans counted).trans (after.weaken fun _ h => nomatch h)).trans
    started).settle

omit before in
theorem State.missed_ended (free : (v.line l).exchange = none) (waits : (v.line l).testWaits = (s.line l).testWaits) :
    (((v.onLine l Line.startTest).settle.line l).addr x.addr).missed =
      if (s.line l).testWaits then 0 else (((w.line l).addr x.addr).judge h.good).missed := by
  have kept := ((Unchanged.refl [] (v.onLine l Line.startTest)).settle.2 .presence (by decide) l x.addr).2
  obtain ⟨-, -, -, -, -, addr⟩ := (v.line l).startTest_spec x.addr
  rw [kept, State.line_onLine, if_pos rfl, addr, waits]
  by_cases starts : (s.line l).testWaits = true
  · rw [if_pos ⟨starts, free⟩, if_pos starts]
    rfl
  · rw [if_neg fun h => starts h.1, if_neg starts, (after.2 .presence (by decide) l x.addr).2,
      (State.line_countMiss w l x h l).1, if_pos ⟨rfl, rfl⟩]

end

/-- What an outcome leaves when its exchange has ended: `v` is the part as a wiring test that waited finds it, `w` as the
count of R100 found it. -/
theorem MissTaken.of_countMiss {s w v : State} {l : Nat} {x : Exchange} {h : Heard} (hl : l < 7)
    (before : Unchanged [] s w) (after : Unchanged [] (w.countMiss l x h) v)
    (addr : (v.line l).addr x.addr = ((w.countMiss l x h).line l).addr x.addr) (free : (v.line l).exchange = none)
    (waits : (v.line l).testWaits = (s.line l).testWaits) :
    MissTaken s (v.onLine l Line.startTest).settle l x h.judged := by
  obtain ⟨presence, missed⟩ := before.2 .presence (by decide) l x.addr
  have others := State.presence_ended (l := l) (x := x) (h := h) before after
  have count := State.missed_ended after free waits
  obtain ⟨r, hr⟩ : ∃ r, (w.line l).addr x.addr = r := ⟨_, rfl⟩
  have presence : r.presence = s.presence l x.addr := hr ▸ presence
  rw [hr] at missed others count
  have ends (stands : r.presence ≠ .present ∨ h.good = true ∨ r.missed < 2) :
      Unchanged [.presence] s (v.onLine l Line.startTest).settle :=
    .ended before after (.countMiss (by rw [State.presence, hr]; exact stands)) (by decide)
  unfold MissTaken
  refine ⟨fun m b apart => ?_, ?_⟩
  · rw [others, if_neg fun h => apart.elim (fun other => other h.1.symm) fun other => other h.2.symm]
  · have own := others l x.addr
    rw [if_pos ⟨rfl, rfl⟩] at own
    split
    · next absent =>
      have judge : r.judge h.good = r := if_neg (presence ▸ absent)
      rw [judge] at own count
      refine ⟨own.trans presence, ?_, ends (.inl (presence ▸ absent))⟩
      rw [count, missed]
    · next present =>
      have present : r.presence = .present := presence.trans (not_not.1 present)
      split
      · next good =>
        have good := h.good_iff.2 good
        have judge : r.judge h.good = { r with missed := 0 } := by rw [AddrState.judge, if_pos present, if_pos good]
        rw [judge] at own count
        exact ⟨own.trans presence, count, ends (.inr (.inl good))⟩
      · next other =>
        have bad : ¬h.good = true := fun good => other (h.good_iff.1 good)
        split
        · next fewer =>
          rw [← missed] at fewer
          have judge : r.judge h.good = { r with missed := r.missed + 1 } := by
            rw [AddrState.judge, if_pos present, if_neg bad, if_neg (by omega)]
          rw [judge] at own count
          refine ⟨own.trans presence, ?_, ends (.inr (.inr fewer))⟩
          rw [count, missed]
        · next third =>
          rw [← missed] at third
          have loses : w.countMiss l x h = w.loseDesk l x :=
            State.countMiss_loses (by rw [State.presence, hr]; exact present) bad (by rw [hr]; omega)
          have lost : (v.line l).addr x.addr = ⟨.lost, 0, 0, false⟩ := by
            rw [addr, (State.line_countMiss w l x h l).1, if_pos ⟨rfl, rfl⟩, hr, AddrState.judge, if_pos present, if_neg bad,
              if_pos (by omega)]
            rfl
          have started' : ((v.onLine l Line.startTest).line l).addr x.addr = ⟨.lost, 0, 0, false⟩ := by
            obtain ⟨-, -, -, -, -, spec⟩ := (v.line l).startTest_spec x.addr
            rw [State.line_onLine, if_pos rfl, spec, lost]
            split <;> rfl
          refine ⟨?_, ?_⟩
          · rw [State.addr_settle (by rw [started']; exact ⟨by decide, rfl⟩) hl, started']
          · split
            · next i kind =>
              exact .ended before after (loses ▸ Unchanged.loseDesk_test kind) (by decide)
            · next called =>
              refine ⟨State.settle_raised _ ?_, ?_⟩
              · exact (after.2 .flags (by decide) .deskLost (by decide) (by decide)).2
                  (loses ▸ State.loseDesk_told called)
              · exact .ended before after (Moves.countMiss w l x h).frame (by decide)

end Sys2Proof.Machine
end

section
/-! PROOF. The outcomes of polls, DISCOVER, CLOCK and NOTE frames: O25. -/

namespace Sys2Proof.Machine

set_option Elab.async false

/-! ## The line that an exchange has left -/

/-- Line `l` free, with the outcome counted (R99, R121). -/
def State.landed (s : State) (l : Nat) (h : Heard) : State :=
  s.onLine l fun n => { n with exchange := none, stats := n.stats.hear h }

theorem Unchanged.landed (s : State) (l : Nat) (h : Heard) : Unchanged [] s (s.landed l h) := (Moves.endFlight s l h).frame

theorem State.line_landed (s : State) (l : Nat) (h : Heard) :
    (s.landed l h).line l = { s.line l with exchange := none, stats := (s.line l).stats.hear h } := by
  rw [State.landed, State.line_onLine, if_pos rfl]

theorem Line.testWaits_rest {n m : Line} (h : n.rest = m.rest) : n.testWaits = m.testWaits := by
  have due : n.testDue = m.testDue := (congrArg Line.testDue h :)
  have state : n.state = m.state := (congrArg Line.state h :)
  rw [Line.testWaits, Line.testWaits, due, state]

theorem Line.rest_fields {n m : Line} (h : n.rest = m.rest) :
    n.stats = m.stats ∧ n.exchange = m.exchange ∧ n.state = m.state ∧ n.marks = m.marks :=
  ⟨(congrArg Line.stats h :), (congrArg Line.exchange h :), (congrArg Line.state h :), (congrArg Line.marks h :)⟩

/-- The outcome of an exchange stands counted to the end. -/
theorem OutcomeCounted.ended {s v : State} {l : Nat} {h : Heard} (stats : (v.line l).stats = (s.line l).stats.hear h) :
    OutcomeCounted s (v.onLine l Line.startTest).settle l h.judged := by
  refine .of_heard ?_
  obtain ⟨same, -⟩ := (v.line l).startTest_spec 0
  rw [State.heard_settle, State.line_onLine, if_pos rfl, Line.heard, Line.heard, same, stats]

section
variable {s : State} {l : Fin 7} {x : Exchange} {h : Heard}

/-- An exchange whose outcome is counted, and of which nothing else is taken. -/
theorem counted_alone (took : s.takeOutcome l x h = (s.landed l h).countMiss l x h) :
    OutcomeCounted s (s.endExchange l x h).settle l h.judged ∧ MissTaken s (s.endExchange l x h).settle l x h.judged := by
  have rest := (State.line_countMiss (s.landed l h) l x h l).2
  rw [State.line_landed] at rest
  rw [State.endExchange, took]
  exact ⟨.ended (congrArg Line.stats rest :), .of_countMiss l.isLt (.landed s l h) (.refl [] _) rfl
    (congrArg Line.exchange rest :) (Line.testWaits_rest rest :)⟩

theorem State.handOn_idle (s : State) (l a : Nat) (h : Heard) (idle : h.judged = .good → h = .event .idle) :
    s.handOn l a h = s := by
  cases h with
  | event e =>
    cases idle rfl
    show (match seatOn l a with | some i => s.deskEvent i .idle | none => s.stationEvent a .idle) = s
    split
    · rfl
    · unfold State.stationEvent
      cases (s.station a).role <;> rfl
  | ack => rfl
  | echo v => rfl
  | bad => rfl
  | silent => rfl

end

/-! ## A presence set anew -/

theorem State.line_deskFound (s : State) (i m : Nat) : ((s.deskFound i).line m).addrs = (s.line m).addrs ∧
    ((s.deskFound i).line m).stats = (s.line m).stats := by
  have marked (t : State) : ((t.setMark i).line m).addrs = (t.line m).addrs ∧
      ((t.setMark i).line m).stats = (t.line m).stats := by
    rw [State.setMark, State.line_onLine]
    split
    · next own =>
      unfold Line.setMark
      rw [own]
      split <;> exact ⟨rfl, rfl⟩
    · exact ⟨rfl, rfl⟩
  have dropped (t : State) : ((t.dropMark i).line m).addrs = (t.line m).addrs ∧
      ((t.dropMark i).line m).stats = (t.line m).stats := by
    rw [State.dropMark, State.line_onLine]
    split
    · next own => rw [own]; exact ⟨rfl, rfl⟩
    · exact ⟨rfl, rfl⟩
  unfold State.deskFound
  dsimp only
  cases lost : (s.seat i).lost with
  | none =>
    dsimp only
    split
    · exact marked s
    · exact marked s
    · exact dropped s
  | some k =>
    obtain ⟨u, hu⟩ : ∃ u, ((s.onEntry k fun e => { e with deskLost := false }).onSeat i fun r => { r with lost := none }) = u :=
      ⟨_, rfl⟩
    have same : u.line m = s.line m := by rw [← hu]; simp
    dsimp only
    rw [hu, ← same]
    split
    · exact marked u
    · exact marked u
    · exact dropped u

theorem State.line_setPresence (s : State) (l a : Nat) (p : Presence) (m : Nat) :
    (∀ b, ((s.setPresence l a p).line m).addr b =
      if l = m ∧ a = b then ((s.line l).addr a).become p else (s.line m).addr b) ∧
      ((s.setPresence l a p).line m).stats = (s.line m).stats := by
  have set : (∀ b, ((s.onAddr l a fun r => r.become p).line m).addr b =
      if l = m ∧ a = b then ((s.line l).addr a).become p else (s.line m).addr b) ∧
      ((s.onAddr l a fun r => r.become p).line m).stats = (s.line m).stats :=
    ⟨fun b => State.addr_onAddr .., (congrArg Line.stats (State.rest_onAddr s l a (fun r => r.become p) m) :)⟩
  unfold State.setPresence
  dsimp only
  split
  · exact set
  · next i _ =>
    split
    · obtain ⟨addrs, stats⟩ := State.line_deskFound (s.onAddr l a fun r => r.become p) i m
      exact ⟨fun b => (congrArg (fun n => tabGet AddrState.blank n b) addrs).trans (set.1 b), stats.trans set.2⟩
    · split
      · have line : ((s.onAddr l a fun r => r.become p).deskGone i).line m = (s.onAddr l a fun r => r.become p).line m := by
          rw [State.line, State.lines_deskGone]; rfl
        rw [line]
        exact set
      · exact set

/-- Through the start of a wiring test that waited and what follows at once, an address that has just taken a presence keeps
it, with no reply missed. -/
theorem State.presence_set (s : State) (l a : Nat) (p : Presence) :
    (∀ m b, ((s.setPresence l a p).onLine l Line.startTest).settle.presence m b =
      if l = m ∧ a = b then p else s.presence m b) ∧
      ((((s.setPresence l a p).onLine l Line.startTest).settle.line l).addr a).missed = 0 := by
  refine ⟨fun m b => ?_, ?_⟩
  · have set := (s.line_setPresence l a p m).1 b
    have started : ((s.setPresence l a p).onLine l Line.startTest).presence m b = (s.setPresence l a p).presence m b := by
      rw [State.presence, State.presence, State.line_onLine]
      split
      · next own =>
        subst own
        obtain ⟨-, -, -, -, -, addr⟩ := ((s.setPresence l a p).line l).startTest_spec b
        rw [addr]
        split <;> rfl
      · rfl
    rw [State.settle_presence, started, State.presence, set]
    split <;> rfl
  · have set := (s.line_setPresence l a p l).1 a
    rw [if_pos ⟨rfl, rfl⟩] at set
    obtain ⟨-, -, -, -, -, addr⟩ := ((s.setPresence l a p).line l).startTest_spec a
    rw [State.settle_missed, State.line_onLine, if_pos rfl, addr, set]
    split <;> rfl

/-! ## A sweep's DISCOVER (R104) -/

theorem State.inUseOn_iff (s : State) (l a : Nat) :
    s.inUseOn l a = true ↔ l < 6 ∧ (s.seat (seatIndex l a)).occ.slot ≠ none := by
  unfold State.inUseOn seatOn isSeatLine
  by_cases seat : l < 6
  · simp [seat, Option.isSome_iff_ne_none]
  · simp [seat]

/-- An address that is not PRESENT, or whose seat is not in use, becomes ABSENT with nothing handed on. -/
theorem Unchanged.setPresence_absent {s : State} {l a : Nat}
    (unused : ¬(s.presence l a = .present ∧ s.inUseOn l a = true)) : Unchanged [.presence] s (s.setPresence l a .absent) := by
  have one : Unchanged [.presence] s (s.onAddr l a fun r => r.become .absent) :=
    ⟨rfl, fun p hp => by cases p <;> simp_all [Part.same]⟩
  unfold State.setPresence
  dsimp only
  split
  · exact one
  · next i on =>
    rw [if_neg fun h => absurd h.1 (by decide)]
    split
    · next gone =>
      have stands : (s.onAddr l a fun r => r.become .absent).deskGone i = s.onAddr l a fun r => r.become .absent := by
        have same : (s.onAddr l a fun r => r.become .absent).seat i = s.seat i := rfl
        unfold State.deskGone
        rw [same]
        split
        · next k occ =>
          refine absurd ⟨gone.2, ?_⟩ unused
          rw [State.inUseOn, on, Option.bind_some, occ]
          rfl
        · rfl
      rw [stands]
      exact one
    · exact one

section
variable {s : State} {l : Fin 7} {a : Nat} {h : Heard} (calls : s.configured l a = true)
include calls

theorem endExchange_sweep : s.endExchange l ⟨a, .discover true⟩ h =
    (((s.landed l h).countMiss l ⟨a, .discover true⟩ h).takeSweep l a h).onLine l Line.startTest := by
  unfold State.endExchange State.takeOutcome
  dsimp only
  rw [if_pos calls]
  rfl

theorem endExchange_discovery : s.endExchange l ⟨a, .discover false⟩ h =
    (((s.landed l h).countMiss l ⟨a, .discover false⟩ h).takeDiscovery l a h).onLine l Line.startTest := by
  unfold State.endExchange State.takeOutcome
  dsimp only
  rw [if_pos calls]
  rfl

end

theorem State.stats_countMiss (s : State) (l : Nat) (x : Exchange) (h : Heard) (m : Nat) :
    ((s.countMiss l x h).line m).stats = (s.line m).stats := (congrArg Line.stats (State.line_countMiss s l x h m).2 :)

theorem State.presence_countMiss (s : State) (l : Nat) (x : Exchange) (h : Heard) (m b : Nat) :
    (s.countMiss l x h).presence m b =
      if l = m ∧ x.addr = b then (((s.line l).addr x.addr).judge h.good).presence else s.presence m b := by
  rw [State.presence, (State.line_countMiss s l x h m).1 b]
  split <;> rfl

/-- What a sweep's DISCOVER leaves of the seats, the roster, the flags and the notices, when no good reply came. -/
theorem sweep_silent {s u : State} {l a : Nat} {h : Heard} (counted : s.countMiss l ⟨a, .discover true⟩ h = u)
    (bad : ¬h.good = true) :
    if s.presence l a = .present ∧
        (2 ≤ ((s.line l).addr a).missed ∨ (l < 6 ∧ (s.seat (seatIndex l a)).occ.slot ≠ none)) then
      Category.deskLost ∈ (u.takeSweep l a h).office.flags ∧
        Unchanged [.presence, .seats, .roster, .flags, .notices] s (u.takeSweep l a h)
    else Unchanged [.presence] s (u.takeSweep l a h) := by
  have presence := State.presence_countMiss s l ⟨a, .discover true⟩ h l a
  rw [if_pos ⟨rfl, rfl⟩, counted] at presence
  have was : s.presence l a = ((s.line l).addr a).presence := rfl
  have swept : u.takeSweep l a h =
      (if u.presence l a = .present ∧ u.inUseOn l a then u.raiseLost l a .absent else u).setPresence l a .absent := if_neg bad
  have wide : Unchanged [.presence, .seats, .roster, .flags, .notices] s (u.takeSweep l a h) := by
    rw [← counted]
    exact ((Moves.countMiss s l _ h).next (.takeSweep _ l a h)).frame
  by_cases third : s.presence l a = .present ∧ 2 ≤ ((s.line l).addr a).missed
  · rw [if_pos ⟨third.1, .inl third.2⟩]
    refine ⟨(Moves.takeSweep u l a h).raised _ ?_, wide⟩
    rw [← counted, State.countMiss_loses (x := ⟨a, .discover true⟩) third.1 bad third.2]
    exact State.loseDesk_told nofun
  · have few : s.presence l a ≠ .present ∨ h.good = true ∨ ((s.line l).addr a).missed < 2 := by
      by_cases present : s.presence l a = .present
      · exact .inr (.inr (Nat.lt_of_not_le fun h => third ⟨present, h⟩))
      · exact .inl present
    have kept : Unchanged [.presence] s u := counted ▸ Unchanged.countMiss (x := ⟨a, .discover true⟩) few
    have inUse : u.inUseOn l a = true ↔ l < 6 ∧ (s.seat (seatIndex l a)).occ.slot ≠ none := by
      rw [State.inUseOn_iff, kept.seat]
    have same : u.presence l a = .present ↔ s.presence l a = .present := by
      rw [presence, was, AddrState.judge]
      split
      · next present =>
        rw [if_neg fun h => third ⟨present, h⟩]
      · rfl
    by_cases used : s.presence l a = .present ∧ (l < 6 ∧ (s.seat (seatIndex l a)).occ.slot ≠ none)
    · rw [if_pos ⟨used.1, .inr used.2⟩]
      refine ⟨?_, wide⟩
      rw [swept, if_pos ⟨same.2 used.1, inUse.2 used.2⟩]
      exact (Moves.setPresence _ l a .absent).raised _ (State.flag_notify _ _)
    · have none : ¬(u.presence l a = .present ∧ u.inUseOn l a = true) := fun h => used ⟨same.1 h.1, inUse.1 h.2⟩
      rw [if_neg fun h => h.2.elim (fun m => third ⟨h.1, m⟩) fun o => used ⟨h.1, o⟩, swept, if_neg none]
      exact kept.trans (.setPresence_absent none)

/-- The start of a wiring test that waited, and what follows at once, change presences alone. -/
theorem Unchanged.started {k : List Part} {s v : State} (l : Nat) (h : Unchanged k s v) (desks : Part.presence ∈ k) :
    Unchanged k s (v.onLine l Line.startTest).settle :=
  (h.trans ((Moves.startTest v l).frame.weaken fun _ hp => List.mem_singleton.1 hp ▸ desks)).settle

theorem State.raised_started {v : State} {c : Category} (l : Nat) (h : c ∈ v.office.flags) :
    c ∈ (v.onLine l Line.startTest).settle.office.flags := State.settle_raised _ h

theorem sweepDiscover_ends (l : Fin 7) (a : Nat) (s : State) (flight : (s.line l).exchange = some ⟨a, .discover true⟩)
    (known : s.configured l a = true) (i : Instr) (o : Judged) (ends : Exchange.endsBy ⟨a, .discover true⟩ l i o) :
    ∃ t, exec i s = .next t ∧ OutcomeCounted s t l o ∧ ((t.line l).addr a).missed = 0 ∧
      (∀ m b, m ≠ l.val ∨ b ≠ a → t.presence m b = s.presence m b) ∧
      if o = .good then t.presence l a = .present ∧ Unchanged [.presence, .seats, .roster] s t
      else t.presence l a = .absent ∧
        if s.presence l a = .present ∧
            (2 ≤ ((s.line l).addr a).missed ∨ (l.val < 6 ∧ (s.seat (seatIndex l a)).occ.slot ≠ none)) then
          Category.deskLost ∈ t.office.flags ∧ Unchanged [.presence, .seats, .roster, .flags, .notices] s t
        else Unchanged [.presence] s t := by
  obtain ⟨h, rfl, run⟩ := exec_ends flight rfl ends
  obtain ⟨u, hu⟩ : ∃ u, (s.landed l h).countMiss l ⟨a, .discover true⟩ h = u := ⟨_, rfl⟩
  have landed := Unchanged.landed s l h
  have absent : s.presence l a = (s.landed l h).presence l a := (landed.2 .presence (by decide) l a).1.symm
  have addr : ((s.landed l h).line l).addr a = (s.line l).addr a := by rw [State.line_landed]; rfl
  rw [endExchange_sweep known, hu] at run
  have base (m b : Nat) (apart : ¬((l : Nat) = m ∧ a = b)) : u.presence m b = s.presence m b := by
    rw [← hu, State.presence_countMiss, if_neg apart]
    exact (landed.2 .presence (by decide) m b).1
  have stats : (u.line l).stats = (s.line l).stats.hear h := by
    rw [← hu, State.stats_countMiss, State.line_landed]
  by_cases good : h.good = true
  · have took : u.takeSweep l a h = u.setPresence l a .present := if_pos good
    obtain ⟨presence, missed⟩ := u.presence_set l a .present
    rw [took] at run
    refine ⟨_, run, .ended ((u.line_setPresence l a .present l).2.trans stats), missed, fun m b apart => ?_, ?_⟩
    · have other : ¬((l : Nat) = m ∧ a = b) := fun h => apart.elim (fun n => n h.1.symm) fun n => n h.2.symm
      rw [presence, if_neg other, base m b other]
    · rw [if_pos (h.good_iff.1 good)]
      refine ⟨by rw [presence, if_pos ⟨rfl, rfl⟩], .started l ?_ (by decide)⟩
      have counted : Unchanged [.presence] (s.landed l h) u := hu ▸ .countMiss (.inr (.inl good))
      exact ((landed.weaken nofun).trans (counted.weaken (by decide))).trans (Moves.setPresence u l a .present).frame
  · obtain ⟨v, took, lines⟩ : ∃ v : State, u.takeSweep l a h = v.setPresence l a .absent ∧ v.lines = u.lines := by
      refine ⟨_, if_neg good, ?_⟩
      split <;> rfl
    have vline (m : Nat) : v.line m = u.line m := by rw [State.line, lines]; rfl
    obtain ⟨presence, missed⟩ := v.presence_set l a .absent
    have silent := sweep_silent hu good
    rw [← absent, addr, landed.seat] at silent
    have stats' : ((u.takeSweep l a h).line l).stats = (s.line l).stats.hear h := by
      rw [took, (v.line_setPresence l a .absent l).2, vline, stats]
    refine ⟨_, run, .ended stats', by rw [took]; exact missed, fun m b apart => ?_, ?_⟩
    · have other : ¬((l : Nat) = m ∧ a = b) := fun h => apart.elim (fun n => n h.1.symm) fun n => n h.2.symm
      rw [took, presence, if_neg other, State.presence, vline]
      exact base m b other
    · rw [if_neg fun g => good (h.good_iff.2 g)]
      refine ⟨by rw [took, presence, if_pos ⟨rfl, rfl⟩], ?_⟩
      split at silent
      · next lost =>
        rw [if_pos lost]
        exact ⟨State.raised_started l silent.1, .started l ((landed.weaken nofun).trans silent.2) (by decide)⟩
      · next kept =>
        rw [if_neg kept]
        exact .started l ((landed.weaken nofun).trans silent) (by decide)

theorem discoveryPoll_ends (l : Fin 7) (a : Nat) (s : State) (flight : (s.line l).exchange = some ⟨a, .discover false⟩)
    (known : s.configured l a = true) (gone : s.presence l a ≠ .present) (i : Instr) (o : Judged)
    (ends : Exchange.endsBy ⟨a, .discover false⟩ l i o) :
    ∃ t, exec i s = .next t ∧ OutcomeCounted s t l o ∧ (∀ m b, m ≠ l.val ∨ b ≠ a → t.presence m b = s.presence m b) ∧
      if o = .good then t.presence l a = .present ∧ Category.deskBack ∈ t.office.flags ∧
        Unchanged [.presence, .seats, .roster, .flags, .notices] s t
      else t.presence l a = s.presence l a ∧ Unchanged [.presence] s t := by
  obtain ⟨h, rfl, run⟩ := exec_ends flight rfl ends
  have landed := Unchanged.landed s l h
  have presence (m b : Nat) : (s.landed l h).presence m b = s.presence m b := (landed.2 .presence (by decide) m b).1
  have uncounted : (s.landed l h).countMiss l ⟨a, .discover false⟩ h = s.landed l h := if_neg (by rw [presence]; exact gone)
  rw [endExchange_discovery known, uncounted] at run
  have stats : ((s.landed l h).line l).stats = (s.line l).stats.hear h := by rw [State.line_landed]
  by_cases good : h.good = true
  · have took : (s.landed l h).takeDiscovery l a h =
        ((s.landed l h).setPresence l a .present).notify (.deskBack l a (seatOn l a)) :=
      if_pos ⟨good, by rw [presence]; exact gone⟩
    obtain ⟨set, -⟩ := (s.landed l h).presence_set l a .present
    have told (m b : Nat) : ((((s.landed l h).setPresence l a .present).notify (.deskBack l a (seatOn l a))).onLine l
        Line.startTest).settle.presence m b = if (l : Nat) = m ∧ a = b then .present else s.presence m b := by
      rw [← presence m b, ← set m b, State.settle_presence, State.settle_presence]
      rfl
    refine ⟨_, run, .ended ?_, fun m b apart => ?_, ?_⟩
    · rw [took]
      exact ((s.landed l h).line_setPresence l a .present l).2.trans stats
    · rw [took, told, if_neg fun h => apart.elim (fun n => n h.1.symm) fun n => n h.2.symm]
    · rw [if_pos (h.good_iff.1 good), took, told, if_pos ⟨rfl, rfl⟩]
      refine ⟨rfl, State.raised_started l (State.flag_notify _ _), .started l ?_ (by decide)⟩
      exact (landed.weaken nofun).trans
        ((((Moves.setPresence (s.landed l h) l a .present).widen (k := [.presence, .seats, .roster, .flags, .notices])).next
          (.notify _ _)).frame)
  · have took : (s.landed l h).takeDiscovery l a h = s.landed l h := if_neg fun g => good g.1
    have kept : Unchanged [.presence] s ((s.landed l h).onLine l Line.startTest).settle :=
      .started l (landed.weaken nofun) (by decide)
    have stands (m b : Nat) : ((s.landed l h).onLine l Line.startTest).settle.presence m b = s.presence m b := by
      have started := (((s.landed l h).line l).startTest_spec b).2.2.2.2.2
      rw [State.settle_presence, ← presence, State.presence, State.presence, State.line_onLine]
      split
      · next own =>
        subst own
        rw [started]
        split <;> rfl
      · rfl
    rw [took] at run
    refine ⟨_, run, .ended stats, fun m b _ => stands m b, ?_⟩
    rw [if_neg fun g => good (h.good_iff.2 g)]
    exact ⟨stands l a, kept⟩

/-! ## CLOCK and NOTE frames (R110, R113) -/

theorem State.marks_sendPoll (s : State) (l a : Nat) : ((s.sendPoll l a).line l).marks = (s.line l).marks := by
  simp [State.sendPoll, State.send, State.onStats, State.onAddr, Line.onAddr]

theorem State.marks_pollStep (s : State) (l : Nat) : ((s.pollStep l).line l).marks = (s.line l).marks ∧
    ((s.pollStep l).line l).fifo = (s.line l).fifo := by
  have poll (a : Nat) : ((s.sendPoll l a).line l).fifo = (s.line l).fifo := by
    simp [State.sendPoll, State.send, State.onStats, State.onAddr, Line.onAddr]
  unfold State.pollStep
  dsimp only
  split
  · exact ⟨s.marks_sendPoll l _, poll _⟩
  · split
    · simp [State.sendDiscovery, State.send, State.onStats, State.onAddr, Line.onAddr]
    · split
      · exact ⟨s.marks_sendPoll l _, poll _⟩
      · exact ⟨rfl, rfl⟩

/-- What the arbiter leaves of the marks, and of the notes. -/
theorem State.marks_arbitrate (s : State) (l : Nat) : ((s.arbitrate l).line l).marks = (s.line l).marks ∧
    ((s.arbitrate l).line l).fifo <:+ (s.line l).fifo := by
  unfold State.arbitrate
  split
  · exact ⟨s.marks_sendPoll l _, by simp [State.sendPoll, State.send, State.onStats, State.onAddr, Line.onAddr]⟩
  · split
    · simp [State.sendClock, State.onStats, State.send]
    · unfold State.noteStep
      split
      · next n rest found =>
        have suffix := List.dropWhile_suffix (l := (s.line l).fifo) fun n => !s.noteGoes l n
        rw [found] at suffix
        refine ⟨by simp [State.onStats, State.send], ?_⟩
        simpa [State.onStats, State.send] using (List.suffix_cons n rest).trans suffix
      · obtain ⟨marks, fifo⟩ := (s.onLine l fun m => { m with fifo := [] }).marks_pollStep l
        rw [marks, fifo]
        simp

/-- The notes of a line when it goes on: of those that stood, the last. -/
theorem State.fifo_runLine (s : State) (l : Nat) : ((s.runLine l).line l).fifo <:+ (s.line l).fifo := by
  unfold State.runLine
  split
  · exact List.suffix_refl _
  · split
    · exact (s.marks_arbitrate l).2
    · unfold State.quietStep
      split
      · simp [State.onStats, State.send, Line.flush]
      · exact List.suffix_refl _
    · unfold State.sweepStep
      split
      · simp [State.onStats, State.send]
      · have same : ((s.endSweep l).line l).fifo = (s.line l).fifo := by
          unfold State.endSweep
          dsimp only
          split
          · refine (foldl_keeps (fun t : State => (t.line l).fifo) State.setMark (fun t i => ?_) _ _).trans ?_
            · rw [State.setMark, State.line_onLine]
              split
              · next own => unfold Line.setMark; split <;> simp [own]
              · rfl
            · simp [State.restartInterval]
          · simp [State.restartInterval]
        exact same ▸ ((s.endSweep l).marks_arbitrate l).2
    · unfold State.testStep
      dsimp only
      split
      · simp [State.send]
      · have same : ((s.endTest l).line l).fifo = (s.line l).fifo := by simp [State.endTest, State.restartInterval]
        exact same ▸ ((s.endTest l).marks_arbitrate l).2

/-- The line as an exchange that took no presence has left it, before the line goes on. -/
theorem State.line_started (v : State) (l : Nat) : (v.onLine l Line.startTest).line l = (v.line l).startTest := by
  rw [State.line_onLine, if_pos rfl]

theorem clockFrame_ends (l : Fin 7) (a : Nat) (s : State) (content : ClockContent) (again : Bool)
    (flight : (s.line l).exchange = some ⟨a, .clock content again⟩) (i : Instr) (o : Judged)
    (ends : Exchange.endsBy ⟨a, .clock content again⟩ l i o) :
    ∃ t, exec i s = .next t ∧ OutcomeCounted s t l o ∧ MissTaken s t l ⟨a, .clock content again⟩ o ∧
      ((s.line l).state = .active → (t.line l).marks =
        if o = .good then (s.line l).marks.filter (· ≠ a) ++ (if again then [a] else []) else (s.line l).marks) := by
  obtain ⟨h, rfl, run⟩ := exec_ends flight rfl ends
  obtain ⟨w, hw⟩ : ∃ w, (s.landed l h).onLine l (fun n => n.takeClock a again h) = w := ⟨_, rfl⟩
  have took : s.takeOutcome l ⟨a, .clock content again⟩ h = w.countMiss l ⟨a, .clock content again⟩ h := by rw [← hw]; rfl
  have line : w.line l =
      Line.takeClock { s.line l with exchange := none, stats := (s.line l).stats.hear h } a again h := by
    rw [← hw, State.line_onLine, if_pos rfl, State.line_landed]
  have fields : (w.line l).stats = (s.line l).stats.hear h ∧ (w.line l).exchange = none ∧
      (w.line l).state = (s.line l).state ∧ (w.line l).testWaits = (s.line l).testWaits ∧ (w.line l).marks =
        if h.judged = .good then (s.line l).marks.filter (· ≠ a) ++ (if again then [a] else []) else (s.line l).marks := by
    rw [line, Line.takeClock]
    by_cases good : h.good = true
    · rw [if_pos good, if_pos (h.good_iff.1 good)]
      exact ⟨rfl, rfl, rfl, rfl, rfl⟩
    · rw [if_neg good, if_neg fun g => good (h.good_iff.2 g)]
      exact ⟨rfl, rfl, rfl, rfl, rfl⟩
  obtain ⟨stats, free, state, waits, marks⟩ := fields
  have before : Unchanged [] s w := by
    refine (Unchanged.landed s l h).trans ?_
    rw [← hw]
    refine ⟨rfl, fun p _ => ?_⟩
    have desks : ∀ n : Line, (n.takeClock a again h).addrs = n.addrs := fun n => by unfold Line.takeClock; split <;> rfl
    cases p <;> simp [Part.same, State.presence, State.line_onLine]
    intro m b
    split
    · next own => simp [Line.addr, desks, own]
    · exact ⟨rfl, rfl⟩
  have rest := (State.line_countMiss w l ⟨a, .clock content again⟩ h l).2
  obtain ⟨stats₁, free₁, state₁, marks₁⟩ := Line.rest_fields rest
  rw [State.endExchange, took] at run
  refine ⟨_, run, .ended (stats₁.trans stats), .of_countMiss l.isLt before (.refl [] _) rfl (free₁.trans free)
    ((Line.testWaits_rest rest).trans waits), fun active => ?_⟩
  obtain ⟨v, hv⟩ : ∃ v, (w.countMiss l ⟨a, .clock content again⟩ h).onLine l Line.startTest = v := ⟨_, rfl⟩
  obtain ⟨-, state', exchange', marks', -⟩ := ((w.countMiss l ⟨a, .clock content again⟩ h).line l).startTest_spec 0
  rw [← State.line_started, hv] at state' exchange' marks'
  obtain ⟨u, aside, settled, -⟩ := v.settle_split l.isLt
  have ran : u.runLine l = u.arbitrate l := by
    rw [State.runLine, aside.line, exchange', free₁, free, state', state₁, state, active]
    rfl
  rw [hv, settled, ran, (u.marks_arbitrate l).1, aside.line, marks', marks₁, marks]

theorem noteFrame_ends (l : Fin 7) (a : Nat) (s : State) (content : NoteContent)
    (flight : (s.line l).exchange = some ⟨a, .note content⟩) (i : Instr) (o : Judged)
    (ends : Exchange.endsBy ⟨a, .note content⟩ l i o) :
    ∃ t, exec i s = .next t ∧ OutcomeCounted s t l o ∧ MissTaken s t l ⟨a, .note content⟩ o ∧
      (t.line l).fifo <:+ (s.line l).fifo := by
  obtain ⟨h, rfl, run⟩ := exec_ends flight rfl ends
  have took : s.takeOutcome l ⟨a, .note content⟩ h = (s.landed l h).countMiss l ⟨a, .note content⟩ h := rfl
  obtain ⟨counted, missed⟩ := counted_alone took
  refine ⟨_, run, counted, missed, ?_⟩
  rw [State.endExchange, took]
  have rest := (State.line_countMiss (s.landed l h) l ⟨a, .note content⟩ h l).2
  rw [State.line_landed] at rest
  obtain ⟨v, hv⟩ : ∃ v, ((s.landed l h).countMiss l ⟨a, .note content⟩ h).onLine l Line.startTest = v := ⟨_, rfl⟩
  obtain ⟨-, -, -, -, fifo, -⟩ := (((s.landed l h).countMiss l ⟨a, .note content⟩ h).line l).startTest_spec 0
  rw [← State.line_started, hv] at fifo
  obtain ⟨u, aside, settled, -⟩ := v.settle_split l.isLt
  have same : (u.line l).fifo = (s.line l).fifo := by
    rw [aside.line, fifo]
    exact (congrArg Line.fifo rest :)
  rw [hv, settled, ← same]
  exact u.fifo_runLine l

theorem poll_ends (l : Fin 7) (a : Nat) (s : State) {h : Heard} {i : Instr}
    (idle : h.judged = .good → h = .event .idle) (run : exec i s = .next (s.endExchange l ⟨a, .poll⟩ h).settle) :
    ∃ t, exec i s = .next t ∧ OutcomeCounted s t l h.judged ∧ MissTaken s t l ⟨a, .poll⟩ h.judged :=
  ⟨_, run, counted_alone (State.handOn_idle _ l a h idle)⟩

/-- Settles O25, frame by frame. -/
theorem pollOutcomesKeepTheMissedCount : Obligations.PollOutcomesKeepTheMissedCount := by
  intro l a s poll sweep discovery others
  refine ⟨fun flight => ⟨fun bytes hears => ?_, fun i o other ends => ?_⟩, fun flight known i o ends => ?_,
    fun flight known gone i o ends => ?_, fun content again flight i o ends => ?_, fun content flight i o ends => ?_⟩
  · obtain ⟨-, body, reply, event⟩ := hears
    have heard : poll.hear l bytes = .event .idle := by
      rw [Exchange.hear, reply]
      simp [poll, ExchangeKind.hear, event, DeskEvent.definedFor]
    exact poll_ends l a s (h := .event .idle) (fun _ => rfl) (heard ▸ exec_reply flight rfl bytes)
  · obtain ⟨h, rfl, run⟩ := exec_ends flight rfl ends
    exact poll_ends l a s (fun good => absurd good other) run
  · exact sweepDiscover_ends l a s flight known i o ends
  · exact discoveryPoll_ends l a s flight known gone i o ends
  · exact clockFrame_ends l a s content again flight i o ends
  · exact noteFrame_ends l a s content flight i o ends

end Sys2Proof.Machine
end

section
/-! PROOF. What the departures leave: one equation for each table that a departure, the reconciliation test, the collected
test and the overtime test write. -/

namespace Sys2Proof.Machine

set_option Elab.async false

/-! ## Tests on the roster -/

theorem State.slotsIn_congr {s t : State} (h : t.roster = s.roster) (c : Nat) (p : EntryState → Bool) :
    t.slotsIn c p = s.slotsIn c p := by
  simp [State.slotsIn, h]

theorem State.hasWriter_congr {s t : State} (h : t.roster = s.roster) (c : Nat) : t.hasWriter c = s.hasWriter c := by
  simp [State.hasWriter, State.slotsIn_congr h]

theorem State.reconciles_congr {s t : State} (h : t.roster = s.roster) (c : Nat) : t.reconciles c = s.reconciles c := by
  simp [State.reconciles, State.slotsIn_congr h]

theorem State.isReturned_congr {s t : State} (h : t.booklets = s.booklets) (b : Nat) :
    t.isReturned b = s.isReturned b := by
  simp [State.isReturned, h]

@[simp] theorem State.roster_enterPhase (s : State) (c : Nat) (x : ChanState) : (s.enterPhase c x).roster = s.roster :=
  (Moves.enterPhase s c x).frame.2 .roster (by decide)

/-! ## Reconciliation and collection -/

theorem State.chan_reconcile (s : State) (c d : Nat) :
    (s.reconcile c).chan d = if c = d ∧ (s.chan c).state = .collecting ∧ s.reconciles c
      then { s.chan c with state := .reconciled } else s.chan d := by
  unfold State.reconcile
  by_cases own : (s.chan c).state = .collecting ∧ s.reconciles c = true
  · rw [if_pos own, State.chan_enterPhase]
    by_cases same : c = d
    · subst same; simp [own]
    · simp [same]
  · rw [if_neg own, if_neg fun h => own h.2]

/-- What becomes of the record of a channel that ends its writing. -/
def Channel.collect (c : Channel) (reconciles : Bool) : Channel :=
  { c with state := if reconciles then .reconciled else .collecting, hold := false }

theorem State.chan_enterCollecting (s : State) (c d : Nat) :
    (s.enterCollecting c).chan d = if c = d then (s.chan c).collect (s.reconciles c) else s.chan d := by
  unfold State.enterCollecting
  have roster : (s.enterPhase c .collecting).roster = s.roster := by simp
  rw [State.chan_reconcile, State.reconciles_congr roster]
  simp only [State.chan_enterPhase, if_true]
  by_cases same : c = d
  · subst same
    by_cases all : s.reconciles c = true <;> simp [Channel.collect, all]
  · simp [same]

theorem State.flag_enterCollecting (s : State) (c : Nat) :
    Category.channelPhase ∈ (s.enterCollecting c).office.flags :=
  (Moves.reconcile _ c).raised _ (State.flag_enterPhase s c _)

theorem State.chan_overtimeTest (s : State) (c d : Nat) :
    (s.overtimeTest c).chan d = if c = d ∧ (s.chan c).state = .overtime ∧ s.hasWriter c = false
      then (s.chan c).collect (s.reconciles c) else s.chan d := by
  unfold State.overtimeTest
  by_cases last : (s.chan c).state = .overtime ∧ s.hasWriter c = false
  · rw [if_pos last, State.chan_enterCollecting]
    by_cases same : c = d
    · subst same; simp [last]
    · simp [same]
  · rw [if_neg last, if_neg fun h => last h.2]

/-- An entry after the collected test of the state `s`. -/
def State.tested (s : State) (e : Entry) : Entry := if s.collects e then { e with state := .collected } else e

theorem State.entry_collectTest (s : State) (k j : Nat) :
    (s.collectTest k).entry j = if k = j then (s.entry k).map s.tested else s.entry j := by
  unfold State.collectTest
  cases found : s.entry k with
  | none =>
    by_cases same : k = j
    · subst same; simp [found]
    · simp [same]
  | some e =>
    dsimp only
    by_cases passes : s.collects e = true
    · rw [if_pos passes, (Moves.reconcile _ _).frame.entry, State.entry_onEntry]
      by_cases same : k = j
      · subst same; simp [State.tested, found, passes]
      · simp [same]
    · rw [if_neg passes]
      by_cases same : k = j
      · subst same; simp [State.tested, found, passes]
      · simp [same]

/-! ## Seats vacated -/

/-- The record of a seat that is vacated with clearing time `n` and closing word `w`. -/
def Seat.vacated (r : Seat) (n : Nat) (w : ClosingWord) : Seat :=
  { r with occ := if n = 0 then .free else .clearing n, closing := if n = 0 then .none else w }

theorem State.seats_settleMark (s : State) (i : Nat) : (s.settleMark i).seats = s.seats :=
  (Moves.settleMark s i).frame.2 .seats (by decide)

theorem State.seat_freeSeat (s : State) (i j : Nat) :
    (s.freeSeat i).seat j = if i = j then { s.seat i with occ := .free, closing := .none } else s.seat j := by
  have same : (s.freeSeat i).seat j = (s.onSeat i fun r => { r with occ := .free, closing := .none }).seat j :=
    (Moves.settleMark _ i).frame.seat j
  rw [same, State.seat_onSeat]

theorem State.seat_clearSeat (s : State) (i : Nat) (w : ClosingWord) (j : Nat) :
    (s.clearSeat i w).seat j = if i = j then (s.seat i).vacated s.hall.clearingTime w else s.seat j := by
  unfold State.clearSeat
  by_cases zero : s.hall.clearingTime = 0
  · rw [if_pos zero, State.seat_freeSeat]
    simp [Seat.vacated, zero]
  · rw [if_neg zero, (Moves.settleMark _ i).frame.seat, State.seat_onSeat]
    simp [Seat.vacated, zero]

theorem State.seat_releaseHold (s : State) (i j : Nat) :
    (s.releaseHold i).seat j = if i = j then { s.seat i with occ := .free, closing := .none } else s.seat j := by
  simp [State.releaseHold, State.seat_freeSeat]

/-! ## Departures -/

/-- The state of an entry that leaves its seat with closing word `w`. -/
def ClosingWord.leaves (w : ClosingWord) : EntryState := if w = .timeUp then .timeUp else .finished

/-- The entry of slot `k` once it has left its seat with closing word `w`. -/
def State.departed (s : State) (e : Entry) (w : ClosingWord) : Entry :=
  { e with
    state := if e.booklets ≠ [] ∧ e.booklets.all s.isReturned then .collected else w.leaves
    finish := some s.time.hallTime
    seat := none }

variable {s : State} {k : Nat} {e : Entry}

/-- A departure before the collected test and the overtime test that it ends with. -/
theorem State.depart_eq (found : s.entry k = some e) (w : ClosingWord) :
    ∃ v : State, s.depart k w = (v.collectTest k).overtimeTest e.channel ∧
      (∀ j, v.entry j = if k = j then some { e with state := w.leaves, finish := some s.time.hallTime, seat := none }
        else s.entry j) ∧
      (∀ i, v.seat i = if e.seat = some i then (s.seat i).vacated s.hall.clearingTime w else s.seat i) ∧
      Unchanged [.roster, .seats] s v := by
  unfold State.depart
  rw [found]
  dsimp only
  set u : State := (s.onEntry k fun e => { e with
      state := if w = .timeUp then .timeUp else .finished, finish := some s.time.hallTime, seat := none }).dropWarning k
    with hu
  have entry : ∀ j, u.entry j = if k = j
      then some { e with state := w.leaves, finish := some s.time.hallTime, seat := none } else s.entry j := fun j => by
    by_cases same : k = j
    · subst same; simp [hu, found, ClosingWord.leaves]
    · simp [hu, same]
  have moves : Moves [.roster, .seats] s u := (Moves.onEntry s k _).widen.next (.dropWarning _ k)
  cases seat : e.seat with
  | none =>
    refine ⟨u, rfl, entry, fun i => ?_, moves.frame⟩
    simp [hu]
  | some i =>
    have hall : u.hall = s.hall := moves.frame.2 .hall (by decide)
    have cleared : Moves [.seats] u (u.clearSeat i w) := .clearSeat u i w
    set t := u.clearSeat i w with ht
    have seats : ∀ j, t.seat j = if some i = some j then (s.seat j).vacated s.hall.clearingTime w else s.seat j :=
      fun j => by
        rw [ht, State.seat_clearSeat, hall]
        by_cases same : i = j
        · subst same; simp [hu]
        · simp [same, hu]
    have marked : Moves [] t (if t.deskPresent i then t.setMark i else t) :=
      .ite (fun _ => .setMark t i) fun _ => .refl t
    refine ⟨_, rfl, fun j => ?_, fun j => ?_, ((moves.next cleared).next marked).frame⟩
    · rw [marked.frame.entry, cleared.frame.entry, entry]
    · rw [marked.frame.seat, seats]

theorem State.entry_depart (found : s.entry k = some e) (w : ClosingWord) (j : Nat) :
    (s.depart k w).entry j = if k = j then some (s.departed e w) else s.entry j := by
  obtain ⟨v, eq, entry, -, frame⟩ := State.depart_eq found w
  have back : v.isReturned = s.isReturned := funext fun b => State.isReturned_congr (frame.2 .booklets (by decide)).1 b
  rw [eq, (Moves.overtimeTest _ _).frame.entry, State.entry_collectTest]
  by_cases same : k = j
  · subst same
    have kind : w.leaves = .finished ∨ w.leaves = .timeUp := by unfold ClosingWord.leaves; split <;> simp
    have passes : v.collects { e with state := w.leaves, finish := some s.time.hallTime, seat := none } = true ↔
        e.booklets ≠ [] ∧ e.booklets.all s.isReturned = true := by
      rcases kind with kind | kind <;> simp [State.collects, kind, back]
    simp only [entry, if_true, Option.map_some, State.tested, State.departed, passes]
    split <;> rfl
  · simp [same, entry]

theorem State.seat_depart (found : s.entry k = some e) (w : ClosingWord) (i : Nat) :
    (s.depart k w).seat i = if e.seat = some i then (s.seat i).vacated s.hall.clearingTime w else s.seat i := by
  obtain ⟨v, eq, -, seat, -⟩ := State.depart_eq found w
  rw [eq, (Moves.overtimeTest _ _).frame.seat, (Moves.collectTest _ _).frame.seat, seat]

/-- The channel of a departure, while its clock can still run: COLLECTING or RECONCILED when its overtime has lost the last
writer, else as it was. -/
theorem State.chan_depart (found : s.entry k = some e) (w : ClosingWord)
    (running : (s.chan e.channel).state ≠ .collecting) (d : Nat) :
    (s.depart k w).chan d =
      if e.channel = d ∧ (s.chan d).state = .overtime ∧ (s.depart k w).hasWriter d = false
      then (s.chan d).collect ((s.depart k w).reconciles d) else s.chan d := by
  obtain ⟨v, eq, entry, -, frame⟩ := State.depart_eq found w
  have tested : ∀ x, (v.collectTest k).chan x = v.chan x := fun x => by
    unfold State.collectTest
    rw [entry, if_pos rfl]
    dsimp only
    split
    · rw [State.chan_reconcile, if_neg, State.chan_onEntry]
      rintro ⟨-, collecting, -⟩
      rw [State.chan_onEntry, frame.chan] at collecting
      exact running collecting
    · rfl
  have roster : (s.depart k w).roster = (v.collectTest k).roster := by
    rw [eq]; exact (Moves.overtimeTest _ _).frame.2 .roster (by decide)
  rw [State.hasWriter_congr roster, State.reconciles_congr roster, eq, State.chan_overtimeTest, tested, tested,
    frame.chan, frame.chan]
  by_cases own : e.channel = d
  · subst own; rfl
  · simp [own]

/-- A departure tells CHANNEL_PHASE when it ends the overtime of its channel, and while the channel is WRITING tells
nothing. -/
theorem State.office_depart (found : s.entry k = some e) (w : ClosingWord)
    (running : (s.chan e.channel).state = .writing ∨ (s.chan e.channel).state = .overtime) :
    if (s.chan e.channel).state = .overtime ∧ (s.depart k w).hasWriter e.channel = false
    then Category.channelPhase ∈ (s.depart k w).office.flags
    else Part.same s (s.depart k w) .flags ∧ Part.same s (s.depart k w) .notices := by
  obtain ⟨v, eq, entry, -, frame⟩ := State.depart_eq found w
  have tested : Moves [.roster] v (v.collectTest k) := by
    unfold State.collectTest
    rw [entry, if_pos rfl]
    dsimp only
    split
    · unfold State.reconcile
      rw [if_neg]
      · exact .onEntry v k _
      · rintro ⟨collecting, -⟩
        rw [State.chan_onEntry, frame.chan] at collecting
        rcases running with h | h <;> simp [h] at collecting
    · exact .refl v
  have roster : (s.depart k w).roster = (v.collectTest k).roster := by
    rw [eq]; exact (Moves.overtimeTest _ _).frame.2 .roster (by decide)
  have same : (v.collectTest k).chan e.channel = s.chan e.channel := by rw [tested.frame.chan, frame.chan]
  rw [State.hasWriter_congr roster, eq]
  unfold State.overtimeTest
  rw [same]
  split
  · exact State.flag_enterCollecting _ _
  · have quiet := frame.trans_widen tested.frame (both := [.roster, .seats])
    exact ⟨quiet.2 .flags (by decide), quiet.2 .notices (by decide)⟩

end Sys2Proof.Machine
end

section
/-! PROOF. What one channel's operations leave alone: the entries and the seats of the other channels. -/

namespace Sys2Proof.Machine

set_option Elab.async false

/-! ## Folds over the slots of a channel -/

/-- A fold over the slots of a channel whose state passes `p`, where each step leaves the entries of all other slots: a
property kept by the step at a slot that still passes holds at the end. -/
theorem foldl_slots {P : State → Prop} {f : State → Nat → State} {s : State} (rises : mapRises 0 s.roster = true) (c : Nat)
    (p : EntryState → Bool) (apart : ∀ t k j, j ≠ k → (f t k).entry j = t.entry j) (start : P s)
    (step : ∀ t k e, P t → t.entry k = some e → e.channel = c → p e.state = true → P (f t k)) :
    P ((s.slotsIn c p).foldl f s) := by
  have run : ∀ (xs : List Nat) (t : State), xs.Nodup →
      (∀ k ∈ xs, ∃ e, t.entry k = some e ∧ e.channel = c ∧ p e.state = true) → P t → P (xs.foldl f t) := by
    intro xs
    induction xs with
    | nil => intro t _ _ h; exact h
    | cons k xs ih =>
      intro t distinct here h
      obtain ⟨own, distinct⟩ := List.nodup_cons.1 distinct
      obtain ⟨e, found, channel, passes⟩ := here k List.mem_cons_self
      refine ih _ distinct (fun j hj => ?_) (step t k e h found channel passes)
      rw [apart t k j fun same => own (same ▸ hj)]
      exact here j (List.mem_cons_of_mem _ hj)
  exact run _ s (State.slotsIn_nodup rises c p) (fun k hk => (State.mem_slotsIn rises).1 hk) start

/-- What a fold over distinct slots leaves of each entry, when each step changes its own slot's entry by `f` while `K`
holds. -/
theorem foldl_entries_while {K : State → Prop} {step : State → Nat → State} {f : Entry → Entry}
    (keeps : ∀ t k, K t → K (step t k))
    (one : ∀ t k j, K t → (step t k).entry j = if k = j then (t.entry j).map f else t.entry j) {xs : List Nat}
    (distinct : xs.Nodup) {s : State} (start : K s) (j : Nat) :
    (xs.foldl step s).entry j = if j ∈ xs then (s.entry j).map f else s.entry j := by
  induction xs generalizing s with
  | nil => simp
  | cons k xs ih =>
    obtain ⟨fresh, distinct⟩ := List.nodup_cons.1 distinct
    rw [List.foldl_cons, ih distinct (keeps s k start), one s k j start]
    by_cases own : k = j
    · subst own; simp [fresh]
    · simp [own, Ne.symm own]

/-- Each entry after a change at slot `k`. -/
theorem State.entry_changed (s : State) (k j : Nat) (f : Entry → Entry) :
    (s.onEntry k f).entry j = if k = j then (s.entry j).map f else s.entry j := by
  rw [State.entry_onEntry]
  by_cases same : k = j
  · rw [if_pos same, if_pos same, same]
  · rw [if_neg same, if_neg same]

/-! ## One channel's entries and seats -/

/-- What the units make of an entry that stands: its id and channel stay, its seat stays or goes, and COLLECTED is
final. -/
structure Entry.Follows (e e' : Entry) : Prop where
  id : e'.id = e.id
  channel : e'.channel = e.channel
  seat : e'.seat = e.seat ∨ e'.seat = none
  collected : e.state = .collected → e'.state = .collected

theorem Entry.Follows.refl (e : Entry) : e.Follows e := ⟨rfl, rfl, .inl rfl, fun h => h⟩

theorem Entry.Follows.trans {d e f : Entry} (h : d.Follows e) (g : e.Follows f) : d.Follows f where
  id := g.id.trans h.id
  channel := g.channel.trans h.channel
  seat := by
    rcases g.seat with same | gone
    · rw [same]; exact h.seat
    · exact .inr gone
  collected := fun x => g.collected (h.collected x)

/-- From `s` to `t` no entry has come or gone, only entries of channel `c` have changed, and only seats that such an entry
names, vacated. -/
structure Confined (c : Nat) (s t : State) : Prop where
  free : ∀ k, s.entry k = none → t.entry k = none
  entry : ∀ k e, s.entry k = some e → ∃ e', t.entry k = some e' ∧ e.Follows e' ∧ (e.channel ≠ c → e' = e)
  seat : ∀ i, (∀ k e, s.entry k = some e → e.channel = c → e.seat ≠ some i) → t.seat i = s.seat i
  left : ∀ i, t.seat i = s.seat i ∨ (t.seat i).occ.slot = none

namespace Confined

variable {c : Nat} {s t u : State}

theorem refl (s : State) : Confined c s s := ⟨fun _ => id, fun _ e h => ⟨e, h, .refl e, fun _ => rfl⟩, fun _ _ => rfl, fun _ => .inl rfl⟩

/-- An entry that stands after was there before. -/
theorem back (h : Confined c s t) {k : Nat} {e' : Entry} (found : t.entry k = some e') :
    ∃ e, s.entry k = some e ∧ e.Follows e' ∧ (e.channel ≠ c → e' = e) := by
  cases before : s.entry k with
  | none => rw [h.free k before] at found; cases found
  | some e =>
    obtain ⟨x, after, follows, other⟩ := h.entry k e before
    cases found.symm.trans after
    exact ⟨e, rfl, follows, other⟩

theorem next (h : Confined c s t) (g : Confined c t u) : Confined c s u where
  free := fun k free => g.free k (h.free k free)
  entry := fun k e found => by
    obtain ⟨e', found', follows, other⟩ := h.entry k e found
    obtain ⟨x, last, follows', other'⟩ := g.entry k e' found'
    exact ⟨x, last, follows.trans follows', fun apart => by rw [other' (by rw [follows.channel]; exact apart), other apart]⟩
  seat := fun i unnamed => by
    rw [g.seat i fun k e' found' own => ?_, h.seat i unnamed]
    obtain ⟨e, found, follows, -⟩ := h.back found'
    rcases follows.seat with same | gone
    · rw [same]; exact unnamed k e found (follows.channel ▸ own)
    · rw [gone]; nofun
  left := fun i => by
    rcases g.left i with same | gone
    · rw [same]; exact h.left i
    · exact .inr gone

/-- The entry of another channel stands. -/
theorem other (h : Confined c s t) {k : Nat} {e : Entry} (found : s.entry k = some e) (apart : e.channel ≠ c) :
    t.entry k = some e := by
  obtain ⟨e', found', -, same⟩ := h.entry k e found
  rw [found', same apart]

theorem of_moves {k : List Part} (h : Moves k s t) (h1 : Part.roster ∉ k := by decide)
    (h2 : Part.seats ∉ k := by decide) : Confined c s t :=
  ⟨fun j free => by rw [h.frame.entry j h1]; exact free,
    fun j e found => ⟨e, by rw [h.frame.entry j h1]; exact found, .refl e, fun _ => rfl⟩, fun i _ => h.frame.seat i h2,
    fun i => .inl (h.frame.seat i h2)⟩

theorem ite {p : Prop} [Decidable p] (h : p → Confined c s t) (g : ¬p → Confined c s u) :
    Confined c s (if p then t else u) := by
  by_cases x : p
  · simpa [x] using h x
  · simpa [x] using g x

/-- A change of one entry of the channel, and of no seat but the one it names. -/
theorem of_entry {k : Nat} {e e' : Entry} (found : s.entry k = some e) (own : e.channel = c) (follows : e.Follows e')
    (entry : ∀ j, t.entry j = if k = j then .some e' else s.entry j)
    (seat : ∀ i, e.seat ≠ .some i → t.seat i = s.seat i)
    (vacated : ∀ i, t.seat i = s.seat i ∨ (t.seat i).occ.slot = .none) : Confined c s t where
  free := fun j free => by
    rw [entry, if_neg]
    · exact free
    · rintro rfl; rw [found] at free; cases free
  entry := fun j x there => by
    by_cases same : k = j
    · subst same
      cases found.symm.trans there
      exact ⟨e', by simp [entry], follows, fun apart => absurd own apart⟩
    · exact ⟨x, by simp [entry, same, there], .refl x, fun _ => rfl⟩
  seat := fun i unnamed => seat i (unnamed k e found own)
  left := vacated

theorem onEntry {k : Nat} {e : Entry} (found : s.entry k = some e) (own : e.channel = c) {f : Entry → Entry}
    (follows : e.Follows (f e)) : Confined c s (s.onEntry k f) :=
  of_entry found own follows (fun j => by
    rw [State.entry_onEntry]
    by_cases same : k = j
    · subst same; simp [found]
    · simp [same]) (fun i _ => by simp) fun i => .inl (by simp)

theorem enterPhase (s : State) (d : Nat) (x : ChanState) : Confined c s (s.enterPhase d x) :=
  .of_moves (Moves.enterPhase s d x)

theorem notify (s : State) (x : Subject) : Confined c s (s.notify x) := .of_moves (Moves.notify s x)

theorem onChan (s : State) (d : Nat) (f : Channel → Channel) : Confined c s (s.onChan d f) :=
  ⟨fun _ h => h, fun _ e h => ⟨e, h, .refl e, fun _ => rfl⟩, fun _ _ => rfl, fun _ => .inl rfl⟩

/-- A fold over the slots of the channel that pass `p`. -/
theorem slots {f : State → Nat → State} {p : EntryState → Bool} (rises : mapRises 0 s.roster = true)
    (apart : ∀ t k j, j ≠ k → (f t k).entry j = t.entry j)
    (step : ∀ t k e, t.entry k = some e → e.channel = c → p e.state = true → Confined c t (f t k)) :
    Confined c s ((s.slotsIn c p).foldl f s) :=
  foldl_slots rises c p apart (.refl s) fun t k e h found own passes => h.next (step t k e found own passes)

end Confined

/-! ## The candidate clock unit -/

variable {c : Nat} {s : State}

theorem State.depart_apart (s : State) (w : ClosingWord) {k j : Nat} (other : j ≠ k) :
    (s.depart k w).entry j = s.entry j := by
  cases found : s.entry k with
  | none => simp [State.depart, found]
  | some e => rw [State.entry_depart found, if_neg other.symm]

theorem Seat.vacated_slot (r : Seat) (n : Nat) (w : ClosingWord) : (r.vacated n w).occ.slot = none := by
  unfold Seat.vacated
  dsimp only
  split <;> rfl

theorem Confined.depart {k : Nat} {e : Entry} (found : s.entry k = some e) (own : e.channel = c)
    (here : e.state ≠ .collected) (w : ClosingWord) : Confined c s (s.depart k w) :=
  .of_entry found own (e' := s.departed e w) ⟨rfl, rfl, .inr rfl, fun h => absurd h here⟩ (State.entry_depart found w)
    (fun i apart => by rw [State.seat_depart found, if_neg apart]) fun i => by
      rw [State.seat_depart found]
      split
      · exact .inr (Seat.vacated_slot _ _ _)
      · exact .inl rfl

theorem State.entry_exhaust (s : State) (k j : Nat) :
    (s.exhaust k).entry j = if k = j then (s.entry j).map fun e => { e with budgetOut := true } else s.entry j := by
  unfold State.exhaust
  cases found : s.entry k with
  | none =>
    by_cases same : k = j
    · subst same; simp [found]
    · simp [same]
  | some e =>
    by_cases same : k = j
    · subst same; simp [found]
    · simp [same]

/-- What a writing second leaves of an entry of its channel (R61, R66, R70, R71, R130). -/
def State.counts (s : State) (e : Entry) : Entry :=
  if e.state.isWriting then
    if e.state = .onBreak ∧ 0 < e.remaining then
      { e.count with budgetOut := e.budgetOut || decide (e.count.remaining = 0) }
    else if e.allowed ≤ e.count.written then s.departed e.count .timeUp
    else e.count
  else e

theorem Entry.count_keeps (e : Entry) : e.count.state = e.state ∧ e.count.seat = e.seat ∧ e.count.id = e.id ∧
    e.count.budgetOut = e.budgetOut ∧ e.count.booklets = e.booklets := by
  unfold Entry.count; split <;> simp

theorem State.departed_congr {s t : State} (time : t.time = s.time) (booklets : t.booklets = s.booklets) (e : Entry)
    (w : ClosingWord) : t.departed e w = s.departed e w := by
  have back : t.isReturned = s.isReturned := funext fun b => State.isReturned_congr booklets b
  simp [State.departed, time, back]

theorem State.counts_congr {s t : State} (time : t.time = s.time) (booklets : t.booklets = s.booklets) (e : Entry) :
    t.counts e = s.counts e := by
  simp [State.counts, State.departed_congr time booklets]

theorem State.entry_countEntry (s : State) (k j : Nat) :
    (s.countEntry k).entry j = if k = j then (s.entry j).map s.counts else s.entry j := by
  unfold State.countEntry
  by_cases same : k = j
  · subst same
    rw [if_pos rfl]
    cases found : s.entry k with
    | none => simp [found]
    | some e =>
      dsimp only
      rw [Option.map_some]
      have put : (s.putEntry k e.count).entry k = some e.count := by simp
      by_cases writes : e.state.isWriting = true
      · rw [if_pos writes]
        unfold State.counts
        rw [if_pos writes]
        by_cases pause : e.state = .onBreak ∧ 0 < e.remaining
        · rw [if_pos pause, if_pos pause]
          by_cases last : e.count.remaining = 0
          · simp [last, State.entry_exhaust]
          · simp [last, (Entry.count_keeps e).2.2.2.1.symm]
        · rw [if_neg pause, if_neg pause]
          by_cases past : e.allowed ≤ e.count.written
          · rw [if_pos past, if_pos past, State.entry_depart put, if_pos rfl]
            rw [State.departed_congr (t := s.putEntry k e.count) (s := s) rfl rfl]
          · rw [if_neg past, if_neg past, (Moves.warnTest _ k).frame.entry, put]
      · rw [if_neg writes, found]
        simp [State.counts, writes]
  · rw [if_neg same]
    cases found : s.entry k with
    | none => rfl
    | some e =>
      dsimp only
      have put : (s.putEntry k e.count).entry j = s.entry j := by simp [same]
      split
      · split
        · split
          · rw [State.entry_exhaust, if_neg same, put]
          · exact put
        · split
          · rw [State.depart_apart _ _ (Ne.symm same), put]
          · rw [(Moves.warnTest _ k).frame.entry, put]
      · rfl

theorem State.counts_follows (s : State) (e : Entry) : e.Follows (s.counts e) := by
  obtain ⟨state, seat, id, -⟩ := Entry.count_keeps e
  have channel := Entry.count_channel e
  unfold State.counts
  split
  · rename_i writes
    split
    · exact ⟨id, channel, .inl seat, fun h => state.trans h⟩
    · split
      · exact ⟨id, channel, .inr rfl, fun h => by rw [h] at writes; cases writes⟩
      · exact ⟨id, channel, .inl seat, fun h => state.trans h⟩
  · exact .refl e

theorem State.seat_countEntry {k : Nat} {e : Entry} (found : s.entry k = some e) (i : Nat) (apart : e.seat ≠ some i) :
    (s.countEntry k).seat i = s.seat i := by
  have put : (s.putEntry k e.count).entry k = some e.count := by simp
  unfold State.countEntry
  rw [found]
  dsimp only
  split
  · split
    · split
      · rw [(Moves.exhaust _ k).frame.seat, State.seat_putEntry]
      · rw [State.seat_putEntry]
    · split
      · rw [State.seat_depart put, if_neg (by rw [(Entry.count_keeps e).2.1]; exact apart), State.seat_putEntry]
      · rw [(Moves.warnTest _ k).frame.seat, State.seat_putEntry]
  · rfl

theorem State.left_countEntry (s : State) (k i : Nat) :
    (s.countEntry k).seat i = s.seat i ∨ ((s.countEntry k).seat i).occ.slot = none := by
  unfold State.countEntry
  split
  · exact .inl rfl
  · next e found =>
    have put : (s.putEntry k e.count).entry k = some e.count := by simp
    dsimp only
    split
    · split
      · split
        · exact .inl ((Moves.exhaust _ k).frame.seat i)
        · exact .inl rfl
      · split
        · rw [State.seat_depart put]
          split
          · exact .inr (Seat.vacated_slot _ _ _)
          · exact .inl rfl
        · exact .inl ((Moves.warnTest _ k).frame.seat i)
    · exact .inl rfl

theorem State.countEntry_apart (s : State) {k j : Nat} (other : j ≠ k) : (s.countEntry k).entry j = s.entry j := by
  rw [State.entry_countEntry, if_neg other.symm]

theorem Confined.countEntry {k : Nat} {e : Entry} (found : s.entry k = some e) (own : e.channel = c) :
    Confined c s (s.countEntry k) :=
  .of_entry found own (State.counts_follows s e) (fun j => by
    rw [State.entry_countEntry]
    by_cases same : k = j
    · subst same; simp [found]
    · simp [same]) (fun i apart => State.seat_countEntry found i apart) (State.left_countEntry s k)

theorem Confined.countChannel (rises : mapRises 0 s.roster = true) : Confined c s (s.countChannel c) :=
  .slots rises (fun t _ _ other => State.countEntry_apart t other) fun _ _ _ found own _ => .countEntry found own

/-- What the writing second leaves of every entry. -/
theorem State.entry_countChannel (rises : mapRises 0 s.roster = true) (c k : Nat) :
    (s.countChannel c).entry k = (s.entry k).map fun e => if e.channel = c then s.counts e else e := by
  unfold State.countChannel
  rw [foldl_entries_while (K := fun t => t.time = s.time ∧ t.booklets = s.booklets) (f := s.counts)
    (fun t k h => ⟨(Moves.countEntry t k).frame.time.trans h.1,
      ((Moves.countEntry t k).frame.2 .booklets (by decide)).1.trans h.2⟩)
    (fun t k j h => by
      rw [State.entry_countEntry, funext fun e => State.counts_congr h.1 h.2 e])
    (State.slotsIn_nodup rises c _) ⟨rfl, rfl⟩]
  cases found : s.entry k with
  | none => simp
  | some e =>
    by_cases own : e.channel = c
    · by_cases writes : e.state.isWriting = true
      · rw [if_pos ((State.mem_slotsIn rises).2 ⟨e, found, own, writes⟩)]
        simp [own]
      · rw [if_neg]
        · simp [own, State.counts, writes]
        · intro mem
          obtain ⟨x, there, -, yes⟩ := (State.mem_slotsIn rises).1 mem
          cases found.symm.trans there
          exact writes yes
    · rw [if_neg]
      · simp [own]
      · intro mem
        obtain ⟨x, there, yes, -⟩ := (State.mem_slotsIn rises).1 mem
        cases found.symm.trans there
        exact own yes

/-! ## Starts and amendments -/

theorem State.entry_startWriter (s : State) (k j : Nat) :
    (s.startWriter k).entry j = if k = j then (s.entry j).map fun e => { e with state := .writing, written := 0 }
      else s.entry j := by
  unfold State.startWriter
  rw [State.entry_markEntry, State.entry_dropWarning, State.entry_changed]

theorem Confined.startWriters (rises : mapRises 0 s.roster = true) : Confined c s (s.startWriters c) :=
  .slots rises (fun t k j other => by rw [State.entry_startWriter, if_neg other.symm]) fun t k e found own seated => by
    have here : e.state = .seated := by simpa using seated
    refine .of_entry found own (e' := { e with state := .writing, written := 0 }) ⟨rfl, rfl, .inl rfl, fun h => ?_⟩
      (fun j => ?_) (fun i _ => (Moves.startWriter t k).frame.seat i) fun i => .inl ((Moves.startWriter t k).frame.seat i)
    · rw [here] at h; cases h
    · rw [State.entry_startWriter]
      by_cases same : k = j
      · subst same; simp [found]
      · simp [same]

theorem State.entry_recompute (s : State) (w k j : Nat) :
    (s.recompute w k).entry j = if k = j then (s.entry j).map fun e => { e with allowed := allowedSeconds w e.percent }
      else s.entry j := by
  have changed := State.entry_changed s k j fun e => { e with allowed := allowedSeconds w e.percent }
  unfold State.recompute
  dsimp only
  split
  · rw [(Moves.warnTest _ k).frame.entry, State.entry_markEntry, changed]
  · exact changed

theorem Confined.recomputeAll (rises : mapRises 0 s.roster = true) (w : Nat) : Confined c s (s.recomputeAll c w) :=
  .slots rises (fun t k j other => by rw [State.entry_recompute, if_neg other.symm]) fun t k e found own _ => by
    refine .of_entry found own (e' := { e with allowed := allowedSeconds w e.percent }) ⟨rfl, rfl, .inl rfl, fun h => h⟩
      (fun j => ?_) (fun i _ => (Moves.recompute t w k).frame.seat i) fun i => .inl ((Moves.recompute t w k).frame.seat i)
    rw [State.entry_recompute]
    by_cases same : k = j
    · subst same; simp [found]
    · simp [same]

theorem Confined.applyPending (rises : mapRises 0 s.roster = true) : Confined c s (s.applyPending c) := by
  unfold State.applyPending
  split
  · refine .ite (fun _ => .of_moves (Moves.dropAmendment s c)) fun _ => ?_
    unfold State.amend
    exact ((Confined.onChan s c _).next (.recomputeAll (by simpa using rises) _)).next (.notify _ _)
  · exact .refl s

theorem Confined.startWriting (canonical : s.canonical = true) : Confined c s (s.startWriting c) := by
  unfold State.startWriting
  have c1 := (Moves.onChan s c fun ch => { ch with state := .writing, writeElapsed := 0 }).canonical canonical
  have h1 := Confined.onChan (c := c) s c fun ch => { ch with state := .writing, writeElapsed := 0 }
  have c2 := (Moves.startWriters _ c).canonical c1
  exact ((h1.next (.startWriters (State.roster_rises c1))).next (.applyPending (State.roster_rises c2))).next (.notify _ _)

theorem Confined.startChannel (canonical : s.canonical = true) : Confined c s (s.startChannel c) :=
  .ite (fun _ => ((Confined.onChan s c _).next (.enterPhase _ c _)).next (.of_moves (Moves.markEntries _ c _)))
    fun _ => .startWriting canonical

/-! ## The close of admission and base end -/

theorem State.shutOut_apart (s : State) {k j : Nat} (other : j ≠ k) : (s.shutOut k).entry j = s.entry j := by
  unfold State.shutOut
  split
  · rfl
  · dsimp only
    rw [State.entry_onEntry, if_neg other.symm]
    split
    · split
      · exact (Moves.releaseHold s _).frame.entry j
      · rfl
    · rfl

theorem State.entry_shutOut (s : State) (k j : Nat) :
    (s.shutOut k).entry j = if k = j then (s.entry j).map fun e => { e with state := .absent, seat := none }
      else s.entry j := by
  by_cases same : k = j
  · subst same
    rw [if_pos rfl]
    unfold State.shutOut
    cases found : s.entry k with
    | none => simp [found]
    | some e =>
      have kept : ∀ t : State, Unchanged [.seats] s t →
          (t.onEntry k fun e => { e with state := .absent, seat := none }).entry k =
            some { e with state := .absent, seat := none } := fun t h => by
        rw [State.entry_onEntry, if_pos rfl, h.entry, found]; rfl
      dsimp only
      rw [Option.map_some]
      split
      · split
        · exact kept _ (Moves.releaseHold s _).frame
        · exact kept s (.refl _ s)
      · exact kept s (.refl _ s)
  · rw [if_neg same, State.shutOut_apart s (Ne.symm same)]

theorem State.seat_shutOut {k : Nat} {e : Entry} (found : s.entry k = some e) (i : Nat) :
    (s.shutOut k).seat i = if e.seat = some i ∧ e.state = .allocated
      then { s.seat i with occ := .free, closing := .none } else s.seat i := by
  unfold State.shutOut
  rw [found]
  dsimp only
  rw [State.seat_onEntry]
  cases e.seat with
  | none => simp
  | some j =>
    dsimp only
    by_cases held : e.state = .allocated
    · rw [if_pos held, State.seat_releaseHold]
      by_cases same : j = i
      · subst same; simp [held]
      · simp [same]
    · simp [held]

/-- EXPECTED or ALLOCATED: the states that the close of admission ends. -/
def EntryState.isOut (x : EntryState) : Bool := decide (x = .expected) || decide (x = .allocated)

theorem Confined.shutOut {k : Nat} {e : Entry} (found : s.entry k = some e) (own : e.channel = c)
    (out : e.state.isOut = true) : Confined c s (s.shutOut k) :=
  .of_entry found own (e' := { e with state := .absent, seat := none })
    ⟨rfl, rfl, .inr rfl, fun h => by rw [h] at out; cases out⟩ (fun j => by
      rw [State.entry_shutOut]
      by_cases same : k = j
      · subst same; simp [found]
      · simp [same]) (fun i apart => by rw [State.seat_shutOut found, if_neg fun h => apart h.1]) fun i => by
        rw [State.seat_shutOut found]
        split
        · exact .inr rfl
        · exact .inl rfl

theorem Confined.closeAdmission (rises : mapRises 0 s.roster = true) : Confined c s (s.closeAdmission c) := by
  unfold State.closeAdmission
  refine Confined.next ?_ (.notify _ _)
  have same : (s.onChan c fun ch => { ch with closed := true }).slotsIn c (fun st => decide (st = .expected) || decide (st = .allocated)) =
      s.slotsIn c fun st => decide (st = .expected) || decide (st = .allocated) := State.slotsIn_congr rfl c _
  rw [← same]
  exact (Confined.onChan s c _).next
    (.slots (by simpa using rises) (fun t _ _ other => State.shutOut_apart t other) fun _ _ _ found own out =>
      .shutOut found own out)

theorem Confined.closeOnce (rises : mapRises 0 s.roster = true) : Confined c s (s.closeOnce c) :=
  .ite (fun _ => .refl s) fun _ => .closeAdmission rises

theorem Confined.endBase (rises : mapRises 0 s.roster = true) : Confined c s (s.endBase c) := by
  unfold State.endBase
  have h : Confined c s ((s.closeOnce c).dropAmendment c) :=
    (Confined.closeOnce rises).next (.of_moves (Moves.dropAmendment _ c))
  exact .ite (fun _ => h.next (.enterPhase _ c _)) fun _ => h.next (.of_moves (Moves.enterCollecting _ c))

/-! ## The channel second -/

theorem Confined.secondAmendment (rises : mapRises 0 s.roster = true) : Confined c s (s.secondAmendment c) :=
  .ite (fun _ => .applyPending rises) fun _ => .refl s

theorem Moves.secondAmendment (s : State) (c : Nat) :
    Moves [.channels, .roster, .flags, .notices] s (s.secondAmendment c) := .ite (fun _ => .applyPending s c) fun _ => .refl s

theorem Moves.secondClose (s : State) (c : Nat) :
    Moves [.channels, .roster, .seats, .flags, .notices] s (s.secondClose c) := .ite (fun _ => .closeOnce s c) fun _ => .refl s

theorem Confined.writingSecond (canonical : s.canonical = true) : Confined c s (s.writingSecond c) := by
  unfold State.writingSecond
  set s1 := s.onChan c fun ch => { ch with writeElapsed := ch.writeElapsed + 1 } with h1
  have c1 : s1.canonical = true := (Moves.onChan s c _).canonical canonical
  have c2 : (s1.secondAmendment c).canonical = true := (Moves.secondAmendment s1 c).canonical c1
  have c3 : ((s1.secondAmendment c).countChannel c).canonical = true := (Moves.countChannel _ c).canonical c2
  have c4 := (Moves.secondClose ((s1.secondAmendment c).countChannel c) c).canonical c3
  exact ((((Confined.onChan s c _).next (.secondAmendment (State.roster_rises c1))).next
    (.countChannel (State.roster_rises c2))).next
      (.ite (fun _ => .closeOnce (State.roster_rises c3)) fun _ => .refl _)).next
        (.ite (fun _ => .endBase (State.roster_rises c4)) fun _ => .refl _)

theorem Confined.readingSecond (canonical : s.canonical = true) : Confined c s (s.readingSecond c) := by
  unfold State.readingSecond
  have h : Moves [.channels] s ((s.onChan c fun ch => { ch with readElapsed := ch.readElapsed + 1 }).readingMarks c) :=
    (Moves.onChan s c _).next (.readingMarks _ c)
  exact .ite (fun _ => (Confined.of_moves h).next (.startWriting (h.canonical canonical))) fun _ => .of_moves h

theorem Confined.timedAttempt (s : State) (d : Nat) : Confined c s (s.timedAttempt d) := by
  unfold State.timedAttempt
  split
  · exact .enterPhase s d _
  · exact (Confined.onChan s d _).next (.notify _ _)

theorem Confined.tickChannel (canonical : s.canonical = true) : Confined c s (s.tickChannel c) := by
  unfold State.tickChannel State.heldSecond
  split
  · exact .ite (fun _ => .timedAttempt s c) fun _ => .refl s
  · exact .ite (fun _ => .startChannel canonical) fun _ => .refl s
  · exact .ite (fun _ => .onChan s c _) fun _ => .readingSecond canonical
  · exact .ite (fun _ => .onChan s c _) fun _ => .writingSecond canonical
  · exact .ite (fun _ => .onChan s c _) fun _ => .writingSecond canonical
  · exact .refl s

theorem Confined.passTick (canonical : s.canonical = true) : Confined c s (s.passTick c) :=
  ((Confined.of_moves (Moves.giveTick s _)).next (.tickChannel ((Moves.giveTick s _).canonical canonical))).next
    (.of_moves (Moves.giveTick _ _))

end Sys2Proof.Machine
end

section
/-! PROOF. The second tick: an invariant rule for its three consumers in any order and its sixteen channels in order, and
the state in which a command that brings a second tick alone takes it. -/

namespace Sys2Proof.Machine

set_option Elab.async false

/-! ## One rule for every order of the consumers -/

/-- What holds after the hall time has advanced, is kept by the seat allocator and the signal lines before the sitting unit
and after it, and is handed from one channel's tick to the next, holds at the end of a second tick. -/
theorem State.secondTick_rule (I : Nat → State → Prop) {s : State} (o : TickOrder)
    (start : I 0 (s.onTime TimeBase.second)) (seats : ∀ t n, n = 0 ∨ n = 16 → I n t → I n t.tickSeats)
    (signals : ∀ t n, n = 0 ∨ n = 16 → I n t → I n t.tickSignals)
    (pass : ∀ t n, n < 16 → I n t → I (n + 1) (t.passTick n)) : I 16 (s.secondTick o) := by
  have sitting : ∀ t, I 0 t → I 16 t.tickSittings := by
    intro t h
    have run : ∀ n, n ≤ 16 → I n ((List.range n).foldl State.passTick t) := by
      intro n
      induction n with
      | zero => intro _; exact h
      | succ n ih =>
        intro hn
        rw [List.range_succ, List.foldl_append]
        exact pass _ n (by omega) (ih (by omega))
    exact run 16 (Nat.le_refl _)
  have before : ∀ t, I 0 t → I 0 t.tickSeats ∧ I 0 t.tickSignals := fun t h => ⟨seats t 0 (.inl rfl) h, signals t 0 (.inl rfl) h⟩
  have after : ∀ t, I 16 t → I 16 t.tickSeats ∧ I 16 t.tickSignals := fun t h =>
    ⟨seats t 16 (.inr rfl) h, signals t 16 (.inr rfl) h⟩
  unfold State.secondTick
  generalize s.onTime TimeBase.second = u at start
  have first := sitting u start
  have seated := (before u start).1
  have driven := (before u start).2
  cases o <;> simp only [consumersOf, List.foldl_cons, List.foldl_nil, State.consume]
  case sittingSeatsSignals => exact (after _ (after _ first).1).2
  case sittingSignalsSeats => exact (after _ (after _ first).2).1
  case seatsSittingSignals => exact (after _ (sitting _ seated)).2
  case seatsSignalsSitting => exact sitting _ (before _ seated).2
  case signalsSittingSeats => exact (after _ (sitting _ driven)).1
  case signalsSeatsSitting => exact sitting _ (before _ driven).1

/-- The same about one channel: what holds before its own tick, and what its tick makes of it. -/
theorem State.secondTick_split {c : Nat} (hc : c < 16) (K Q : State → Prop) {s : State} (o : TickOrder)
    (start : K (s.onTime TimeBase.second))
    (seats : ∀ t, K t → K t.tickSeats) (signals : ∀ t, K t → K t.tickSignals) (below : ∀ t d, d < c → K t → K (t.passTick d))
    (own : ∀ t, K t → Q (t.passTick c))
    (seats' : ∀ t, Q t → Q t.tickSeats) (signals' : ∀ t, Q t → Q t.tickSignals)
    (above : ∀ t d, c < d → d < 16 → Q t → Q (t.passTick d)) : Q (s.secondTick o) := by
  have h := State.secondTick_rule (fun n t => if n ≤ c then K t else Q t) (s := s) o (by simpa using start) ?_ ?_ ?_
  · rwa [if_neg (by omega)] at h
  · rintro t n (rfl | rfl) h
    · simpa using seats t (by simpa using h)
    · rw [if_neg (by omega)] at h ⊢; exact seats' t h
  · rintro t n (rfl | rfl) h
    · simpa using signals t (by simpa using h)
    · rw [if_neg (by omega)] at h ⊢; exact signals' t h
  · intro t n hn h
    by_cases before : n ≤ c
    · rw [if_pos before] at h
      by_cases here : n = c
      · subst here; rw [if_neg (by omega)]; exact own t h
      · rw [if_pos (by omega)]; exact below t n (by omega) h
    · rw [if_neg before] at h
      rw [if_neg (by omega)]
      exact above t n (by omega) hn h

/-! ## The consumers leave -/

theorem State.signal_tickSignals (s : State) (n : Nat) :
    s.tickSignals.signal n = if n < 8 then s.tickSignal (s.signal n) else s.signal n := by
  have run : ∀ m, ((List.range m).foldl (fun t n => t.onSignal n s.tickSignal) s).signal n =
      if n < m then s.tickSignal (s.signal n) else s.signal n := by
    intro m
    induction m with
    | zero => simp
    | succ m ih =>
      rw [List.range_succ, List.foldl_append, List.foldl_cons, List.foldl_nil, State.signal_onSignal, ih]
      by_cases own : m = n
      · subst own; simp [ih]
      · rw [if_neg own]
        congr 1
        exact propext ⟨fun h => by omega, fun h => by omega⟩
  exact run 8

/-! ## The commands that bring a second tick -/

/-- The record of a channel without its key store. -/
def Channel.sitting (c : Channel) : Channel :=
  { c with active := .a, generation := 0, stage := .idle, bankA := [], bankB := [] }

/-- The state `u`, in which a second tick is taken, stands as `s` where a second tick looks. -/
structure Readied (s u : State) : Prop where
  hallTime : u.time.hallTime = s.time.hallTime
  held : u.time.held = s.time.held
  refState : u.time.refState = s.time.refState
  hall : u.hall = s.hall
  seats : u.seats = s.seats
  roster : u.roster = s.roster
  warnings : u.warnings = s.warnings
  booklets : u.booklets = s.booklets
  signals : u.signals = s.signals
  chan : ∀ c, (u.chan c).sitting = (s.chan c).sitting
  line : ∀ l, (u.line l).exchange = (s.line l).exchange ∧ (u.line l).state = (s.line l).state ∧
    (u.line l).marks = (s.line l).marks
  canonical : s.canonical = true → u.canonical = true
  lawful : s.linesLawful = true → u.linesLawful = true

theorem Readied.onTime {s : State} {f : TimeBase → TimeBase} (hallTime : (f s.time).hallTime = s.time.hallTime)
    (held : (f s.time).held = s.time.held) (refState : (f s.time).refState = s.time.refState) :
    Readied s (s.onTime f) where
  hallTime := hallTime
  held := held
  refState := refState
  hall := rfl
  seats := rfl
  roster := rfl
  warnings := rfl
  booklets := rfl
  signals := rfl
  chan := fun _ => rfl
  line := fun _ => ⟨rfl, rfl, rfl⟩
  canonical := (Moves.onTime s f).canonical
  lawful := (Moves.onTime s f).lawful

/-- What the interval timer of a line never touches. -/
def Line.posted (n : Line) : Option Exchange × LineState × List Nat := (n.exchange, n.state, n.marks)

theorem Line.posted_oweAll (present : List Nat) (n : Line) : (n.oweAll present).posted = n.posted :=
  foldl_keeps Line.posted _ (fun m a => by
    dsimp only
    split <;> rfl) present n

theorem State.posted_onLine (s : State) (l m : Nat) (f : Line → Line) (same : ∀ n, (f n).posted = n.posted) :
    ((s.onLine l f).line m).posted = (s.line m).posted := by
  rw [State.line_onLine]
  split
  · next own => subst own; exact same _
  · rfl

theorem State.posted_discoveryRound (s : State) (l m : Nat) : ((s.discoveryRound l).line m).posted = (s.line m).posted :=
  foldl_keeps (fun t : State => (t.line m).posted) _ (fun t a => by
    split
    · exact t.posted_onLine l m _ fun _ => rfl
    · rfl) (s.configuredAddrs l) s

theorem State.posted_endInterval (s : State) (l m : Nat) : ((s.endInterval l).line m).posted = (s.line m).posted := by
  have restarted := s.posted_onLine l m (fun n => { n with timer := 0, interval := s.pollInterval l }) fun _ => rfl
  unfold State.endInterval
  dsimp only
  split
  · unfold State.advanceDiscovery
    have owed := (s.restartInterval l).posted_onLine l m _ fun n => Line.posted_oweAll (s.presentAddrs l) n
    split
    · rw [State.posted_discoveryRound, State.posted_onLine _ _ _ _ (by intro _; rfl), owed]
      exact restarted
    · rw [State.posted_onLine _ _ _ _ (by intro _; rfl), owed]
      exact restarted
  · exact restarted

theorem State.posted_tickLine (s : State) (l m : Nat) : ((s.tickLine l).line m).posted = (s.line m).posted := by
  have counted := s.posted_onLine l m (fun n => { n with timer := n.timer + 1 }) fun _ => rfl
  unfold State.tickLine
  dsimp only
  split
  · rw [State.posted_endInterval, counted]
  · exact counted

theorem State.warnings_discoveryRound (s : State) (l : Nat) : (s.discoveryRound l).warnings = s.warnings :=
  foldl_keeps State.warnings _ (fun u a => by split <;> rfl) (s.configuredAddrs l) s

theorem State.warnings_endInterval (s : State) (l : Nat) : (s.endInterval l).warnings = s.warnings := by
  unfold State.endInterval State.advanceDiscovery State.restartInterval
  dsimp only
  split
  · split
    · rw [State.warnings_discoveryRound]; simp only [State.onLine_warnings]
    · simp only [State.onLine_warnings]
  · simp only [State.onLine_warnings]

theorem State.warnings_tickLine (s : State) (l : Nat) : (s.tickLine l).warnings = s.warnings := by
  unfold State.tickLine
  dsimp only
  split
  · rw [State.warnings_endInterval, State.onLine_warnings]
  · rw [State.onLine_warnings]

theorem State.warnings_tickLines (s : State) : s.tickLines.warnings = s.warnings :=
  foldl_keeps State.warnings State.tickLine State.warnings_tickLine lineNumbers s

theorem State.posted_tickLines (s : State) (l : Nat) : (s.tickLines.line l).posted = (s.line l).posted :=
  foldl_keeps (fun t : State => (t.line l).posted) State.tickLine (fun t m => t.posted_tickLine m l) lineNumbers s

theorem Channel.sitting_tickCommit (c : Channel) : c.tickCommit.sitting = c.sitting := by
  unfold Channel.tickCommit
  split
  · split
    · unfold Channel.commit
      dsimp only
      split <;> rfl
    · rfl
  · rfl

theorem State.chan_sitting_tickCommits (s : State) (c : Nat) : (s.tickCommits.chan c).sitting = (s.chan c).sitting :=
  foldl_keeps (fun t : State => (t.chan c).sitting) State.tickCommit (fun t d => by
    show ((t.tickCommit d).chan c).sitting = (t.chan c).sitting
    rw [State.chan_tickCommit]
    split
    · next own => rw [Channel.sitting_tickCommit, own]
    · rfl) channelNumbers s

theorem State.warnings_tickCommits (s : State) : s.tickCommits.warnings = s.warnings :=
  foldl_keeps State.warnings State.tickCommit (fun t c => by
    have resumed : ∀ u : State, (u.resumeSheet c).warnings = u.warnings := fun u => by
      unfold State.resumeSheet State.advance
      split
      · split
        · split <;> rfl
        · rfl
      · rfl
    unfold State.tickCommit
    split
    · dsimp only
      split
      · exact resumed _
      · rfl
    · rfl) channelNumbers s

/-- A 1 ms tick has readied the state for the second tick that it brings. -/
theorem Readied.counted {s : State} {low : Bool}
    (early : (s.time.ticked low).missingTimer < Config.missingEdgeClocks) (o : TickOrder) :
    Readied s (s.counted low o) := by
  have time : (s.counted low o).time = s.time.ticked low := by
    rw [State.time_counted, State.missingFirst_early early]
  have moves : Moves [.time, .channels, .intake] s (s.counted low o) := by
    have h := Moves.counted s low o
    rwa [State.missingFirst_early early] at h
  obtain ⟨phase, count, sampled⟩ := TimeBase.debounce_eq s.time.toTick.divide low
  have ticked : s.time.ticked low = { s.time.toTick.divide with samplePhase := phase, holdCount := count } := sampled
  have eq := State.counted_early early o
  constructor
  case hallTime => rw [time, ticked]; rfl
  case held => rw [time, ticked]; rfl
  case refState => rw [time, ticked]; rfl
  case hall => exact moves.frame.2 .hall (by decide)
  case seats => exact moves.frame.2 .seats (by decide)
  case roster => exact moves.frame.2 .roster (by decide)
  case booklets => exact (moves.frame.2 .booklets (by decide)).1
  case signals => exact moves.frame.2 .signals (by decide)
  case canonical => exact moves.canonical
  case lawful => exact moves.lawful
  case warnings =>
    rw [eq, State.warnings_tickCommits, State.onIntake_warnings, State.warnings_tickLines, State.onTime_warnings]
  case chan =>
    intro c
    have lines : ((s.onTime fun b => b.ticked low).tickLines).chan c = s.chan c :=
      (Moves.tickLines (s.onTime fun b => b.ticked low)).frame.chan c
    rw [eq, State.chan_sitting_tickCommits, State.chan_onIntake, lines]
  case line =>
    intro l
    have posted : ((s.counted low o).line l).posted = (s.line l).posted := by
      rw [eq, State.line, State.lines_tickCommits, State.onIntake_lines, ← State.line, State.posted_tickLines,
        State.line_onTime]
    simpa [Line.posted] using posted

/-- A command that brings a second tick alone takes it, and the part goes on. -/
theorem exec_second {i : Instr} {s : State} (brings : s.secondBy i) :
    ∃ u o, Readied s u ∧ exec i s = .next (u.secondTick o).settle := by
  cases i
  case dividerTick o =>
    refine ⟨s, o, Readied.onTime (f := id) rfl rfl rfl, ?_⟩
    show Host.Outcome.next _ = _
    rw [if_pos (show s.time.dividerDue = true from brings)]
  case tick1ms low n o =>
    obtain ⟨due, pin, early⟩ := brings
    have time : (s.counted low o).time = s.time.ticked low := by
      rw [State.time_counted, State.missingFirst_early early]
    refine ⟨s.counted low o, o, .counted early o, ?_⟩
    have tail : (s.counted low o).tickTail n o = (s.counted low o).secondTick o := by
      unfold State.tickTail
      rw [time, if_pos due]
      simp only [pin, Bool.false_eq_true, if_false]
      unfold State.secondTickWith State.secondTick
      rw [← List.foldl_append, List.take_append_drop]
    rw [exec_tick1ms, State.tick_counted, tail, State.missingTest_early]
    rw [State.time_secondTick, time]
    exact early
  case refsecEdge phase o =>
    obtain ⟨inTime, good, half, p, opened, fits⟩ := brings
    refine ⟨(s.onTime fun b => b.closing (s.clocksTo phase) p).onTime fun b => { b with bad := 0 }, o,
      Readied.onTime (f := fun b => { b.closing (s.clocksTo phase) p with bad := 0 }) rfl rfl rfl, ?_⟩
    rw [exec_refsecEdge_good inTime opened fits]
    have judged : (s.onTime fun b => b.closing (s.clocksTo phase) p).judgeGood o =
        ((s.onTime fun b => b.closing (s.clocksTo phase) p).onTime fun b => { b with bad := 0 }).goodEdge o := by
      unfold State.judgeGood
      rw [show (s.onTime fun b => b.closing (s.clocksTo phase) p).time.refState = .good from good]
    rw [judged, State.goodEdge, if_pos (by exact half)]
  all_goals exact brings.elim

end Sys2Proof.Machine
end

section
/-! PROOF. What becomes of a channel's record: the start, the amendments, the close of admission, base end and the writing
second, one equation for each. -/

namespace Sys2Proof.Machine

set_option Elab.async false

variable {c : Nat} {s : State}

/-! ## Writers and reconciliation, by the entries -/

theorem State.hasWriter_iff (rises : mapRises 0 s.roster = true) (c : Nat) :
    s.hasWriter c = true ↔ ∃ k e, s.entry k = some e ∧ e.channel = c ∧ e.state.isWriting = true := by
  rw [State.hasWriter, Bool.not_eq_true', List.isEmpty_eq_false_iff_exists_mem]
  exact exists_congr fun k => State.mem_slotsIn rises

theorem State.reconciles_iff (rises : mapRises 0 s.roster = true) (c : Nat) :
    s.reconciles c = true ↔ ∀ k e, s.entry k = some e → e.channel = c → e.state = .collected ∨ e.state = .absent := by
  rw [State.reconciles, List.isEmpty_iff, List.eq_nil_iff_forall_not_mem]
  constructor
  · intro none k e found own
    have := none k
    rw [State.mem_slotsIn rises] at this
    by_contra other
    rw [not_or] at other
    exact this ⟨e, found, own, by simp [other]⟩
  · intro all k mem
    obtain ⟨e, found, own, other⟩ := (State.mem_slotsIn rises).1 mem
    rcases all k e found own with h | h <;> simp [h] at other

/-! ## Amendments -/

/-- The record of a channel whose pending amendment has been applied, or dropped when too late (R48, R49). -/
def Channel.applied (c : Channel) : Channel :=
  match c.amendment with
  | some a =>
    if tooLate c.writeElapsed then { c with amendment := none }
    else { c with length := amended a.length c.writeElapsed, amendment := none }
  | none => c

theorem State.chan_dropAmendment (s : State) (c d : Nat) :
    (s.dropAmendment c).chan d = if c = d then { s.chan c with amendment := none } else s.chan d := by
  unfold State.dropAmendment
  split
  · rw [State.chan_notify, State.chan_onChan]
  · next none =>
    split
    · next own => subst own; rw [← none]
    · rfl

theorem State.chan_amend (s : State) (c v n d : Nat) :
    (s.amend c v n).chan d = if c = d then { s.chan c with length := amended v n, amendment := none } else s.chan d := by
  rw [State.amend, State.chan_notify, (Moves.recomputeAll _ c _).frame.chan, State.chan_onChan]

theorem State.chan_applyPending (s : State) (c d : Nat) :
    (s.applyPending c).chan d = if c = d then (s.chan c).applied else s.chan d := by
  unfold State.applyPending Channel.applied
  cases (s.chan c).amendment with
  | none =>
    dsimp only
    split
    · next own => rw [own]
    · rfl
  | some a =>
    dsimp only
    split
    · rw [State.chan_dropAmendment]
    · rw [State.chan_amend]

/-! ## Starts -/

/-- The record of a channel at its writing start (R41). -/
def Channel.begun (c : Channel) : Channel := { c with state := .writing, writeElapsed := 0 : Channel }.applied

theorem State.chan_startWriting (s : State) (c d : Nat) :
    (s.startWriting c).chan d = if c = d then (s.chan c).begun else s.chan d := by
  unfold State.startWriting
  rw [State.chan_notify, State.chan_applyPending, (Moves.startWriters _ c).frame.chan, State.chan_onChan, if_pos rfl,
    (Moves.startWriters _ c).frame.chan, State.chan_onChan]
  split <;> rfl

theorem Channel.begun_fields (c : Channel) : c.begun.state = .writing ∧ c.begun.writeElapsed = 0 ∧
    c.begun.holdSeconds = c.holdSeconds ∧ c.begun.readElapsed = c.readElapsed ∧ c.begun.config = c.config := by
  unfold Channel.begun Channel.applied
  dsimp only
  split
  · split <;> exact ⟨rfl, rfl, rfl, rfl, rfl⟩
  · exact ⟨rfl, rfl, rfl, rfl, rfl⟩

/-- The record of a channel after a reading second (R41, R42). -/
def Channel.readOn (c : Channel) : Channel :=
  if c.config.reading ≤ c.readElapsed + 1 then { c with readElapsed := c.readElapsed + 1 : Channel }.begun
  else { c with readElapsed := c.readElapsed + 1 }

theorem State.chan_readingSecond (s : State) (c : Nat) : (s.readingSecond c).chan c = (s.chan c).readOn := by
  unfold State.readingSecond Channel.readOn
  have counted : ((s.onChan c fun ch => { ch with readElapsed := ch.readElapsed + 1 }).readingMarks c).chan c =
      { s.chan c with readElapsed := (s.chan c).readElapsed + 1 } := by
    rw [(Moves.readingMarks _ c).frame.chan, State.chan_onChan, if_pos rfl]
  dsimp only
  rw [counted]
  dsimp only
  split
  · rw [State.chan_startWriting, if_pos rfl, counted]
  · exact counted

theorem State.chan_heldSecond (s : State) (c d : Nat) : (s.heldSecond c).chan d =
    if c = d then { s.chan c with holdSeconds := satUp 86399 (s.chan c).holdSeconds } else s.chan d := by
  rw [State.heldSecond, State.chan_onChan]

/-! ## The close of admission -/

theorem State.entry_closeAdmission (rises : mapRises 0 s.roster = true) (c k : Nat) :
    (s.closeAdmission c).entry k = (s.entry k).map fun e =>
      if e.channel = c ∧ e.state.isOut = true then { e with state := .absent, seat := none } else e := by
  unfold State.closeAdmission
  dsimp only
  rw [State.entry_notify, foldl_entries_while (K := fun _ => True) (fun _ _ _ => trivial)
    (fun t k j _ => State.entry_shutOut t k j) (State.slotsIn_nodup rises c _) trivial, State.entry_onChan]
  cases found : s.entry k with
  | none => simp
  | some e =>
    simp only [State.mem_slotsIn rises, found, Option.some.injEq, exists_eq_left', Option.map_some, EntryState.isOut]
    exact (apply_ite some _ _ _).symm

theorem State.chan_closeAdmission (s : State) (c d : Nat) :
    (s.closeAdmission c).chan d = if c = d then { s.chan c with closed := true } else s.chan d := by
  have shut : ∀ (xs : List Nat) (t : State), (xs.foldl State.shutOut t).chan d = t.chan d := fun xs t =>
    foldl_keeps (fun t : State => t.chan d) State.shutOut (fun t k => (Moves.shutOut t k).frame.chan d) xs t
  rw [State.closeAdmission, State.chan_notify, shut, State.chan_onChan]

theorem State.chan_closeOnce (s : State) (c d : Nat) :
    (s.closeOnce c).chan d = if c = d then { s.chan c with closed := true } else s.chan d := by
  unfold State.closeOnce
  split
  · next done =>
    split
    · next own => subst own; rw [← done]
    · rfl
  · rw [State.chan_closeAdmission]

theorem State.hasWriter_closeOnce (canonical : s.canonical = true) (c d : Nat) :
    (s.closeOnce c).hasWriter d = s.hasWriter d := by
  have rises := State.roster_rises canonical
  unfold State.closeOnce
  split
  · rfl
  · have after : mapRises 0 (s.closeAdmission c).roster = true :=
      State.roster_rises ((Moves.closeAdmission s c).canonical canonical)
    rw [Bool.eq_iff_iff, State.hasWriter_iff after, State.hasWriter_iff rises]
    refine exists_congr fun k => ?_
    rw [State.entry_closeAdmission rises]
    cases s.entry k with
    | none => simp
    | some e =>
      simp only [Option.map_some, Option.some.injEq, exists_eq_left']
      by_cases out : e.channel = c ∧ e.state.isOut = true
      · rw [if_pos out]
        have idle : e.state.isWriting = false := by
          have h := out.2
          cases x : e.state <;> simp [x, EntryState.isOut, EntryState.isWriting] at h ⊢
        rw [idle, show EntryState.absent.isWriting = false from rfl]
      · rw [if_neg out]

/-! ## Base end -/

/-- The record of a channel at base end, by whether it has a writer and whether it reconciles (R44, R46, R51). -/
def Channel.ended44 (c : Channel) (writer reconciles : Bool) : Channel :=
  let d : Channel := { c with closed := true, amendment := none }
  if writer then { d with state := .overtime } else d.collect reconciles

theorem State.roster_endBase (s : State) (c : Nat) : (s.endBase c).roster = (s.closeOnce c).roster := by
  have dropped : ((s.closeOnce c).dropAmendment c).roster = (s.closeOnce c).roster :=
    (Moves.dropAmendment _ c).frame.2 .roster (by decide)
  unfold State.endBase
  dsimp only
  split
  · rw [State.roster_enterPhase, dropped]
  · exact ((Moves.enterCollecting _ c).frame.2 .roster (by decide)).trans dropped

theorem State.chan_endBase (canonical : s.canonical = true) (c d : Nat) :
    (s.endBase c).chan d = if c = d then (s.chan c).ended44 (s.hasWriter c) ((s.endBase c).reconciles c) else s.chan d := by
  have roster := State.roster_endBase s c
  have writer := State.hasWriter_closeOnce canonical c c
  have dropped : ((s.closeOnce c).dropAmendment c).roster = (s.closeOnce c).roster :=
    (Moves.dropAmendment _ c).frame.2 .roster (by decide)
  have chan : ∀ x, ((s.closeOnce c).dropAmendment c).chan x =
      if c = x then { s.chan c with closed := true, amendment := none } else s.chan x := fun x => by
    rw [State.chan_dropAmendment, State.chan_closeOnce, State.chan_closeOnce, if_pos rfl]
    split <;> rfl
  rw [State.reconciles_congr roster, State.endBase]
  rw [State.hasWriter_congr dropped, writer]
  unfold Channel.ended44
  cases s.hasWriter c with
  | true =>
    rw [if_pos rfl, State.chan_enterPhase, chan, chan, if_pos rfl]
    split
    · rfl
    · rfl
  | false =>
    rw [if_neg Bool.false_ne_true, State.chan_enterCollecting, chan, chan, if_pos rfl, State.reconciles_congr dropped]
    split <;> rfl

theorem State.flag_endBase (s : State) (c : Nat) : Category.channelPhase ∈ (s.endBase c).office.flags := by
  unfold State.endBase
  dsimp only
  split
  · exact State.flag_enterPhase _ _ _
  · exact State.flag_enterCollecting _ _

/-! ## The writing second -/

theorem State.rises_next {t : State} {k : List Part} (h : Moves k s t) (canonical : s.canonical = true) :
    mapRises 0 t.roster = true := State.roster_rises (h.canonical canonical)

/-- The record of a channel after one of its writers has counted a writing second. -/
theorem State.chan_countEntry (canonical : s.canonical = true) {k : Nat} {e : Entry} (found : s.entry k = some e)
    (writes : e.state.isWriting = true) (running : (s.chan e.channel).state ≠ .collecting) :
    (s.countEntry k).chan e.channel =
      if (s.chan e.channel).state = .overtime ∧ (s.countEntry k).hasWriter e.channel = false
      then (s.chan e.channel).collect ((s.countEntry k).reconciles e.channel) else s.chan e.channel := by
  have put : (s.putEntry k e.count).entry k = some e.count := by simp
  have channel := Entry.count_channel e
  obtain ⟨state, -⟩ := Entry.count_keeps e
  have after : mapRises 0 (s.countEntry k).roster = true := State.rises_next (Moves.countEntry s k) canonical
  have stays : ∀ x, (s.countEntry k).entry k = some x → x.channel = e.channel → x.state.isWriting = true →
      (s.countEntry k).chan e.channel = s.chan e.channel → (s.countEntry k).chan e.channel =
        if (s.chan e.channel).state = .overtime ∧ (s.countEntry k).hasWriter e.channel = false
        then (s.chan e.channel).collect ((s.countEntry k).reconciles e.channel) else s.chan e.channel := by
    intro x there own writing same
    rw [if_neg, same]
    rintro ⟨-, none⟩
    rw [(State.hasWriter_iff after e.channel).2 ⟨k, x, there, own, writing⟩] at none
    cases none
  have eq : s.countEntry k = if e.state = .onBreak ∧ 0 < e.remaining
      then (if e.count.remaining = 0 then (s.putEntry k e.count).exhaust k else s.putEntry k e.count)
      else if e.allowed ≤ e.count.written then (s.putEntry k e.count).depart k .timeUp
      else (s.putEntry k e.count).warnTest k := by
    unfold State.countEntry
    rw [found]
    dsimp only
    rw [if_pos writes]
  have entry := State.entry_countEntry s k k
  rw [if_pos rfl, found, Option.map_some, State.counts, if_pos writes] at entry
  by_cases pause : e.state = .onBreak ∧ 0 < e.remaining
  · rw [if_pos pause] at eq entry
    refine stays _ entry channel (by dsimp only; rw [state]; exact writes) ?_
    rw [eq]
    split
    · rw [(Moves.exhaust _ k).frame.chan, State.chan_putEntry]
    · rw [State.chan_putEntry]
  · rw [if_neg pause] at eq entry
    by_cases past : e.allowed ≤ e.count.written
    · rw [if_pos past] at eq
      have left := State.chan_depart put .timeUp (by rw [channel, State.chan_putEntry]; exact running) e.channel
      rw [← eq, channel, State.chan_putEntry] at left
      rw [left]
      simp only [true_and]
    · rw [if_neg past] at eq entry
      refine stays _ entry channel (by rw [state]; exact writes) ?_
      rw [eq, (Moves.warnTest _ k).frame.chan, State.chan_putEntry]

/-- A property that every writer's count keeps holds when all have counted. -/
theorem State.countChannel_rule {P : State → Prop} (rises : mapRises 0 s.roster = true) (c : Nat) (start : P s)
    (step : ∀ t k e, P t → t.entry k = some e → e.channel = c → e.state.isWriting = true → P (t.countEntry k)) :
    P (s.countChannel c) :=
  foldl_slots rises c _ (fun t _ _ other => State.countEntry_apart t other) start step

/-- The record of a channel whose writers have counted a writing second: the last of them to leave ends its overtime. -/
theorem State.chan_countChannel (canonical : s.canonical = true) (c : Nat)
    (running : (s.chan c).state ≠ .collecting) :
    (s.countChannel c).chan c =
      if (s.chan c).state = .overtime ∧ s.hasWriter c = true ∧ (s.countChannel c).hasWriter c = false
      then (s.chan c).collect ((s.countChannel c).reconciles c) else s.chan c := by
  have rises := State.roster_rises canonical
  by_cases writer : s.hasWriter c = true
  · have run : (s.countChannel c).canonical = true ∧
        ((s.countChannel c).hasWriter c = true → (s.countChannel c).chan c = s.chan c) ∧
        ((s.countChannel c).hasWriter c = false → (s.countChannel c).chan c =
          if (s.chan c).state = .overtime then (s.chan c).collect ((s.countChannel c).reconciles c) else s.chan c) := by
      refine State.countChannel_rule (P := fun t : State => t.canonical = true ∧
        (t.hasWriter c = true → t.chan c = s.chan c) ∧ (t.hasWriter c = false → t.chan c =
          if (s.chan c).state = .overtime then (s.chan c).collect (t.reconciles c) else s.chan c)) rises c ?_ ?_
      · exact ⟨canonical, fun _ => rfl, fun none => by rw [writer] at none; cases none⟩
      · rintro t k e ⟨form, stands, -⟩ found own writes
        have same := stands ((State.hasWriter_iff (State.roster_rises form) c).2 ⟨k, e, found, own, writes⟩)
        have counted := State.chan_countEntry form found writes (by rw [own, same]; exact running)
        rw [own, same] at counted
        refine ⟨(Moves.countEntry t k).canonical form, fun some => ?_, fun none => ?_⟩
        · rw [counted, if_neg]
          rintro ⟨-, none⟩
          rw [some] at none; cases none
        · rw [counted]
          simp only [none, and_true]
    obtain ⟨-, some, ends⟩ := run
    cases last : (s.countChannel c).hasWriter c with
    | true => rw [some last, if_neg]; simp
    | false => rw [ends last]; simp [writer]
  · have empty : s.slotsIn c EntryState.isWriting = [] := by simpa [State.hasWriter] using writer
    rw [if_neg fun h => writer h.2.1, State.countChannel, empty]
    rfl

end Sys2Proof.Machine
end

section
/-! PROOF. The channel second: what a second tick leaves of a channel's counters and of a signal line (O4). -/

namespace Sys2Proof.Machine

set_option Elab.async false

variable {c : Nat} {s : State}

/-! ## The record after a writing second -/

/-- The record of a channel once a writing second has been added and an amendment due at it applied (R43, steps 1 and 2). -/
def Channel.secondOn (c : Channel) : Channel :=
  let d : Channel := { c with writeElapsed := c.writeElapsed + 1 }
  if d.writeElapsed % 60 = 0 then d.applied else d

/-- The part of a channel's record that the later steps of a writing second leave. -/
def Channel.lasting (c : Channel) : Channel :=
  { c with state := .free, hold := false, closed := false, amendment := none }

/-- A writing second after its amendment. -/
def State.amended43 (s : State) (c : Nat) : State :=
  (s.onChan c fun ch => { ch with writeElapsed := ch.writeElapsed + 1 }).secondAmendment c

theorem State.writingSecond_eq (s : State) (c : Nat) :
    s.writingSecond c = (((s.amended43 c).countChannel c).secondClose c).secondBase c := rfl

theorem Moves.amended43 (s : State) (c : Nat) : Moves [.channels, .roster, .flags, .notices] s (s.amended43 c) :=
  (Moves.onChan s c _).widen.next (.secondAmendment _ c)

theorem State.chan_amended43 (s : State) (c : Nat) : (s.amended43 c).chan c = (s.chan c).secondOn := by
  unfold State.amended43 State.secondAmendment Channel.secondOn
  have counted : (s.onChan c fun ch => { ch with writeElapsed := ch.writeElapsed + 1 }).chan c =
      { s.chan c with writeElapsed := (s.chan c).writeElapsed + 1 } := by rw [State.chan_onChan, if_pos rfl]
  rw [counted]
  dsimp only
  split
  · rw [State.chan_applyPending, if_pos rfl, counted]
  · exact counted

theorem Channel.applied_fields (c : Channel) : c.applied.state = c.state ∧ c.applied.hold = c.hold ∧
    c.applied.writeElapsed = c.writeElapsed ∧ c.applied.config = c.config ∧ c.applied.closed = c.closed ∧
    c.applied.holdSeconds = c.holdSeconds ∧ c.applied.readElapsed = c.readElapsed ∧ c.applied.amendment = none := by
  unfold Channel.applied
  split
  · split <;> exact ⟨rfl, rfl, rfl, rfl, rfl, rfl, rfl, rfl⟩
  · next none => exact ⟨rfl, rfl, rfl, rfl, rfl, rfl, rfl, none⟩

theorem Channel.secondOn_fields (c : Channel) : c.secondOn.state = c.state ∧ c.secondOn.hold = c.hold ∧
    c.secondOn.writeElapsed = c.writeElapsed + 1 ∧ c.secondOn.config = c.config ∧ c.secondOn.closed = c.closed ∧
    c.secondOn.holdSeconds = c.holdSeconds ∧ c.secondOn.readElapsed = c.readElapsed := by
  unfold Channel.secondOn
  dsimp only
  split
  · obtain ⟨h1, h2, h3, h4, h5, h6, h7, -⟩ := Channel.applied_fields { c with writeElapsed := c.writeElapsed + 1 }
    exact ⟨h1, h2, h3, h4, h5, h6, h7⟩
  · exact ⟨rfl, rfl, rfl, rfl, rfl, rfl, rfl⟩

theorem State.length_secondOn (s : State) (c : Nat) : (s.chan c).secondOn.length = s.nextLength c := by
  unfold Channel.secondOn Channel.applied State.nextLength State.amendsSecond
  dsimp only
  cases (s.chan c).amendment with
  | none => dsimp only; split <;> rfl
  | some a =>
    dsimp only
    by_cases minute : ((s.chan c).writeElapsed + 1) % 60 = 0
    · by_cases late : (s.chan c).writeElapsed + 61 ≤ 14400
      · have inTime : ¬14400 < (s.chan c).writeElapsed + 1 + 60 := by omega
        simp [tooLate, amended, minute, late, inTime]
      · have past : 14400 < (s.chan c).writeElapsed + 1 + 60 := by omega
        simp [tooLate, minute, late, past]
    · simp [minute]

/-- The record of a channel once its writers have counted: its overtime ends with the last of them. -/
theorem State.chan_counted43 (canonical : s.canonical = true) (c : Nat) (running : (s.chan c).state ≠ .collecting) :
    let t := (s.amended43 c).countChannel c
    t.chan c = if (s.chan c).state = .overtime ∧ (s.amended43 c).hasWriter c = true ∧ t.hasWriter c = false
      then (s.chan c).secondOn.collect (t.reconciles c) else (s.chan c).secondOn := by
  have form := (Moves.amended43 s c).canonical canonical
  obtain ⟨state, -⟩ := Channel.secondOn_fields (s.chan c)
  have counted := State.chan_countChannel form c (by rw [State.chan_amended43, state]; exact running)
  rwa [State.chan_amended43, state] at counted

theorem Channel.lasting_ended44 (c : Channel) (x y : Bool) : (c.ended44 x y).lasting = c.lasting := by
  unfold Channel.ended44
  dsimp only
  split <;> rfl

theorem State.lasting_secondClose (s : State) (c : Nat) : ((s.secondClose c).chan c).lasting = (s.chan c).lasting := by
  unfold State.secondClose
  split
  · rw [State.chan_closeOnce, if_pos rfl]; rfl
  · rfl

theorem State.lasting_secondBase (canonical : s.canonical = true) (c : Nat) :
    ((s.secondBase c).chan c).lasting = (s.chan c).lasting := by
  unfold State.secondBase
  split
  · rw [State.chan_endBase canonical, if_pos rfl, Channel.lasting_ended44]
  · rfl

theorem State.lasting_writingSecond (canonical : s.canonical = true) (c : Nat)
    (running : (s.chan c).state ≠ .collecting) :
    ((s.writingSecond c).chan c).lasting = (s.chan c).secondOn.lasting := by
  have form := ((Moves.amended43 s c).widen.next (.countChannel _ c) :
    Moves [.channels, .roster, .seats, .flags, .notices] s _).canonical canonical
  rw [State.writingSecond_eq, State.lasting_secondBase ((Moves.secondClose _ c).canonical form),
    State.lasting_secondClose, State.chan_counted43 canonical c running]
  split <;> rfl

/-! ## The tick of a channel, by the classification of the second -/

theorem State.tickChannel_holds (holds : s.holdsSecond c = true) : s.tickChannel c = s.heldSecond c := by
  simp only [State.holdsSecond, Bool.and_eq_true] at holds
  obtain ⟨clock, held⟩ := holds
  unfold State.tickChannel
  cases state : (s.chan c).state <;> simp [state, ChanState.hasClock] at clock <;> simp [held]

theorem State.tickChannel_reads (reads : s.readsSecond c = true) : s.tickChannel c = s.readingSecond c := by
  simp only [State.readsSecond, Bool.and_eq_true, decide_eq_true_eq, Bool.not_eq_true'] at reads
  obtain ⟨state, free⟩ := reads
  simp [State.tickChannel, state, free]

theorem State.writesSecond_iff : s.writesSecond c = true ↔
    ((s.chan c).state = .writing ∨ (s.chan c).state = .overtime) ∧ (s.time.held || (s.chan c).hold) = false := by
  simp [State.writesSecond]

theorem State.tickChannel_writes (writes : s.writesSecond c = true) : s.tickChannel c = s.writingSecond c := by
  obtain ⟨state, free⟩ := State.writesSecond_iff.1 writes
  rcases state with state | state <;> simp [State.tickChannel, state, free]

theorem State.holds_or (hasClock : (s.chan c).state.hasClock = true) :
    s.holdsSecond c = true ∨ s.readsSecond c = true ∨ s.writesSecond c = true := by
  cases held : (s.time.held || (s.chan c).hold) with
  | true => exact .inl (by simp [State.holdsSecond, hasClock, held])
  | false =>
    refine .inr ?_
    cases state : (s.chan c).state <;> simp [state, ChanState.hasClock] at hasClock <;>
      simp [State.readsSecond, State.writesSecond, state, held]

/-! ## The second tick at one channel -/

theorem State.chan_passTick_other (canonical : s.canonical = true) {d : Nat} (other : d ≠ c) :
    (s.passTick d).chan c = s.chan c := by
  have form : (s.giveTick (some d)).canonical = true := (Moves.giveTick s _).canonical canonical
  exact (OneChannel.tickChannel (s.giveTick (some d)) d form).others c (Ne.symm other)

/-- The state at channel `c` before its own tick: as `u` stands, hall time one second on. -/
structure Ticking (u : State) (c : Nat) (t : State) : Prop where
  time : t.time = u.time.second
  chan : t.chan c = u.chan c
  canonical : t.canonical = true

theorem Ticking.start {u : State} (canonical : u.canonical = true) (c : Nat) : Ticking u c (u.onTime TimeBase.second) :=
  ⟨rfl, rfl, (Moves.onTime u _).canonical canonical⟩

theorem Ticking.move {u t v : State} {k : List Part} (h : Ticking u c t) (m : Moves k t v)
    (time : Part.time ∉ k := by decide) (chan : Part.channels ∉ k := by decide) : Ticking u c v :=
  ⟨(m.frame.time time).trans h.time, (m.frame.chan c chan).trans h.chan, m.canonical h.canonical⟩

theorem Ticking.pass {u t : State} {d : Nat} (h : Ticking u c t) (other : d ≠ c) : Ticking u c (t.passTick d) :=
  ⟨((Moves.passTick t d).frame.time).trans h.time, (State.chan_passTick_other h.canonical other).trans h.chan,
    (Moves.passTick t d).canonical h.canonical⟩

theorem TimeBase.held_second (b : TimeBase) : b.second.held = b.held := rfl

theorem Ticking.holdsSecond {u t : State} (h : Ticking u c t) : t.holdsSecond c = u.holdsSecond c := by
  rw [State.holdsSecond, State.holdsSecond, h.time, h.chan, TimeBase.held_second]

theorem Ticking.readsSecond {u t : State} (h : Ticking u c t) : t.readsSecond c = u.readsSecond c := by
  rw [State.readsSecond, State.readsSecond, h.time, h.chan, TimeBase.held_second]

theorem Ticking.writesSecond {u t : State} (h : Ticking u c t) : t.writesSecond c = u.writesSecond c := by
  rw [State.writesSecond, State.writesSecond, h.time, h.chan, TimeBase.held_second]

/-- What a second tick makes of the record of channel `c`. -/
structure TickedChan (u : State) (c : Nat) (t : State) : Prop where
  holds : u.holdsSecond c = true → t.chan c = { u.chan c with holdSeconds := satUp 86399 (u.chan c).holdSeconds }
  reads : u.readsSecond c = true → t.chan c = (u.chan c).readOn
  writes : u.writesSecond c = true → (t.chan c).lasting = (u.chan c).secondOn.lasting
  canonical : t.canonical = true

theorem TickedChan.of_chan {u t v : State} (h : TickedChan u c t) (same : v.chan c = t.chan c)
    (form : v.canonical = true) : TickedChan u c v :=
  ⟨fun x => same.trans (h.holds x), fun x => same.trans (h.reads x), fun x => by rw [same]; exact h.writes x, form⟩

theorem TickedChan.secondTick {u : State} (canonical : u.canonical = true) (hc : c < 16) (o : TickOrder) :
    TickedChan u c (u.secondTick o) := by
  refine State.secondTick_split hc (Ticking u c) (TickedChan u c) o (.start canonical c)
    (fun t h => h.move (Moves.tickSeats t)) (fun t h => h.move (Moves.tickSignals t))
    (fun t d below h => h.pass (by omega)) (fun t h => ?_)
    (fun t h => h.of_chan ((Moves.tickSeats t).frame.chan c) ((Moves.tickSeats t).canonical h.canonical))
    (fun t h => h.of_chan ((Moves.tickSignals t).frame.chan c) ((Moves.tickSignals t).canonical h.canonical))
    (fun t d above _ h => h.of_chan (State.chan_passTick_other h.canonical (by omega)) ((Moves.passTick t d).canonical h.canonical))
  have given : Ticking u c (t.giveTick (some c)) := h.move (Moves.giveTick t _)
  have chan : (t.passTick c).chan c = ((t.giveTick (some c)).tickChannel c).chan c := rfl
  refine ⟨fun holds => ?_, fun reads => ?_, fun writes => ?_, (Moves.passTick t c).canonical h.canonical⟩
  · rw [chan, State.tickChannel_holds (given.holdsSecond.trans holds), State.chan_heldSecond, if_pos rfl, given.chan]
  · rw [chan, State.tickChannel_reads (given.readsSecond.trans reads), State.chan_readingSecond, given.chan]
  · rw [chan, State.tickChannel_writes (given.writesSecond.trans writes),
      State.lasting_writingSecond given.canonical c, given.chan]
    rw [given.chan]
    obtain ⟨state, -⟩ := State.writesSecond_iff.1 writes
    rcases state with state | state <;> simp [state]

theorem ChannelCounted.of_ticked {u t : State} (h : TickedChan u c t) : ChannelCounted u t c := by
  refine ⟨fun holds => ?_, fun reads => ?_, fun writes => ?_⟩
  · rw [h.holds holds]; exact ⟨rfl, rfl, rfl, rfl, rfl⟩
  · rw [h.reads reads, Channel.readOn]
    simp only [State.readsSecond, Bool.and_eq_true, decide_eq_true_eq] at reads
    by_cases last : (u.chan c).config.reading ≤ (u.chan c).readElapsed + 1
    · obtain ⟨state, written, holds, read, -⟩ :=
        Channel.begun_fields { u.chan c with readElapsed := (u.chan c).readElapsed + 1 }
      rw [if_pos last, if_neg (by omega)]
      exact ⟨holds, read, state, written⟩
    · rw [if_neg last, if_pos (by omega)]
      exact ⟨rfl, rfl, reads.1, rfl⟩
  · have same := h.writes writes
    obtain ⟨-, -, written, -, -, holds, -⟩ := Channel.secondOn_fields (u.chan c)
    exact ⟨(congrArg Channel.holdSeconds same).trans holds, (congrArg Channel.writeElapsed same).trans written,
      (congrArg Channel.length same).trans (State.length_secondOn u c)⟩

/-! ## From the state in which the tick is taken to the state before the command -/

namespace Readied

variable {u : State} (h : Readied s u)
include h

theorem state (c : Nat) : (u.chan c).state = (s.chan c).state := (congrArg Channel.state (h.chan c) :)
theorem config (c : Nat) : (u.chan c).config = (s.chan c).config := (congrArg Channel.config (h.chan c) :)
theorem length (c : Nat) : (u.chan c).length = (s.chan c).length := (congrArg Channel.length (h.chan c) :)
theorem hold (c : Nat) : (u.chan c).hold = (s.chan c).hold := (congrArg Channel.hold (h.chan c) :)
theorem closed (c : Nat) : (u.chan c).closed = (s.chan c).closed := (congrArg Channel.closed (h.chan c) :)
theorem spent (c : Nat) : (u.chan c).spent = (s.chan c).spent := (congrArg Channel.spent (h.chan c) :)
theorem holdSeconds (c : Nat) : (u.chan c).holdSeconds = (s.chan c).holdSeconds :=
  (congrArg Channel.holdSeconds (h.chan c) :)
theorem readElapsed (c : Nat) : (u.chan c).readElapsed = (s.chan c).readElapsed :=
  (congrArg Channel.readElapsed (h.chan c) :)
theorem writeElapsed (c : Nat) : (u.chan c).writeElapsed = (s.chan c).writeElapsed :=
  (congrArg Channel.writeElapsed (h.chan c) :)
theorem amendment (c : Nat) : (u.chan c).amendment = (s.chan c).amendment := (congrArg Channel.amendment (h.chan c) :)
theorem entry (k : Nat) : u.entry k = s.entry k := by rw [State.entry, State.entry, h.roster]
theorem seat (i : Nat) : u.seat i = s.seat i := by rw [State.seat, State.seat, h.seats]
theorem signal (n : Nat) : u.signal n = s.signal n := by rw [State.signal, State.signal, h.signals]

theorem holdsSecond (c : Nat) : u.holdsSecond c = s.holdsSecond c := by
  rw [State.holdsSecond, State.holdsSecond, h.state, h.hold, h.held]
theorem readsSecond (c : Nat) : u.readsSecond c = s.readsSecond c := by
  rw [State.readsSecond, State.readsSecond, h.state, h.hold, h.held]
theorem writesSecond (c : Nat) : u.writesSecond c = s.writesSecond c := by
  rw [State.writesSecond, State.writesSecond, h.state, h.hold, h.held]
theorem amendsSecond (c : Nat) : u.amendsSecond c = s.amendsSecond c := by
  rw [State.amendsSecond, State.amendsSecond, h.amendment, h.writeElapsed]
theorem nextLength (c : Nat) : u.nextLength c = s.nextLength c := by
  rw [State.nextLength, State.nextLength, h.amendsSecond, h.amendment, h.writeElapsed, h.length]
theorem endsSecond (c : Nat) : u.endsSecond c = s.endsSecond c := by
  rw [State.endsSecond, State.endsSecond, h.writesSecond, h.state, h.nextLength, h.writeElapsed]
theorem closesSecond (c : Nat) : u.closesSecond c = s.closesSecond c := by
  rw [State.closesSecond, State.closesSecond, h.writesSecond, h.closed, h.config, h.writeElapsed, h.endsSecond]
theorem admitsSecond (c : Nat) : u.admitsSecond c = s.admitsSecond c := by
  rw [State.admitsSecond, State.admitsSecond, h.state, h.spent, h.config, h.hallTime]
theorem startsSecond (c : Nat) : u.startsSecond c = s.startsSecond c := by
  rw [State.startsSecond, State.startsSecond, h.state, h.config, h.hallTime]

theorem channelCounted {t : State} (counted : ChannelCounted u t c) : ChannelCounted s t c := by
  simpa only [ChannelCounted, h.holdsSecond, h.readsSecond, h.writesSecond, h.holdSeconds, h.state, h.readElapsed,
    h.writeElapsed, h.length, h.config, h.nextLength] using counted

end Readied

theorem ChannelCounted.of_chan {t v : State} (h : ChannelCounted s t c) (same : v.chan c = t.chan c) :
    ChannelCounted s v c := by
  simpa only [ChannelCounted, same] using h

/-! ## Signal lines -/

theorem State.chan_congr {t : State} (same : t.channels = s.channels) (c : Nat) : t.chan c = s.chan c := by
  rw [State.chan, State.chan, same]

theorem State.signalCondition_congr {t : State} (held : t.time.held = s.time.held)
    (refState : t.time.refState = s.time.refState) (chan : ∀ c, (t.chan c).sitting = (s.chan c).sitting)
    (e : SignalEntry) : t.signalCondition e = s.signalCondition e := by
  have state : ∀ c, (t.chan c).state = (s.chan c).state := fun c => (congrArg Channel.state (chan c) :)
  have config : ∀ c, (t.chan c).config = (s.chan c).config := fun c => (congrArg Channel.config (chan c) :)
  have length : ∀ c, (t.chan c).length = (s.chan c).length := fun c => (congrArg Channel.length (chan c) :)
  have elapsed : ∀ c, (t.chan c).writeElapsed = (s.chan c).writeElapsed := fun c => (congrArg Channel.writeElapsed (chan c) :)
  have hold : ∀ c, (t.chan c).hold = (s.chan c).hold := fun c => (congrArg Channel.hold (chan c) :)
  unfold State.signalCondition State.channelCondition
  cases e.source with
  | none => rfl
  | hallHeld => exact held
  | refLost => dsimp only; rw [refState]
  | channel c => cases e.condition <;> simp only [state, config, length, elapsed, hold, held]

/-- The signal lines take a second tick in a state whose channels stand as before the sitting unit has taken it, or as
after. -/
theorem State.signals_secondTick (u : State) (o : TickOrder) :
    ∃ v : State, (u.secondTick o).signals = v.tickSignals.signals ∧ v.signals = u.signals ∧ v.time = u.time.second ∧
      (v.channels = u.channels ∨ v.channels = (u.secondTick o).channels) := by
  have sit := fun t => (Moves.tickSittings t).frame
  have seat := fun t => (Moves.tickSeats t).frame
  have drive := fun t => (Moves.tickSignals t).frame
  have sitSignals : ∀ t : State, t.tickSittings.signals = t.signals := fun t => (sit t).2 .signals (by decide)
  have seatSignals : ∀ t : State, t.tickSeats.signals = t.signals := fun t => (seat t).2 .signals (by decide)
  have sitTime : ∀ t : State, t.tickSittings.time = t.time := fun t => (sit t).time
  have seatTime : ∀ t : State, t.tickSeats.time = t.time := fun t => (seat t).time
  have seatChannels : ∀ t : State, t.tickSeats.channels = t.channels := fun t => (seat t).2 .channels (by decide)
  have driveChannels : ∀ t : State, t.tickSignals.channels = t.channels := fun t => (drive t).2 .channels (by decide)
  unfold State.secondTick
  obtain ⟨w, made⟩ : ∃ w, u.onTime TimeBase.second = w := ⟨_, rfl⟩
  have time : w.time = u.time.second := by rw [← made]; rfl
  have signals : w.signals = u.signals := by rw [← made]; rfl
  have channels : w.channels = u.channels := by rw [← made]; rfl
  rw [made]
  cases o <;> simp only [consumersOf, List.foldl_cons, List.foldl_nil, State.consume, sitSignals, seatSignals,
    seatChannels, driveChannels]
  case sittingSeatsSignals =>
    exact ⟨_, rfl, by rw [seatSignals, sitSignals, signals], by rw [seatTime, sitTime, time], .inr (seatChannels _)⟩
  case sittingSignalsSeats => exact ⟨_, rfl, by rw [sitSignals, signals], by rw [sitTime, time], .inr rfl⟩
  case seatsSittingSignals =>
    exact ⟨_, rfl, by rw [sitSignals, seatSignals, signals], by rw [sitTime, seatTime, time], .inr rfl⟩
  case seatsSignalsSitting =>
    exact ⟨_, rfl, by rw [seatSignals, signals], by rw [seatTime, time], .inl (by rw [seatChannels, channels])⟩
  case signalsSittingSeats => exact ⟨_, rfl, signals, time, .inl channels⟩
  case signalsSeatsSitting => exact ⟨_, rfl, signals, time, .inl channels⟩

/-- What a second tick leaves of the entry of a signal line. -/
theorem State.signal_secondTick (u : State) (o : TickOrder) {n : Nat} (hn : n < 8) :
    ∃ v : State, (u.secondTick o).signal n = v.tickSignal (u.signal n) ∧ v.time = u.time.second ∧
      (v.channels = u.channels ∨ v.channels = (u.secondTick o).channels) := by
  obtain ⟨v, signals, before, time, channels⟩ := State.signals_secondTick u o
  refine ⟨v, ?_, time, channels⟩
  rw [State.signal, signals, ← State.signal, State.signal_tickSignals, if_pos hn, State.signal, before, ← State.signal]

theorem SignalDriven.secondTick {u : State} (ready : Readied s u) (o : TickOrder) {n : Nat} (hn : n < 8) :
    SignalDriven s (u.secondTick o).settle n := by
  obtain ⟨v, driven, time, channels⟩ := State.signal_secondTick u o hn
  have settled : (u.secondTick o).settle.signal n = (u.secondTick o).signal n :=
    (Moves.settle (u.secondTick o)).frame.signal n
  unfold SignalDriven
  dsimp only
  rw [settled, driven, ready.signal, State.tickSignal]
  refine ⟨rfl, rfl, ?_⟩
  have same : ∀ w : State, w.time.held = v.time.held → w.time.refState = v.time.refState →
      (∀ c, (w.chan c).sitting = (v.chan c).sitting) → ∀ e, w.signalCondition e = v.signalCondition e :=
    fun w h1 h2 h3 e => State.signalCondition_congr h1 h2 h3 e
  rcases channels with before | after
  · refine ⟨s, .inl rfl, ?_⟩
    rw [same s (by rw [time]; exact ready.held.symm) (by rw [time]; exact ready.refState.symm)
      fun c => by rw [State.chan_congr before]; exact (ready.chan c).symm]
  · refine ⟨(u.secondTick o).settle, .inr rfl, ?_⟩
    have now : (u.secondTick o).settle.time = v.time := by rw [State.settle_time, State.time_secondTick, time]
    rw [same (u.secondTick o).settle (by rw [now]) (by rw [now]) fun c => by
      rw [(Moves.settle (u.secondTick o)).frame.chan, State.chan_congr after]]

/-! ## The obligation -/

/-- A second tick that is owed to the divider, with what it leaves of time and signals. -/
theorem dividerTick_ticks (o : TickOrder) (s : State) (owed : s.time.dividerDue = true) :
    exec (.dividerTick o) s = .next (s.secondTick o).settle := by
  show Host.Outcome.next _ = _
  rw [if_pos owed]

theorem State.time_ticked_settled (u : State) (o : TickOrder) :
    (u.secondTick o).settle.time = { u.time with hallTime := nextHallTime u.time.hallTime, divider := 0 } := by
  rw [State.settle_time, State.time_secondTick, TimeBase.second_eq]

theorem List.exists_smallest_iff (xs : List Nat) (p : Nat → Bool) :
    ((smallest xs).any p = true) ↔ ∃ n ∈ xs, (∀ m ∈ xs, n ≤ m) ∧ p n = true := by
  rw [smallest, Option.any_eq_true]
  constructor
  · rintro ⟨n, least, h⟩
    obtain ⟨mem, below⟩ := List.min?_eq_some_iff.1 least
    exact ⟨n, mem, below, h⟩
  · rintro ⟨n, mem, below, h⟩
    exact ⟨n, List.min?_eq_some_iff.2 ⟨mem, below⟩, h⟩

/-- Settles O4, by the rule for second ticks. -/
theorem dividerTickAdvancesHallTimeAndIsClassified : Obligations.DividerTickAdvancesHallTimeAndIsClassified := by
  refine ⟨fun o s => ?_, fun o s c canonical hc owed => ⟨fun clock held => ?_, fun writing free => ?_⟩, fun i s brings => ?_,
    fun s c => ⟨?_, ?_, ?_, ?_, ?_⟩⟩
  · by_cases owed : s.time.dividerDue = true
    · refine ⟨_, dividerTick_ticks o s owed, ?_⟩
      rw [if_pos owed]
      refine ⟨State.time_ticked_settled s o, fun n hn => ?_, (Moves.secondTick s o).widen.frame.settle⟩
      obtain ⟨entry, pending, -⟩ := SignalDriven.secondTick (Readied.onTime (f := id) rfl rfl rfl : Readied s s) o hn
      exact ⟨pending, entry⟩
    · refine ⟨s.settle, ?_, ?_⟩
      · show Host.Outcome.next _ = _
        rw [if_neg owed]
      · rw [if_neg owed]
        exact (Unchanged.refl [] s).settle
  · have holds : s.holdsSecond c = true := by rw [State.holdsSecond, clock, held]; rfl
    refine ⟨_, dividerTick_ticks o s owed, ?_⟩
    rw [(Moves.settle (s.secondTick o)).frame.chan]
    exact (TickedChan.secondTick canonical hc o).holds holds
  · have writes : s.writesSecond c = true := State.writesSecond_iff.2 ⟨writing, free⟩
    refine ⟨_, dividerTick_ticks o s owed, ?_⟩
    rw [(Moves.settle (s.secondTick o)).frame.chan]
    obtain ⟨holds, written, -⟩ :=
      (ChannelCounted.of_ticked (TickedChan.secondTick canonical hc o)).2.2 writes
    exact ⟨written, holds⟩
  · obtain ⟨u, o, ready, run⟩ := exec_second brings
    refine ⟨_, run, ?_, ?_, fun canonical _ => ⟨fun c hc => ?_, fun n hn => .secondTick ready o hn⟩⟩
    · rw [State.time_ticked_settled, ready.hallTime]
    · rw [State.time_ticked_settled]
    · exact (ready.channelCounted (.of_ticked (.secondTick (ready.canonical canonical) hc o))).of_chan
        ((Moves.settle (u.secondTick o)).frame.chan c)
  · simp [State.channelCondition]
  · simp [State.channelCondition]
  · simp only [State.channelCondition, Bool.and_eq_true, decide_eq_true_eq, List.exists_smallest_iff]
  · simp [State.channelCondition]
  · simp [State.channelCondition]

end Sys2Proof.Machine
end

section
/-! PROOF. Admission (O10): a conflict by ids and active channels, and the attempt that a second tick brings. -/

namespace Sys2Proof.Machine

set_option Elab.async false

variable {c : Nat} {s : State}

/-! ## The seat allocator's tick, by entries -/

/-- An entry whose hold has run out (R86). -/
def Entry.expired (e : Entry) : Entry := { e with state := .expected, seat := none }

theorem State.entry_expire (s : State) (i k j : Nat) :
    (s.expire i k).entry j = if k = j then (s.entry j).map Entry.expired else s.entry j := by
  unfold State.expire
  rw [State.entry_notify, State.entry_changed, (Moves.releaseHold s i).frame.entry]
  rfl

/-- The hold of seat record `r` runs out at the next second. -/
def Seat.runsOut (r : Seat) (k : Nat) : Prop := ∃ n, r.occ = .held k n ∧ n ≤ 1

theorem State.entry_tickSeat (s : State) (i j : Nat) :
    ((s.tickSeat i).entry j = s.entry j ∧ ¬(s.time.held = false ∧ (s.seat i).runsOut j)) ∨
      ((s.tickSeat i).entry j = (s.entry j).map Entry.expired ∧ s.time.held = false ∧ (s.seat i).runsOut j) := by
  unfold State.tickSeat
  split
  · next k n occ =>
    split
    · next held => exact .inl ⟨rfl, fun h => by rw [h.1] at held; cases held⟩
    · next free =>
      dsimp only
      by_cases last : n ≤ 1
      · rw [if_pos last, State.entry_expire]
        by_cases own : k = j
        · subst own
          exact .inr ⟨by rw [if_pos rfl, State.entry_onSeat], by simpa using free, n, occ, last⟩
        · refine .inl ⟨by rw [if_neg own, State.entry_onSeat], fun h => ?_⟩
          obtain ⟨m, same, -⟩ := h.2
          rw [occ] at same; cases same; exact own rfl
      · rw [if_neg last]
        refine .inl ⟨State.entry_onSeat s i _ j, fun h => ?_⟩
        obtain ⟨m, same, less⟩ := h.2
        rw [occ] at same; cases same; exact last less
  · next n occ =>
    have none : ¬(s.time.held = false ∧ (s.seat i).runsOut j) := fun h => by
      obtain ⟨m, same, -⟩ := h.2
      rw [occ] at same; cases same
    dsimp only
    split
    · exact .inl ⟨by simp [State.endClearing, (Moves.freeSeat _ i).frame.entry], none⟩
    · exact .inl ⟨State.entry_onSeat s i _ j, none⟩
  · next other _ =>
    refine .inl ⟨rfl, fun h => ?_⟩
    obtain ⟨m, same, -⟩ := h.2
    exact other j m same

/-! ## Ids -/

/-- From `s` to `t` no entry has come or gone or changed its id or channel. -/
def SameIds (s t : State) : Prop := ∀ k, (t.entry k).map (fun e => (e.id, e.channel)) = (s.entry k).map fun e => (e.id, e.channel)

theorem SameIds.refl (s : State) : SameIds s s := fun _ => rfl

theorem SameIds.trans {t u : State} (h : SameIds s t) (g : SameIds t u) : SameIds s u := fun k => (g k).trans (h k)

theorem SameIds.of_roster {t : State} (same : t.roster = s.roster) : SameIds s t := fun k => by
  rw [State.entry, State.entry, same]

theorem Confined.ids {t : State} (h : Confined c s t) : SameIds s t := fun k => by
  cases found : s.entry k with
  | none => rw [h.free k found]
  | some e =>
    obtain ⟨e', found', follows, -⟩ := h.entry k e found
    rw [found', Option.map_some, Option.map_some, follows.id, follows.channel]

theorem SameIds.tickSeats (s : State) : SameIds s s.tickSeats :=
  foldl_invariant (fun t => SameIds s t) State.tickSeat (fun t i h => h.trans fun k => by
    rcases State.entry_tickSeat t i k with ⟨same, -⟩ | ⟨gone, -⟩
    · rw [same]
    · rw [gone, Option.map_map]; rfl) s.seatKeys s (.refl s)

/-- The entry that stands in the slot after is of the same candidate and channel as before. -/
theorem SameIds.back {t : State} (h : SameIds s t) {k : Nat} {e' : Entry} (found : t.entry k = some e') :
    ∃ e, s.entry k = some e ∧ e.id = e'.id ∧ e.channel = e'.channel := by
  have same := h k
  rw [found] at same
  cases before : s.entry k with
  | none => rw [before] at same; cases same
  | some e =>
    rw [before] at same
    simp only [Option.map_some, Option.some.injEq, Prod.mk.injEq] at same
    exact ⟨e, rfl, same.1.symm, same.2.symm⟩

theorem SameIds.symm {t : State} (h : SameIds s t) : SameIds t s := fun k => (h k).symm

/-! ## Conflicts -/

theorem State.conflictSlot_none_iff (rises : mapRises 0 s.roster = true) (c : Nat) :
    s.conflictSlot c = none ↔ ∀ k e k' e', s.entry k = some e → e.channel = c → s.entry k' = some e' → e'.channel ≠ c →
      e'.id = e.id → (s.chan e'.channel).state.isActive = false := by
  unfold State.conflictSlot
  rw [Option.map_eq_none_iff, List.find?_eq_none]
  constructor
  · intro none k e k' e' found own found' apart same
    have h := none (k, e) (mapGet_mem found)
    by_contra active
    refine h ?_
    simp only [Bool.and_eq_true, decide_eq_true_eq, List.any_eq_true]
    exact ⟨own, (k', e'), mapGet_mem found', ⟨apart, same⟩, by simpa using active⟩
  · intro none p hp
    simp only [Bool.and_eq_true, decide_eq_true_eq, List.any_eq_true, not_and, not_exists]
    rintro own q hq ⟨apart, same⟩ active
    rw [none p.1 p.2 q.1 q.2 (mapGet_of_mem rises hp) own (mapGet_of_mem rises hq) apart same] at active
    cases active

/-- Two states with the same ids, and the same other channels active, agree about a conflict. -/
theorem State.conflictSlot_congr {t : State} (rises : mapRises 0 s.roster = true) (rises' : mapRises 0 t.roster = true)
    (ids : SameIds s t) (active : ∀ d, d ≠ c → (t.chan d).state.isActive = (s.chan d).state.isActive) :
    t.conflictSlot c = none ↔ s.conflictSlot c = none := by
  rw [State.conflictSlot_none_iff rises', State.conflictSlot_none_iff rises]
  constructor
  · intro none k e k' e' found own found' apart same
    obtain ⟨x, there, id, channel⟩ := ids.symm.back found
    obtain ⟨x', there', id', channel'⟩ := ids.symm.back found'
    rw [← active _ apart, ← channel']
    exact none k x k' x' there (channel.trans own) there' (channel' ▸ apart) (by rw [id', id, same])
  · intro none k e k' e' found own found' apart same
    obtain ⟨x, there, id, channel⟩ := ids.back found
    obtain ⟨x', there', id', channel'⟩ := ids.back found'
    rw [active _ apart, ← channel']
    exact none k x k' x' there (channel.trans own) there' (channel' ▸ apart) (by rw [id', id, same])

/-! ## Attempts -/

/-- What a timed attempt leaves: the channel OPEN, or its admission spent and OPEN_FAILED raised (R38). -/
structure Attempted (u : State) (c : Nat) (conflict : Bool) (t : State) : Prop where
  opens : conflict = false → t.chan c = { u.chan c with state := .opened } ∧ Category.channelPhase ∈ t.office.flags
  fails : conflict = true → t.chan c = { u.chan c with spent := true } ∧ Category.openFailed ∈ t.office.flags

theorem State.attempted (s : State) (c : Nat) : Attempted s c (s.conflictSlot c).isSome (s.timedAttempt c) := by
  unfold State.timedAttempt
  cases s.conflictSlot c with
  | none => exact ⟨fun _ => ⟨by rw [State.chan_enterPhase, if_pos rfl]; rfl, State.flag_enterPhase s c _⟩, nofun⟩
  | some k => exact ⟨nofun, fun _ => ⟨by simp, State.flag_notify _ _⟩⟩

theorem Attempted.congr {u v t : State} {x : Bool} (h : Attempted u c x t) (same : u.chan c = v.chan c) :
    Attempted v c x t := ⟨fun y => same ▸ h.opens y, fun y => same ▸ h.fails y⟩

theorem Attempted.move {u t v : State} {x : Bool} (h : Attempted u c x t) (same : v.chan c = t.chan c)
    (raised : ∀ y, y ∈ t.office.flags → y ∈ v.office.flags) : Attempted u c x v :=
  ⟨fun y => ⟨same.trans (h.opens y).1, raised _ (h.opens y).2⟩, fun y => ⟨same.trans (h.fails y).1, raised _ (h.fails y).2⟩⟩

theorem Attempted.settle {u t : State} {x : Bool} (h : Attempted u c x t) : Attempted u c x t.settle :=
  h.move ((Moves.settle t).frame.chan c) (Moves.settle t).raised

theorem State.admissionDue_of_admits {u t : State} (time : t.time = u.time.second) (chan : t.chan c = u.chan c)
    (admits : u.admitsSecond c = true) : (t.giveTick (some c)).admissionDue c = true := by
  simp only [State.admitsSecond, Bool.and_eq_true, decide_eq_true_eq] at admits
  obtain ⟨⟨state, spent⟩, due⟩ := admits
  simp only [State.admissionDue, State.giveTick_chan, State.giveTick_time, State.giveTick_ticking, chan, time,
    TimeBase.second_eq, state, spent, due, decide_true, Bool.and_self]

theorem State.passTick_admits {u t : State} (time : t.time = u.time.second) (chan : t.chan c = u.chan c)
    (admits : u.admitsSecond c = true) : t.passTick c = ((t.giveTick (some c)).timedAttempt c).giveTick none := by
  have due := State.admissionDue_of_admits time chan admits
  have loaded : ((t.giveTick (some c)).chan c).state = .loaded := by
    simp only [State.admissionDue, Bool.and_eq_true, decide_eq_true_eq] at due
    exact due.1.1.2
  rw [State.passTick, State.tickChannel, loaded]
  dsimp only
  rw [if_pos due]

theorem State.attempted_passTick {u t : State} (time : t.time = u.time.second) (chan : t.chan c = u.chan c)
    (admits : u.admitsSecond c = true) : Attempted u c (t.conflictSlot c).isSome (t.passTick c) := by
  rw [State.passTick_admits time chan admits]
  have done := State.attempted (t.giveTick (some c)) c
  exact (done.congr (v := u) chan).move rfl fun _ h => h

/-! ## Channels that a second tick does not make active or inactive -/

theorem State.active_passTick (canonical : s.canonical = true) {d : Nat}
    (state : (s.chan d).state ∉ [.loaded, .writing, .overtime]) (e : Nat) :
    ((s.passTick d).chan e).state.isActive = (s.chan e).state.isActive := by
  by_cases other : d = e
  · subst other
    have chan : (s.passTick d).chan d = ((s.giveTick (some d)).tickChannel d).chan d := rfl
    have begun := Channel.begun_fields
    rw [chan, State.tickChannel]
    cases here : ((s.giveTick (some d)).chan d).state <;> dsimp only <;> rw [State.giveTick_chan] at here <;>
      simp only [here, List.mem_cons, reduceCtorEq, List.not_mem_nil, or_self, or_true, true_or, not_true_eq_false] at state
    case opened =>
      split
      · unfold State.startChannel
        split
        · rw [(Moves.markEntries _ d _).frame.chan, State.chan_enterPhase, if_pos rfl, here]; rfl
        · rw [State.chan_startWriting, if_pos rfl, (begun _).1, here]; rfl
      · rw [State.giveTick_chan]
    case reading =>
      split
      · rw [State.chan_heldSecond, if_pos rfl, State.giveTick_chan]
      · rw [State.chan_readingSecond, Channel.readOn, here]
        split
        · rw [(begun _).1]; rfl
        · show ((s.chan d).state).isActive = _; rw [here]
    all_goals rw [State.giveTick_chan]
  · rw [State.chan_passTick_other canonical other]

/-! ## The second tick before a channel's own turn -/

/-- The state at turn `n` of a second tick taken in `u`: hall time one second on, the ids as they were, and no channel from
`n` on touched. -/
structure Turn (u : State) (n : Nat) (t : State) : Prop where
  time : t.time = u.time.second
  ids : SameIds u t
  canonical : t.canonical = true
  later : ∀ x, n ≤ x → t.chan x = u.chan x

theorem Turn.start {u : State} (canonical : u.canonical = true) : Turn u 0 (u.onTime TimeBase.second) :=
  ⟨rfl, .refl u, (Moves.onTime u _).canonical canonical, fun _ _ => rfl⟩

theorem Turn.seats {u t : State} {n : Nat} (h : Turn u n t) : Turn u n t.tickSeats :=
  have m := Moves.tickSeats t
  ⟨m.frame.time.trans h.time, h.ids.trans (.tickSeats t), m.canonical h.canonical,
    fun x later => (m.frame.chan x).trans (h.later x later)⟩

theorem Turn.signals {u t : State} {n : Nat} (h : Turn u n t) : Turn u n t.tickSignals :=
  have m := Moves.tickSignals t
  ⟨m.frame.time.trans h.time, h.ids.trans (.of_roster (m.frame.2 .roster (by decide))), m.canonical h.canonical,
    fun x later => (m.frame.chan x).trans (h.later x later)⟩

theorem Turn.pass {u t : State} {n : Nat} (h : Turn u n t) : Turn u (n + 1) (t.passTick n) :=
  have m := Moves.passTick t n
  ⟨m.frame.time.trans h.time, h.ids.trans (Confined.passTick (c := n) h.canonical).ids, m.canonical h.canonical,
    fun x later => (State.chan_passTick_other h.canonical (by omega)).trans (h.later x (by omega))⟩

theorem Turn.rises {u t : State} {n : Nat} (h : Turn u n t) : mapRises 0 t.roster = true := State.roster_rises h.canonical

/-- The attempt of channel `c` at a second tick, when no channel below it may leave the active set or enter it. -/
theorem Attempted.secondTick {u : State} (canonical : u.canonical = true) (hc : c < 16) (o : TickOrder)
    (admits : u.admitsSecond c = true) (below : ∀ d, d < c → (u.chan d).state ∉ [.loaded, .writing, .overtime]) :
    Attempted u c (u.conflictSlot c).isSome (u.secondTick o) := by
  have h := State.secondTick_rule (fun n t => Turn u n t ∧ (n ≤ c → ∀ d, d ≠ c → (t.chan d).state.isActive = (u.chan d).state.isActive) ∧
      (c < n → Attempted u c (u.conflictSlot c).isSome t)) (s := u) o
    ⟨.start canonical, fun _ _ _ => rfl, fun h => absurd h (by omega)⟩ ?_ ?_ ?_
  · exact h.2.2 (by omega)
  · rintro t n - ⟨turn, active, done⟩
    exact ⟨turn.seats, fun le d apart => by rw [(Moves.tickSeats t).frame.chan]; exact active le d apart,
      fun lt => (done lt).move ((Moves.tickSeats t).frame.chan c) (Moves.tickSeats t).raised⟩
  · rintro t n - ⟨turn, active, done⟩
    exact ⟨turn.signals, fun le d apart => by rw [(Moves.tickSignals t).frame.chan]; exact active le d apart,
      fun lt => (done lt).move ((Moves.tickSignals t).frame.chan c) (Moves.tickSignals t).raised⟩
  · rintro t n hn ⟨turn, active, done⟩
    refine ⟨turn.pass, fun le d apart => ?_, fun lt => ?_⟩
    · rw [State.active_passTick turn.canonical (by rw [turn.later n (Nat.le_refl n)]; exact below n (by omega)) d]
      exact active (by omega) d apart
    · by_cases own : n = c
      · subst own
        have same : (t.conflictSlot n).isSome = (u.conflictSlot n).isSome := by
          have agree := State.conflictSlot_congr (c := n) (State.roster_rises canonical) turn.rises turn.ids (active (Nat.le_refl n))
          rw [Bool.eq_iff_iff, Option.isSome_iff_ne_none, Option.isSome_iff_ne_none, Ne, Ne, agree]
        rw [← same]
        exact State.attempted_passTick turn.time (turn.later n (Nat.le_refl n)) admits
      · exact (done (by omega)).move (State.chan_passTick_other turn.canonical own) (Moves.passTick t n).raised

/-- Two attempts due at one second tick with a candidate in common, no other channel being active or due: the lower
channel opens and the higher one fails. -/
theorem attempts_secondTick {u : State} {d k k' : Nat} {e e' : Entry} (canonical : u.canonical = true) (lower : c < d)
    (hd : d < 16) (o : TickOrder) (admits : u.admitsSecond c = true) (admits' : u.admitsSecond d = true)
    (others : ∀ x, x ≠ c → x ≠ d → (u.chan x).state.isActive = false ∧ (u.chan x).state ≠ .loaded)
    (found : u.entry k = some e) (own : e.channel = c) (found' : u.entry k' = some e') (own' : e'.channel = d)
    (same : e'.id = e.id) :
    ((u.secondTick o).chan c).state = .opened ∧ Attempted u d true (u.secondTick o) := by
  have loaded : ∀ x, u.admitsSecond x = true → (u.chan x).state = .loaded := fun x h => by
    simp only [State.admitsSecond, Bool.and_eq_true, decide_eq_true_eq] at h
    exact h.1.1
  have h := State.secondTick_rule (fun n t => Turn u n t ∧ (∀ x, x ≠ c → x ≠ d → t.chan x = u.chan x) ∧
      (c < n → (t.chan c).state = .opened) ∧ (d < n → Attempted u d true t)) (s := u) o
    ⟨.start canonical, fun _ _ _ => rfl, fun h => absurd h (by omega), fun h => absurd h (by omega)⟩ ?_ ?_ ?_
  · exact ⟨h.2.2.1 (by omega), h.2.2.2 (by omega)⟩
  · rintro t n - ⟨turn, stand, opened, failed⟩
    have m := Moves.tickSeats t
    exact ⟨turn.seats, fun x h1 h2 => (m.frame.chan x).trans (stand x h1 h2), fun h => by rw [m.frame.chan]; exact opened h,
      fun h => (failed h).move (m.frame.chan d) m.raised⟩
  · rintro t n - ⟨turn, stand, opened, failed⟩
    have m := Moves.tickSignals t
    exact ⟨turn.signals, fun x h1 h2 => (m.frame.chan x).trans (stand x h1 h2), fun h => by rw [m.frame.chan]; exact opened h,
      fun h => (failed h).move (m.frame.chan d) m.raised⟩
  · rintro t n hn ⟨turn, stand, opened, failed⟩
    have other : ∀ x, n ≠ x → (t.passTick n).chan x = t.chan x := fun x apart =>
      State.chan_passTick_other turn.canonical apart
    have now := turn.later n (Nat.le_refl n)
    refine ⟨turn.pass, fun x h1 h2 => ?_, fun h => ?_, fun h => ?_⟩
    · by_cases here : n = x
      · subst here
        obtain ⟨inactive, idle⟩ := others n h1 h2
        have chan : (t.passTick n).chan n = ((t.giveTick (some n)).tickChannel n).chan n := rfl
        rw [chan, State.tickChannel, State.giveTick_chan, now]
        cases state : (u.chan n).state <;> simp only [state, ChanState.isActive, ne_eq, not_true_eq_false, Bool.true_eq_false] at inactive idle
        all_goals exact (State.giveTick_chan t (some n) n).trans now
      · rw [other x here]; exact stand x h1 h2
    · by_cases here : n = c
      · subst here
        have free : t.conflictSlot n = none := by
          rw [State.conflictSlot_none_iff turn.rises]
          intro k e k' e' _ _ _ apart _
          by_cases far : e'.channel = d
          · rw [far, turn.later d (by omega), loaded d admits']; rfl
          · rw [stand _ apart far]; exact (others _ apart far).1
        have done := State.attempted_passTick turn.time now admits
        rw [free] at done
        rw [(done.opens rfl).1]
      · rw [other c here]; exact opened (by omega)
    · by_cases here : n = d
      · subst here
        have clash : (t.conflictSlot n).isSome = true := by
          rw [Option.isSome_iff_ne_none, Ne, State.conflictSlot_none_iff turn.rises]
          intro none
          obtain ⟨x, there, id, channel⟩ := turn.ids.symm.back found
          obtain ⟨x', there', id', channel'⟩ := turn.ids.symm.back found'
          have inactive := none k' x' k x there' (channel'.trans own') there (by rw [channel, own]; omega) (by rw [id, id', same])
          rw [channel, own, opened (by omega)] at inactive
          cases inactive
        have done := State.attempted_passTick turn.time now admits'
        rwa [clash] at done
      · exact (failed (by omega)).move (other d here) (Moves.passTick t n).raised

/-! ## The obligation -/

theorem exec_timedAdmission (c : Nat) (s : State) : exec (.timedAdmission c) s =
    .next (if s.admissionDue c then (s.timedAttempt c).giveTick none else s).settle := rfl

theorem Moves.timedAttempt_told (s : State) (c : Nat) : Moves [.channels, .flags, .notices] s (s.timedAttempt c) := by
  unfold State.timedAttempt
  split
  · exact .enterPhase s c _
  · exact (Moves.onChan s c _).widen.next (.notify _ _)

theorem channelOpen_attempts (tag : Byte) (hc : c ≤ 15) (loaded : (s.chan c).state = .loaded) (takes : s.takesRequest) :
    ∃ t, exec (.channelOpen tag c) s = .next t ∧ (∀ d, d ≠ c → t.chan d = s.chan d) ∧
      match s.conflictSlot c with
      | none => Answered s t tag 0x03#8 .ok [] ∧ t.chan c = { s.chan c with state := .opened } ∧
          Unchanged [.channels, .flags, .notices, .responses, .framesIn] s t
      | some k => Answered s t tag 0x03#8 .conflict (be 2 k) ∧ Unchanged [.responses, .framesIn] s t := by
  have answer : s.countFrame.channelOpen c = match s.conflictSlot c with
      | some k => ⟨.conflict, be 2 k, s.countFrame⟩
      | none => (s.countFrame.enterPhase c .opened).done := by
    unfold State.channelOpen
    rw [if_neg (by omega), if_neg (show ¬(s.countFrame.chan c).state ≠ .loaded from fun h => h loaded)]
    rfl
  cases conflict : s.conflictSlot c with
  | none =>
    rw [conflict] at answer
    obtain ⟨t, run, served⟩ := State.served (k := [.channels, .flags, .notices]) (i := .channelOpen tag c) rfl takes answer
      (.enterPhase s.countFrame c .opened)
    have chan : ∀ d, t.chan d = if c = d then { s.chan c with state := .opened } else s.chan d := fun d => by
      rw [served.chan, State.chan_enterPhase]; rfl
    exact ⟨t, run, fun d apart => by rw [chan, if_neg (Ne.symm apart)], served.answered, by rw [chan, if_pos rfl],
      served.unchanged.weaken (by decide)⟩
  | some k =>
    rw [conflict] at answer
    obtain ⟨t, run, served⟩ := State.served (k := []) (i := .channelOpen tag c) rfl takes answer (.refl s.countFrame)
    exact ⟨t, run, fun d _ => by rw [served.chan]; rfl, served.answered, served.unchanged⟩

theorem timedAdmission_attempts (due : s.admissionDue c = true) :
    ∃ t, exec (.timedAdmission c) s = .next t ∧ (∀ d, d ≠ c → t.chan d = s.chan d) ∧
      Unchanged [.channels, .flags, .notices] s t ∧ Attempted s c (s.conflictSlot c).isSome t := by
  have moves := ((Moves.timedAttempt_told s c).next (.giveTick _ none)).next (.settle _)
  have chan : ∀ d, (((s.timedAttempt c).giveTick none).settle).chan d = (s.timedAttempt c).chan d := fun d =>
    (Moves.settle _).frame.chan d
  refine ⟨_, by rw [exec_timedAdmission, if_pos due], fun d apart => ?_, moves.frame,
    (State.attempted s c).move (chan c) fun x h => (Moves.settle _).raised x h⟩
  rw [chan, State.timedAttempt]
  split
  · rw [State.chan_enterPhase, if_neg (Ne.symm apart)]
  · rw [State.chan_notify, State.chan_onChan, if_neg (Ne.symm apart)]

/-- Settles O10, by the attempt of a channel and the rule for second ticks. -/
theorem admissionAttemptOpensOrFails : Obligations.AdmissionAttemptOpensOrFails := by
  intro tag c s hc loaded
  refine ⟨channelOpen_attempts tag hc loaded, fun due => ?_, fun idle => ?_, fun i brings canonical admits =>
    ⟨fun below => ?_, fun d k k' e e' lower hd admits' others found own found' own' same => ?_⟩⟩
  · obtain ⟨t, run, chan, frame, done⟩ := timedAdmission_attempts due
    refine ⟨t, run, chan, frame, ?_⟩
    cases conflict : s.conflictSlot c with
    | none => exact done.opens (by rw [conflict]; rfl)
    | some k => exact done.fails (by rw [conflict]; rfl)
  · have undue : s.admissionDue c = false := by simp [State.admissionDue, idle]
    refine ⟨s.settle, ?_, (Unchanged.refl [] s).settle⟩
    rw [exec_timedAdmission, if_neg (by simp [undue])]
  · obtain ⟨u, o, ready, run⟩ := exec_second brings
    have form := ready.canonical canonical
    have done := Attempted.secondTick form (Nat.lt_succ_of_le hc) o (by rw [ready.admitsSecond]; exact admits) fun d lt => by
      rw [ready.state]; exact below d lt
    have agree : u.conflictSlot c = none ↔ s.conflictSlot c = none :=
      State.conflictSlot_congr (State.roster_rises canonical) (State.roster_rises form) (.of_roster ready.roster) fun d _ => by
        rw [ready.state]
    have settled := done.settle
    refine ⟨_, run, ?_⟩
    cases conflict : s.conflictSlot c with
    | none =>
      obtain ⟨chan, told⟩ := settled.opens (by rw [agree.2 conflict]; rfl)
      exact ⟨by rw [chan], told⟩
    | some k =>
      have clash : (u.conflictSlot c).isSome = true := by
        rw [Option.isSome_iff_ne_none, Ne, agree, conflict]; nofun
      obtain ⟨chan, told⟩ := settled.fails clash
      exact ⟨by rw [chan]; exact (ready.state c).trans loaded, by rw [chan], told⟩
  · obtain ⟨u, o, ready, run⟩ := exec_second brings
    have form := ready.canonical canonical
    obtain ⟨opened, failed⟩ := attempts_secondTick form lower (by omega) o (by rw [ready.admitsSecond]; exact admits)
      (by rw [ready.admitsSecond]; exact admits') (fun x h1 h2 => by rw [ready.state]; exact others x h1 h2)
      ((ready.entry k).trans found) own ((ready.entry k').trans found') own' same
    have settled := failed.settle
    obtain ⟨chan, told⟩ := settled.fails rfl
    have loaded' : (s.chan d).state = .loaded := by
      simp only [State.admitsSecond, Bool.and_eq_true, decide_eq_true_eq] at admits'
      exact admits'.1.1
    refine ⟨_, run, ?_, ?_, ?_, told⟩
    · rw [(Moves.settle (u.secondTick o)).frame.chan]; exact opened
    · rw [chan]; exact (ready.state d).trans loaded'
    · rw [chan]

end Sys2Proof.Machine
end

section
/-! PROOF. Seats and entries: the law of R5 and R11 as one relation, and what keeps it. -/

namespace Sys2Proof.Machine

set_option Elab.async false

variable {s : State}

/-! ## The law -/

/-- The slot that occupancy `o` names, and whether it is OCCUPIED. -/
def Occupancy.taken : Occupancy → Option (Nat × Bool)
  | .held k _ => some (k, false)
  | .occupied k => some (k, true)
  | _ => none

/-- Whether a candidate in this state stands on an OCCUPIED seat or a HELD one; none when it has no seat (R5, R11). -/
def EntryState.sits : EntryState → Option Bool
  | .allocated => some false
  | .seated | .writing | .onBreak => some true
  | _ => none

/-- How slot `k` stands on seat `i`. -/
def State.sitting (s : State) (k i : Nat) : Option Bool :=
  (s.entry k).bind fun e => if e.seat = some i then e.state.sits else none

/-- A seat is taken by a slot exactly as the slot's entry stands on it, and an entry names a seat exactly when its state
calls for one. -/
structure SeatsTied (s : State) : Prop where
  taken : ∀ i k x, (s.seat i).occ.taken = some (k, x) ↔ s.sitting k i = some x
  placed : ∀ k e, s.entry k = some e → (e.seat = none ↔ e.state.sits = none)

theorem Occupancy.slot_eq (o : Occupancy) : o.slot = o.taken.map Prod.fst := by cases o <;> rfl

theorem State.sitting_of {k i : Nat} {e : Entry} (found : s.entry k = some e) :
    s.sitting k i = if e.seat = some i then e.state.sits else none := by simp [State.sitting, found]

theorem EntryState.sits_eq_none (x : EntryState) :
    x.sits = none ↔ (decide (x = .allocated) || x.isSeated) = false := by cases x <;> decide

theorem SeatsTied.of_agree (agree : s.seatsAgree = true) : SeatsTied s := by
  simp only [State.seatsAgree, Bool.and_eq_true, List.all_eq_true] at agree
  obtain ⟨seats, roster⟩ := agree
  have stands : ∀ k e i, s.entry k = some e → e.seat = some i → (s.seat i).occ.slot = some k ∧
      match (s.seat i).occ with | .held _ _ => e.state = .allocated | _ => e.state.isSeated = true := by
    intro k e i found own
    have h := roster (k, e) (mapGet_mem found)
    dsimp only at h
    rw [own] at h
    simp only [Bool.and_eq_true, decide_eq_true_eq] at h
    refine ⟨h.1, ?_⟩
    have state := h.2
    cases occ : (s.seat i).occ <;> rw [occ] at state <;> simpa using state
  refine ⟨fun i k x => ⟨fun taken => ?_, fun sits => ?_⟩, fun k e found => ?_⟩
  · have slot : (s.seat i).occ.slot = some k := by rw [Occupancy.slot_eq, taken]; rfl
    have listed : (i, s.seat i) ∈ s.seats := by
      cases at_ : mapGet s.seats i with
      | none =>
        have blank : s.seat i = Seat.blank := by simp [State.seat, tabGet, at_]
        rw [blank] at slot; cases slot
      | some r =>
        have same : s.seat i = r := by simp [State.seat, tabGet, at_]
        rw [same]; exact mapGet_mem at_
    have h := seats _ listed
    dsimp only at h
    rw [slot] at h
    cases found : s.entry k with
    | none => simp [found] at h
    | some e =>
      have own : e.seat = some i := by simpa [found] using h
      have state := (stands k e i found own).2
      rw [State.sitting_of found, if_pos own]
      cases occ : (s.seat i).occ <;> rw [occ] at taken state <;> cases taken
      · simp only at state; rw [state]; rfl
      · cases at_ : e.state <;> simp [at_, EntryState.isSeated] at state <;> rfl
  · cases found : s.entry k with
    | none => simp [State.sitting, found] at sits
    | some e =>
      rw [State.sitting_of found] at sits
      split at sits
      case isFalse => cases sits
      next own =>
      obtain ⟨slot, state⟩ := stands k e i found own
      cases occ : (s.seat i).occ <;> rw [occ] at slot state <;> cases slot
      · simp only at state; rw [state] at sits; cases sits; rfl
      · cases at_ : e.state <;> simp [at_, EntryState.isSeated] at state <;> rw [at_] at sits <;> cases sits <;> rfl
  · rw [EntryState.sits_eq_none]
    cases own : e.seat with
    | none =>
      have h := roster (k, e) (mapGet_mem found)
      dsimp only at h
      rw [own] at h
      simpa using h
    | some i =>
      have state := (stands k e i found own).2
      simp only [reduceCtorEq, false_iff, Bool.not_eq_false, Bool.or_eq_true, decide_eq_true_eq]
      split at state
      · exact .inl state
      · exact .inr state

theorem SeatsTied.agree (rises : mapRises 0 s.seats = true) (rises' : mapRises 0 s.roster = true) (h : SeatsTied s) :
    s.seatsAgree = true := by
  simp only [State.seatsAgree, Bool.and_eq_true, List.all_eq_true]
  constructor
  · rintro ⟨i, r⟩ listed
    have same : s.seat i = r := by simp [State.seat, tabGet, mapGet_of_mem rises listed]
    dsimp only
    rw [Occupancy.slot_eq, ← same]
    cases taken : (s.seat i).occ.taken with
    | none => rfl
    | some p =>
      obtain ⟨k, x⟩ := p
      have sits := (h.taken i k x).1 taken
      cases found : s.entry k with
      | none => simp [State.sitting, found] at sits
      | some e =>
        rw [State.sitting_of found] at sits
        simp only [Option.map_some, found, Option.any_some, decide_eq_true_eq]
        by_contra apart
        rw [if_neg apart] at sits; cases sits
  · rintro ⟨k, e⟩ listed
    have found : s.entry k = some e := mapGet_of_mem rises' listed
    have placed := h.placed k e found
    dsimp only
    cases own : e.seat with
    | none => simpa using (EntryState.sits_eq_none _).1 (placed.1 own)
    | some i =>
      cases sits : e.state.sits with
      | none => rw [placed.2 sits] at own; cases own
      | some x =>
        have taken := (h.taken i k x).2 (by rw [State.sitting_of found, if_pos own, sits])
        have slot : (s.seat i).occ.slot = some k := by rw [Occupancy.slot_eq, taken]; rfl
        simp only [slot, decide_true, Bool.true_and]
        cases occ : (s.seat i).occ <;> rw [occ] at taken <;> cases taken
        · cases state : e.state <;> simp [state, EntryState.sits] at sits ⊢
        · cases state : e.state <;> simp [state, EntryState.sits, EntryState.isSeated] at sits ⊢

/-! ## What keeps it -/

/-- Nothing that the law reads has changed. -/
theorem SeatsTied.same {t : State} (h : SeatsTied s)
    (entry : ∀ k, (t.entry k).map (fun e => (e.seat, e.state.sits)) = (s.entry k).map fun e => (e.seat, e.state.sits))
    (seat : ∀ i, (t.seat i).occ.taken = (s.seat i).occ.taken) : SeatsTied t := by
  have sitting : ∀ k i, t.sitting k i = s.sitting k i := fun k i => by
    have at_ := entry k
    cases after : t.entry k <;> cases before : s.entry k <;> rw [after, before] at at_ <;>
      simp only [Option.map_some, Option.map_none, reduceCtorEq, Option.some.injEq, Prod.mk.injEq] at at_
    · simp [State.sitting, before, after]
    · rw [State.sitting_of after, State.sitting_of before, at_.1, at_.2]
  refine ⟨fun i k x => by rw [seat, sitting]; exact h.taken i k x, fun k e after => ?_⟩
  have at_ := entry k
  cases before : s.entry k <;> rw [after, before] at at_ <;>
    simp only [Option.map_some, Option.map_none, reduceCtorEq, Option.some.injEq, Prod.mk.injEq] at at_
  rw [at_.1, at_.2]
  exact h.placed k _ before

theorem SeatsTied.of_moves {t : State} {l : List Part} (h : SeatsTied s) (m : Moves l s t)
    (h1 : Part.roster ∉ l := by decide) (h2 : Part.seats ∉ l := by decide) : SeatsTied t :=
  h.same (fun k => by rw [m.frame.entry k h1]) fun i => by rw [m.frame.seat i h2]

/-- The change of one slot: what it stood on is given up and what it stands on is taken, and no seat that another slot
stands on. -/
theorem SeatsTied.move {t : State} (h : SeatsTied s) (k : Nat) (entry : ∀ j, j ≠ k → t.entry j = s.entry j)
    (placed : ∀ e, t.entry k = some e → (e.seat = none ↔ e.state.sits = none))
    (fresh : ∀ i x j y, t.sitting k i = some x → (s.seat i).occ.taken = some (j, y) → j = k)
    (seat : ∀ i, (t.seat i).occ.taken = match t.sitting k i with
      | some x => some (k, x)
      | none => if (s.sitting k i).isSome then none else (s.seat i).occ.taken) : SeatsTied t := by
  refine ⟨fun i j x => ?_, fun j e found => ?_⟩
  · by_cases own : j = k
    · subst own
      rw [seat]
      cases after : t.sitting j i with
      | some y => simp
      | none =>
        simp only [reduceCtorEq, iff_false]
        split
        · nofun
        · next alone => intro taken; exact alone (by rw [(h.taken i j x).1 taken]; rfl)
    · have sitting : t.sitting j i = s.sitting j i := by rw [State.sitting, State.sitting, entry j own]
      rw [sitting, ← h.taken, seat]
      cases after : t.sitting k i with
      | some y =>
        simp only [Option.some.injEq, Prod.mk.injEq]
        exact ⟨fun at_ => absurd at_.1.symm own, fun at_ => absurd (fresh i y j x after at_) own⟩
      | none =>
        dsimp only
        split
        · next gone =>
          obtain ⟨y, before⟩ := Option.isSome_iff_exists.1 gone
          have mine := (h.taken i k y).2 before
          rw [mine]
          simp only [reduceCtorEq, Option.some.injEq, Prod.mk.injEq, false_iff, not_and]
          exact fun at_ => absurd at_.symm own
        · rfl
  · by_cases own : j = k
    · subst own; exact placed e found
    · exact h.placed j e (by rw [← entry j own]; exact found)

/-- A slot whose entry has no seat any more, its seat taken by none. -/
theorem SeatsTied.leave {t : State} (h : SeatsTied s) {k : Nat} {e : Entry} (found : s.entry k = some e)
    (entry : ∀ j, j ≠ k → t.entry j = s.entry j)
    (gone : ∀ e', t.entry k = some e' → e'.seat = none ∧ e'.state.sits = none)
    (seat : ∀ i, (t.seat i).occ.taken = if e.seat = some i then none else (s.seat i).occ.taken) : SeatsTied t := by
  have none : ∀ i, t.sitting k i = none := fun i => by
    cases after : t.entry k with
    | none => simp [State.sitting, after]
    | some e' => rw [State.sitting_of after, (gone e' after).1, if_neg nofun]
  refine h.move k entry (fun e' after => by rw [(gone e' after).1, (gone e' after).2]; simp)
    (fun i x j y sits => by rw [none] at sits; cases sits) fun i => ?_
  rw [none, seat, State.sitting_of found]
  dsimp only
  by_cases own : e.seat = some i
  · rw [if_pos own, if_pos own]
    cases sits : e.state.sits with
    | none => rw [(h.placed k e found).2 sits] at own; cases own
    | some x => rfl
  · rw [if_neg own, if_neg own]; rfl

/-- The seat that an entry names is taken by its slot. -/
theorem SeatsTied.seat_of {k i : Nat} {e : Entry} (h : SeatsTied s) (found : s.entry k = some e) (own : e.seat = some i) :
    ∃ x, e.state.sits = some x ∧ (s.seat i).occ.taken = some (k, x) := by
  cases sits : e.state.sits with
  | none => rw [(h.placed k e found).2 sits] at own; cases own
  | some x => exact ⟨x, rfl, (h.taken i k x).2 (by rw [State.sitting_of found, if_pos own, sits])⟩

/-- The slot that takes a seat has an entry that names it. -/
theorem SeatsTied.entry_of {k i : Nat} {x : Bool} (h : SeatsTied s) (taken : (s.seat i).occ.taken = some (k, x)) :
    ∃ e, s.entry k = some e ∧ e.seat = some i ∧ e.state.sits = some x := by
  have sits := (h.taken i k x).1 taken
  cases found : s.entry k with
  | none => simp [State.sitting, found] at sits
  | some e =>
    rw [State.sitting_of found] at sits
    split at sits
    · next own => exact ⟨e, rfl, own, sits⟩
    · cases sits

theorem EntryState.sits_false {x : EntryState} (h : x.sits = some false) : x = .allocated := by
  cases x <;> cases h; rfl

/-- Two entries that name one seat stand in one slot. -/
theorem SeatsTied.alone {k j i : Nat} {e e' : Entry} (h : SeatsTied s) (found : s.entry k = some e)
    (own : e.seat = some i) (found' : s.entry j = some e') (own' : e'.seat = some i) : j = k := by
  obtain ⟨x, -, taken⟩ := h.seat_of found own
  obtain ⟨y, -, taken'⟩ := h.seat_of found' own'
  rw [taken] at taken'
  cases taken'
  rfl

/-! ## The seat allocator's second -/

/-- What a second tick leaves of seat record `r` (R85, R86, R91). -/
def Seat.second (r : Seat) (held : Bool) : Seat :=
  match r.occ with
  | .held k n =>
    if held then r
    else if n ≤ 1 then { r with occ := .free, closing := .none }
    else { r with occ := .held k (n - 1) }
  | .clearing n =>
    if n ≤ 1 then { r with occ := .free, closing := .none }
    else { r with occ := .clearing (n - 1) }
  | _ => r

theorem State.seat_tickSeat (s : State) (i j : Nat) :
    (s.tickSeat i).seat j = if i = j then (s.seat i).second s.time.held else s.seat j := by
  unfold State.tickSeat Seat.second
  by_cases own : i = j
  · subst own
    cases occ : (s.seat i).occ with
    | held k n =>
      dsimp only
      by_cases held : s.time.held = true
      · simp [held]
      · by_cases last : n ≤ 1
        · simp [held, last, State.expire, State.seat_releaseHold]
        · simp [held, last]
    | clearing n =>
      dsimp only
      by_cases last : n ≤ 1
      · simp [last, State.endClearing, State.seat_freeSeat]
      · simp [last]
    | _ => simp
  · rw [if_neg own]
    split
    · split
      · rfl
      · dsimp only
        split <;> simp [State.expire, State.seat_releaseHold, own]
    · dsimp only
      split <;> simp [State.endClearing, State.seat_freeSeat, own]
    · rfl

theorem Seat.taken_second (r : Seat) (held : Bool) : (r.second held).occ.taken = r.occ.taken ∨
    held = false ∧ ∃ k, r.runsOut k ∧ (r.second held).occ.taken = none := by
  unfold Seat.second Seat.runsOut
  split
  · next k n occ =>
    split
    · exact .inl rfl
    · next free =>
      split
      · next last => exact .inr ⟨by simpa using free, k, ⟨n, occ, last⟩, rfl⟩
      · exact .inl (by rw [occ]; rfl)
  · next n occ =>
    split
    · exact .inl (by rw [occ]; rfl)
    · exact .inl (by rw [occ]; rfl)
  · exact .inl rfl

/-- A seat whose hold runs out is HELD for an ALLOCATED candidate that names it. -/
theorem SeatsTied.runsOut (h : SeatsTied s) {i k : Nat} (out : (s.seat i).runsOut k) :
    ∃ e, s.entry k = some e ∧ e.seat = some i ∧ e.state = .allocated := by
  obtain ⟨n, occ, -⟩ := out
  obtain ⟨e, found, own, sits⟩ := h.entry_of (i := i) (k := k) (x := false) (by rw [occ]; rfl)
  exact ⟨e, found, own, EntryState.sits_false sits⟩

theorem SeatsTied.tickSeat (h : SeatsTied s) (i : Nat) : SeatsTied (s.tickSeat i) := by
  have seat := State.seat_tickSeat s i
  have entry := State.entry_tickSeat s i
  generalize s.tickSeat i = t at seat entry
  rcases Seat.taken_second (s.seat i) s.time.held with stands | ⟨free, k, out, gone⟩
  · refine h.same (fun k => ?_) fun j => ?_
    · rcases entry k with ⟨same, -⟩ | ⟨-, free, out⟩
      · rw [same]
      · obtain ⟨n, occ, last⟩ := out
        simp [Seat.second, occ, last, free, Occupancy.taken] at stands
    · rw [seat]
      split
      · next own => rw [← own]; exact stands
      · rfl
  · obtain ⟨e, found, own, -⟩ := h.runsOut out
    refine h.leave found (fun j apart => ?_) (fun e' after => ?_) fun j => ?_
    · rcases entry j with ⟨same, -⟩ | ⟨-, -, out'⟩
      · exact same
      · obtain ⟨n, occ, -⟩ := out
        obtain ⟨m, occ', -⟩ := out'
        rw [occ] at occ'; cases occ'; exact absurd rfl apart
    · rcases entry k with ⟨-, stays⟩ | ⟨same, -⟩
      · exact absurd ⟨free, out⟩ stays
      · rw [same, found] at after; cases after; exact ⟨rfl, rfl⟩
    · rw [seat, own]
      by_cases here : i = j
      · rw [if_pos here, if_pos (by rw [here]), gone]
      · rw [if_neg here, if_neg (by simpa using here)]

/-- From `s` to `t` an entry of channel `c` stands as it was, but an ALLOCATED one whose hold may have run out. -/
def Waited (c : Nat) (s t : State) : Prop := ∀ k e, s.entry k = some e → e.channel = c →
  t.entry k = some e ∨ e.state = .allocated ∧ t.entry k = some e.expired

theorem Waited.refl (c : Nat) (s : State) : Waited c s s := fun _ _ found _ => .inl found

theorem Waited.trans {c : Nat} {t u : State} (h : Waited c s t) (g : Waited c t u) : Waited c s u := fun k e found own => by
  rcases h k e found own with same | ⟨was, gone⟩
  · exact g k e same own
  · rcases g k _ gone own with same | ⟨was', -⟩
    · exact .inr ⟨was, same⟩
    · cases was'

theorem Waited.of_roster {c : Nat} {t : State} (same : t.roster = s.roster) : Waited c s t := fun k e found _ =>
  .inl (by rw [State.entry, same]; exact found)

theorem SeatsTied.waited_tickSeat (h : SeatsTied s) (i c : Nat) : Waited c s (s.tickSeat i) := fun k e found own => by
  rcases State.entry_tickSeat s i k with ⟨same, -⟩ | ⟨gone, -, out⟩
  · exact .inl (same.trans found)
  · obtain ⟨e', found', -, state⟩ := h.runsOut out
    cases found.symm.trans found'
    exact .inr ⟨state, by rw [gone, found]; rfl⟩

theorem SeatsTied.tickSeats (h : SeatsTied s) : SeatsTied s.tickSeats ∧ ∀ c, Waited c s s.tickSeats :=
  foldl_invariant (fun t => SeatsTied t ∧ ∀ c, Waited c s t) State.tickSeat
    (fun _ i ⟨tied, waited⟩ => ⟨tied.tickSeat i, fun c => (waited c).trans (tied.waited_tickSeat i c)⟩) s.seatKeys s
    ⟨h, fun c => .refl c s⟩

/-! ## The clock unit and the sitting unit -/

theorem Seat.vacated_taken (r : Seat) (n : Nat) (w : ClosingWord) : (r.vacated n w).occ.taken = none := by
  unfold Seat.vacated
  dsimp only
  split <;> rfl

theorem State.departed_gone (s : State) (e : Entry) (w : ClosingWord) :
    (s.departed e w).seat = none ∧ (s.departed e w).state.sits = none := by
  have leaves : w.leaves.sits = none := by unfold ClosingWord.leaves; split <;> rfl
  unfold State.departed
  refine ⟨rfl, ?_⟩
  dsimp only
  split
  · rfl
  · exact leaves

theorem SeatsTied.depart (h : SeatsTied s) (k : Nat) (w : ClosingWord) : SeatsTied (s.depart k w) := by
  cases found : s.entry k with
  | none => rw [State.depart, found]; exact h
  | some e =>
    refine h.leave found (fun j apart => State.depart_apart s w apart) (fun e' after => ?_) fun i => ?_
    · rw [State.entry_depart found, if_pos rfl] at after
      cases after
      exact State.departed_gone s e w
    · rw [State.seat_depart found]
      split
      · exact Seat.vacated_taken _ _ _
      · rfl

/-- The change of one entry that keeps its seat and the kind of its place. -/
theorem SeatsTied.entry {t : State} (h : SeatsTied s) {k : Nat} {f : Entry → Entry}
    (entry : ∀ j, t.entry j = if k = j then (s.entry j).map f else s.entry j)
    (keeps : ∀ e, s.entry k = some e → (f e).seat = e.seat ∧ (f e).state.sits = e.state.sits)
    (seat : ∀ i, (t.seat i).occ.taken = (s.seat i).occ.taken) : SeatsTied t := by
  refine h.same (fun j => ?_) seat
  rw [entry]
  split
  · next own =>
    subst own
    cases found : s.entry k with
    | none => rfl
    | some e => simp [keeps e found]
  · rfl

theorem SeatsTied.exhaust (h : SeatsTied s) (k : Nat) : SeatsTied (s.exhaust k) :=
  h.entry (State.entry_exhaust s k) (fun _ _ => ⟨rfl, rfl⟩) fun i => by
    rw [(Moves.exhaust s k).frame.seat]

theorem SeatsTied.count (h : SeatsTied s) {k : Nat} {e : Entry} (found : s.entry k = some e) :
    SeatsTied (s.putEntry k e.count) :=
  h.entry (k := k) (f := Entry.count) (fun j => by
    rw [State.entry_putEntry]
    split
    · next own => subst own; simp [found]
    · rfl) (fun e _ => ⟨(Entry.count_keeps e).2.1, by rw [(Entry.count_keeps e).1]⟩) fun _ => rfl

theorem SeatsTied.countEntry (h : SeatsTied s) (k : Nat) : SeatsTied (s.countEntry k) := by
  unfold State.countEntry
  split
  · exact h
  · next e found =>
    have put := h.count found
    split
    · dsimp only
      split
      · split
        · exact put.exhaust k
        · exact put
      · split
        · exact put.depart k _
        · exact put.of_moves (.warnTest _ k)
    · exact h

theorem SeatsTied.startWriter (h : SeatsTied s) {k : Nat} {e : Entry} (found : s.entry k = some e)
    (seated : e.state = .seated) : SeatsTied (s.startWriter k) :=
  h.entry (State.entry_startWriter s k) (fun e' found' => by
    cases found.symm.trans found'
    exact ⟨rfl, by rw [seated]; rfl⟩) fun i => by rw [(Moves.startWriter s k).frame.seat]

theorem SeatsTied.recompute (h : SeatsTied s) (w k : Nat) : SeatsTied (s.recompute w k) :=
  h.entry (State.entry_recompute s w k) (fun _ _ => ⟨rfl, rfl⟩) fun i => by rw [(Moves.recompute s w k).frame.seat]

theorem EntryState.isOut_cases {x : EntryState} (h : x.isOut = true) : x = .expected ∨ x = .allocated := by
  simpa [EntryState.isOut] using h

theorem SeatsTied.shutOut (h : SeatsTied s) {k : Nat} {e : Entry} (found : s.entry k = some e)
    (out : e.state.isOut = true) : SeatsTied (s.shutOut k) := by
  refine h.leave found (fun j apart => State.shutOut_apart s apart) (fun e' after => ?_) fun i => ?_
  · rw [State.entry_shutOut, if_pos rfl, found] at after
    cases after
    exact ⟨rfl, rfl⟩
  · rw [State.seat_shutOut found]
    by_cases own : e.seat = some i
    · obtain ⟨x, sits, -⟩ := h.seat_of found own
      have state : e.state = .allocated := by
        rcases EntryState.isOut_cases out with at_ | at_
        · rw [at_] at sits; cases sits
        · exact at_
      rw [if_pos ⟨own, state⟩, if_pos own]; rfl
    · rw [if_neg fun x => own x.1, if_neg own]

variable {c : Nat}

theorem SeatsTied.countChannel (rises : mapRises 0 s.roster = true) (h : SeatsTied s) : SeatsTied (s.countChannel c) :=
  State.countChannel_rule rises c h fun _ k _ tied _ _ _ => tied.countEntry k

theorem SeatsTied.startWriters (rises : mapRises 0 s.roster = true) (h : SeatsTied s) : SeatsTied (s.startWriters c) :=
  foldl_slots rises c _ (fun _ k j apart => by rw [State.entry_startWriter, if_neg apart.symm]) h
    fun _ _ _ tied found _ seated => tied.startWriter found (by simpa using seated)

theorem SeatsTied.recomputeAll (h : SeatsTied s) (w : Nat) : SeatsTied (s.recomputeAll c w) :=
  foldl_invariant SeatsTied _ (fun _ k tied => tied.recompute w k) _ s h

theorem SeatsTied.closeAdmission (rises : mapRises 0 s.roster = true) (h : SeatsTied s) : SeatsTied (s.closeAdmission c) := by
  have start : SeatsTied (s.onChan c fun ch => { ch with closed := true }) := h.of_moves (Moves.onChan s c _)
  have fold : SeatsTied ((s.slotsIn c EntryState.isOut).foldl State.shutOut (s.onChan c fun ch => { ch with closed := true })) :=
    foldl_slots (s := s.onChan c fun ch => { ch with closed := true }) rises c EntryState.isOut
      (fun t k j apart => State.shutOut_apart t apart) start fun _ _ _ tied found _ out => tied.shutOut found out
  exact fold.of_moves (Moves.notify _ _)

theorem SeatsTied.closeOnce (rises : mapRises 0 s.roster = true) (h : SeatsTied s) : SeatsTied (s.closeOnce c) := by
  unfold State.closeOnce
  split
  · exact h
  · exact h.closeAdmission rises

theorem SeatsTied.dropAmendment (h : SeatsTied s) : SeatsTied (s.dropAmendment c) := h.of_moves (.dropAmendment s c)

theorem SeatsTied.endBase (rises : mapRises 0 s.roster = true) (h : SeatsTied s) : SeatsTied (s.endBase c) := by
  have dropped := (h.closeOnce (c := c) rises).dropAmendment (c := c)
  unfold State.endBase
  dsimp only
  split
  · exact dropped.of_moves (.enterPhase _ _ _)
  · exact dropped.of_moves (.enterCollecting _ _)

theorem SeatsTied.amend (h : SeatsTied s) (v n : Nat) : SeatsTied (s.amend c v n) := by
  have start : SeatsTied (s.onChan c fun ch => { ch with length := amended v n, amendment := none }) :=
    h.of_moves (Moves.onChan s c _)
  exact (start.recomputeAll _).of_moves (Moves.notify _ _)

theorem SeatsTied.applyPending (h : SeatsTied s) : SeatsTied (s.applyPending c) := by
  unfold State.applyPending
  split
  · split
    · exact h.dropAmendment
    · exact h.amend _ _
  · exact h

theorem SeatsTied.startWriting (rises : mapRises 0 s.roster = true) (h : SeatsTied s) : SeatsTied (s.startWriting c) := by
  have start : SeatsTied (s.onChan c fun ch => { ch with state := .writing, writeElapsed := 0 }) :=
    h.of_moves (Moves.onChan s c _)
  have started := start.startWriters (c := c) (by exact rises)
  exact started.applyPending.of_moves (Moves.notify _ _)

theorem SeatsTied.startChannel (rises : mapRises 0 s.roster = true) (h : SeatsTied s) : SeatsTied (s.startChannel c) := by
  unfold State.startChannel
  split
  · exact ((h.of_moves (Moves.onChan s c _)).of_moves (Moves.enterPhase _ c _)).of_moves (.markEntries _ c _)
  · exact h.startWriting rises

theorem SeatsTied.writingSecond (canonical : s.canonical = true) (h : SeatsTied s) : SeatsTied (s.writingSecond c) := by
  have amended : SeatsTied (s.amended43 c) := by
    have start : SeatsTied (s.onChan c fun ch => { ch with writeElapsed := ch.writeElapsed + 1 }) :=
      h.of_moves (Moves.onChan s c _)
    unfold State.amended43 State.secondAmendment
    split
    · exact start.applyPending
    · exact start
  have m : Moves [.channels, .roster, .seats, .flags, .notices] s (s.amended43 c) := (Moves.amended43 s c).widen
  have counted := amended.countChannel (c := c) (State.rises_next m canonical)
  have n := m.next (Moves.countChannel _ c)
  have closed : SeatsTied (((s.amended43 c).countChannel c).secondClose c) := by
    unfold State.secondClose
    split
    · exact counted.closeOnce (State.rises_next n canonical)
    · exact counted
  rw [State.writingSecond_eq]
  unfold State.secondBase
  split
  · exact closed.endBase (State.rises_next (n.next (Moves.secondClose _ c)) canonical)
  · exact closed

theorem SeatsTied.readingSecond (canonical : s.canonical = true) (h : SeatsTied s) : SeatsTied (s.readingSecond c) := by
  have m : Moves [.channels] s ((s.onChan c fun ch => { ch with readElapsed := ch.readElapsed + 1 }).readingMarks c) :=
    (Moves.onChan s c _).next (Moves.readingMarks _ c)
  have marked := h.of_moves m
  unfold State.readingSecond
  dsimp only
  split
  · exact marked.startWriting (State.rises_next m canonical)
  · exact marked

theorem SeatsTied.tickChannel (canonical : s.canonical = true) (h : SeatsTied s) : SeatsTied (s.tickChannel c) := by
  have rises := State.roster_rises canonical
  have held : SeatsTied (s.heldSecond c) := h.of_moves (.heldSecond s c)
  unfold State.tickChannel
  split
  · split
    · exact h.of_moves (Moves.timedAttempt s c)
    · exact h
  · split
    · exact h.startChannel rises
    · exact h
  · split
    · exact held
    · exact h.readingSecond canonical
  · split
    · exact held
    · exact h.writingSecond canonical
  · split
    · exact held
    · exact h.writingSecond canonical
  · exact h

theorem SeatsTied.passTick (canonical : s.canonical = true) (h : SeatsTied s) (c : Nat) : SeatsTied (s.passTick c) := by
  have given : SeatsTied (s.giveTick (some c)) := h.of_moves (.giveTick s _)
  exact (given.tickChannel ((Moves.giveTick s _).canonical canonical)).of_moves (.giveTick _ _)

end Sys2Proof.Machine
end

section
/-! PROOF. A channel's own turn of a second tick: what stands before it, and what lasts after it. -/

namespace Sys2Proof.Machine

set_option Elab.async false

variable {s : State} {c : Nat}

/-- The state at turn `n` of a second tick taken in `u`, seats and entries tied: the entries of the channels from `n` on
have not changed, but for holds that have run out. -/
structure Round (u : State) (n : Nat) (t : State) : Prop extends Turn u n t where
  tied : SeatsTied t
  waits : ∀ x, n ≤ x → Waited x u t

theorem Round.start {u : State} (canonical : u.canonical = true) (tied : SeatsTied u) :
    Round u 0 (u.onTime TimeBase.second) :=
  { Turn.start canonical with tied := tied.of_moves (.onTime u _), waits := fun x _ => .refl x u }

theorem Round.seats {u t : State} {n : Nat} (h : Round u n t) : Round u n t.tickSeats :=
  { h.toTurn.seats with tied := h.tied.tickSeats.1, waits := fun x later => (h.waits x later).trans (h.tied.tickSeats.2 x) }

theorem Round.signals {u t : State} {n : Nat} (h : Round u n t) : Round u n t.tickSignals :=
  have m := Moves.tickSignals t
  { h.toTurn.signals with
    tied := h.tied.of_moves m
    waits := fun x later => (h.waits x later).trans (.of_roster (m.frame.2 .roster (by decide))) }

theorem Confined.waited {d : Nat} {t : State} (h : Confined d s t) (other : d ≠ c) : Waited c s t := fun _ _ found own =>
  .inl (h.other found (by rw [own]; exact other.symm))

theorem Round.pass {u t : State} {n : Nat} (h : Round u n t) : Round u (n + 1) (t.passTick n) :=
  { h.toTurn.pass with
    tied := h.tied.passTick h.canonical n
    waits := fun x later => (h.waits x (by omega)).trans ((Confined.passTick h.canonical).waited (by omega)) }

/-- What the rest of a second tick, after channel `c` has taken its own turn, leaves of what belongs to the channel. -/
structure Kept (c : Nat) (s t : State) : Prop where
  chan : t.chan c = s.chan c
  waits : Waited c s t
  ids : SameIds s t
  raised : ∀ x, x ∈ s.office.flags → x ∈ t.office.flags
  before : s.canonical = true
  after : t.canonical = true

theorem Kept.of_moves {t : State} {l : List Part} (m : Moves l s t) (canonical : s.canonical = true)
    (h1 : Part.roster ∉ l := by decide) (h2 : Part.channels ∉ l := by decide) : Kept c s t where
  chan := m.frame.chan c h2
  waits := .of_roster (m.frame.2 .roster h1)
  ids := .of_roster (m.frame.2 .roster h1)
  raised := m.raised
  before := canonical
  after := m.canonical canonical

theorem Kept.settle (canonical : s.canonical = true) : Kept c s s.settle where
  chan := (Moves.settle s).frame.chan c
  waits := .of_roster ((Moves.settle s).frame.2 .roster (by decide))
  ids := .of_roster ((Moves.settle s).frame.2 .roster (by decide))
  raised := (Moves.settle s).raised
  before := canonical
  after := (Moves.settle s).canonical canonical

theorem Kept.tickSeats (canonical : s.canonical = true) (tied : SeatsTied s) : Kept c s s.tickSeats where
  chan := (Moves.tickSeats s).frame.chan c
  waits := tied.tickSeats.2 c
  ids := .tickSeats s
  raised := (Moves.tickSeats s).raised
  before := canonical
  after := (Moves.tickSeats s).canonical canonical

theorem Kept.passTick {d : Nat} (canonical : s.canonical = true) (other : d ≠ c) : Kept c s (s.passTick d) where
  chan := State.chan_passTick_other canonical other
  waits := (Confined.passTick canonical).waited other
  ids := (Confined.passTick canonical).ids
  raised := (Moves.passTick s d).raised
  before := canonical
  after := (Moves.passTick s d).canonical canonical

/-- A second tick establishes for channel `c` what its own turn establishes and the rest of the tick does not undo. -/
theorem State.secondTick_own {P : State → Prop} {u : State} (hc : c < 16) (canonical : u.canonical = true)
    (tied : SeatsTied u) (o : TickOrder) (own : ∀ t, Round u c t → P (t.passTick c))
    (kept : ∀ t v, P t → Kept c t v → P v) : P (u.secondTick o).settle := by
  have h := State.secondTick_rule (fun n t => Round u n t ∧ (c < n → P t)) (s := u) o
    ⟨.start canonical tied, fun h => absurd h (by omega)⟩ ?_ ?_ ?_
  · obtain ⟨round, done⟩ := h
    generalize u.secondTick o = t at round done ⊢
    exact kept t _ (done hc) (.settle round.canonical)
  · rintro t n - ⟨round, done⟩
    exact ⟨round.seats, fun past => kept t _ (done past) (.tickSeats round.canonical round.tied)⟩
  · rintro t n - ⟨round, done⟩
    exact ⟨round.signals, fun past => kept t _ (done past) (.of_moves (.tickSignals t) round.canonical)⟩
  · rintro t n - ⟨round, done⟩
    refine ⟨round.pass, fun past => ?_⟩
    by_cases here : n = c
    · subst here; exact own t round
    · exact kept t _ (done (by omega)) (.passTick round.canonical here)

/-- A command that brings a second tick establishes for channel `c` what its own turn establishes and the rest of the tick
does not undo. -/
theorem exec_own {P : State → State → Prop} {i : Instr} (brings : s.secondBy i) (canonical : s.canonical = true)
    (agree : s.seatsAgree = true) (hc : c ≤ 15)
    (own : ∀ u t, Readied s u → Round u c t → P u (t.passTick c))
    (kept : ∀ u t v, P u t → Kept c t v → P u v) : ∃ u t, Readied s u ∧ exec i s = .next t ∧ P u t := by
  obtain ⟨u, o, ready, run⟩ := exec_second brings
  have tied : SeatsTied u := (SeatsTied.of_agree agree).same (fun k => by rw [ready.entry]) fun i => by rw [ready.seat]
  exact ⟨u, _, ready, run, State.secondTick_own (by omega) (ready.canonical canonical) tied o
    (fun t => own u t ready) (kept u)⟩

/-! ## The own turn, by what it is -/

/-- What stands of channel `c` when its own turn comes. -/
theorem Round.ticking {u t : State} (h : Round u c t) : Ticking u c t := ⟨h.time, h.later c (Nat.le_refl c), h.canonical⟩

theorem Ticking.given {u t : State} (h : Ticking u c t) : Ticking u c (t.giveTick (some c)) := h.move (.giveTick t _)

theorem Ticking.startDue {u t : State} (h : Ticking u c t) (starts : u.startsSecond c = true) :
    (t.giveTick (some c)).startDue c = true := by
  simp only [State.startsSecond, Bool.and_eq_true, decide_eq_true_eq] at starts
  simp only [State.startDue, State.giveTick_chan, State.giveTick_time, State.giveTick_ticking, h.chan, h.time,
    TimeBase.second_eq, starts.1, decide_true, Bool.and_self, Bool.true_and]
  exact starts.2

theorem Ticking.starts {u t : State} (h : Ticking u c t) (starts : u.startsSecond c = true) :
    t.passTick c = ((t.giveTick (some c)).startChannel c).giveTick none := by
  have due := h.startDue starts
  have opened : ((t.giveTick (some c)).chan c).state = .opened := by
    simp only [State.startDue, Bool.and_eq_true, decide_eq_true_eq] at due
    exact due.1.2
  rw [State.passTick, State.tickChannel, opened]
  dsimp only
  rw [if_pos due]

theorem Ticking.reads {u t : State} (h : Ticking u c t) (reads : u.readsSecond c = true) :
    t.passTick c = ((t.giveTick (some c)).readingSecond c).giveTick none := by
  rw [State.passTick, State.tickChannel_reads (by rw [h.given.readsSecond]; exact reads)]

theorem Ticking.writes {u t : State} (h : Ticking u c t) (writes : u.writesSecond c = true) :
    t.passTick c = ((t.giveTick (some c)).writingSecond c).giveTick none := by
  rw [State.passTick, State.tickChannel_writes (by rw [h.given.writesSecond]; exact writes)]

end Sys2Proof.Machine
end

section
/-! PROOF. Starts (O11) and amendments (O12), by their rows and at a channel's own turn of a second tick. -/

namespace Sys2Proof.Machine

set_option Elab.async false

variable {s : State} {c : Nat}

/-! ## The entries that a start and an amendment change -/

/-- What a fold over the slots of a channel leaves of each entry, when each step changes its own slot's entry by `f`. -/
theorem State.entry_slots {step : State → Nat → State} {f : Entry → Entry} (rises : mapRises 0 s.roster = true) (c : Nat)
    (p : EntryState → Bool)
    (one : ∀ t k j, (step t k).entry j = if k = j then (t.entry j).map f else t.entry j) (k : Nat) :
    ((s.slotsIn c p).foldl step s).entry k =
      (s.entry k).map fun e => if e.channel = c ∧ p e.state = true then f e else e := by
  rw [foldl_entries_while (K := fun _ => True) (fun _ _ _ => trivial) (fun t k j _ => one t k j)
    (State.slotsIn_nodup rises c _) trivial]
  cases found : s.entry k with
  | none => simp
  | some e =>
    simp only [State.mem_slotsIn rises, found, Option.some.injEq, exists_eq_left', Option.map_some]
    exact (apply_ite some _ _ _).symm

/-- An entry at the writing start of its channel (R62). -/
def Entry.started (e : Entry) : Entry := { e with state := .writing, written := 0 }

theorem State.entry_startWriters (rises : mapRises 0 s.roster = true) (c k : Nat) :
    (s.startWriters c).entry k = (s.entry k).map fun e => if e.channel = c ∧ e.state = .seated then e.started else e := by
  rw [State.startWriters, State.entry_slots rises c _ State.entry_startWriter]
  simp only [decide_eq_true_eq]
  rfl

/-- The states of an entry that an amendment of its channel recomputes (R59). -/
def EntryState.isTimed (x : EntryState) : Bool := decide (x = .allocated) || x.isSeated

theorem EntryState.isTimed_iff (x : EntryState) : x.isTimed = true ↔ x ∈ [.allocated, .seated, .writing, .onBreak] := by
  cases x <;> decide

theorem State.recomputed_recomputeAll (rises : mapRises 0 s.roster = true) (c w : Nat) :
    Recomputed s (s.recomputeAll c w) c w := fun k => by
  simp only [← EntryState.isTimed_iff]
  exact State.entry_slots (step := fun t k => t.recompute w k) rises c EntryState.isTimed
    (fun t k j => State.entry_recompute t w k j) k

theorem State.recomputed_amend (rises : mapRises 0 s.roster = true) (c v n : Nat) :
    Recomputed s (s.amend c v n) c (amended v n) := fun k => by
  rw [State.amend, State.entry_notify]
  exact State.recomputed_recomputeAll (s := s.onChan c _) rises c _ k

theorem Recomputed.of_entry {t v : State} {w : Nat} (h : Recomputed s t c w) (same : ∀ k, v.entry k = t.entry k) :
    Recomputed s v c w := fun k => (same k).trans (h k)

/-- The entry of an amended channel: its allowed seconds recomputed when the amendment is in time. -/
def Channel.retimed (c : Channel) (e : Entry) : Entry :=
  if c.amendment.isSome ∧ tooLate c.writeElapsed = false ∧ e.state.isTimed = true
  then { e with allowed := allowedSeconds c.applied.length e.percent } else e

theorem State.entry_applyPending (rises : mapRises 0 s.roster = true) (c k : Nat) :
    (s.applyPending c).entry k = (s.entry k).map fun e => if e.channel = c then (s.chan c).retimed e else e := by
  unfold State.applyPending Channel.retimed Channel.applied
  cases pending : (s.chan c).amendment with
  | none => simp
  | some a =>
    dsimp only
    by_cases late : tooLate (s.chan c).writeElapsed = true
    · rw [if_pos late, (Moves.dropAmendment s c).frame.entry]
      simp [late]
    · rw [if_neg late, State.recomputed_amend rises]
      congr 1
      funext e
      simp only [Bool.not_eq_true] at late
      simp only [Option.isSome_some, late, true_and, ← EntryState.isTimed_iff, Bool.false_eq_true, if_false]
      by_cases own : e.channel = c
      · simp only [own, true_and, if_true]
      · simp only [own, false_and, if_false]

theorem Channel.retimed_keeps (c : Channel) (e : Entry) : (c.retimed e).state = e.state ∧ (c.retimed e).seat = e.seat ∧
    (c.retimed e).written = e.written ∧ (c.retimed e).channel = e.channel ∧ (c.retimed e).remaining = e.remaining := by
  unfold Channel.retimed; split <;> exact ⟨rfl, rfl, rfl, rfl, rfl⟩

/-! ## The writing start -/

theorem WritingStarted.startWriting (canonical : s.canonical = true) (c : Nat) :
    WritingStarted s (s.startWriting c) c := by
  obtain ⟨state, elapsed, -⟩ := Channel.begun_fields (s.chan c)
  refine ⟨by rw [State.chan_startWriting, if_pos rfl, state], by rw [State.chan_startWriting, if_pos rfl, elapsed],
    fun k e found own seated => ?_⟩
  set v := s.onChan c fun ch => { ch with state := .writing, writeElapsed := 0 } with hv
  have writers : (v.startWriters c).entry k = some e.started := by
    rw [State.entry_startWriters (s := v) (show mapRises 0 v.roster = true by exact State.roster_rises (s := s) canonical), hv, State.entry_onChan, found, Option.map_some,
      if_pos ⟨own, seated⟩]
  have rises : mapRises 0 (v.startWriters c).roster = true :=
    State.rises_next (Moves.startWriters v c) ((Moves.onChan s c _).canonical canonical)
  have entry : (s.startWriting c).entry k = some (((v.startWriters c).chan c).retimed e.started) := by
    rw [State.startWriting, State.entry_notify, State.entry_applyPending rises, writers, Option.map_some,
      if_pos (show e.started.channel = c from own)]
  obtain ⟨kept, seat, written, -⟩ := Channel.retimed_keeps ((v.startWriters c).chan c) e.started
  exact ⟨_, entry, kept, written, seat⟩

theorem WritingStarted.move {t v : State} (h : WritingStarted s t c) (chan : v.chan c = t.chan c)
    (entry : ∀ k e, t.entry k = some e → e.channel = c → e.state = .writing → v.entry k = some e)
    (ids : SameIds s t) : WritingStarted s v c := by
  obtain ⟨state, elapsed, writers⟩ := h
  refine ⟨by rw [chan]; exact state, by rw [chan]; exact elapsed, fun k e found own seated => ?_⟩
  obtain ⟨e', after, written⟩ := writers k e found own seated
  have channel := ids k
  rw [found, after] at channel
  simp only [Option.map_some, Option.some.injEq, Prod.mk.injEq] at channel
  exact ⟨e', entry k e' after (channel.2.trans own) written.1, written⟩

theorem Started.congr {t v : State} (h : Started s t c) (chan : v.chan c = t.chan c) (roster : v.roster = t.roster) :
    Started s v c := by
  have entry : ∀ k, v.entry k = t.entry k := fun k => by rw [State.entry, State.entry, roster]
  unfold Started WritingStarted at *
  simp only [chan, roster, entry]
  exact h

theorem Started.startChannel (canonical : s.canonical = true) (c : Nat) : Started s (s.startChannel c) c := by
  unfold Started State.startChannel
  by_cases reads : 0 < (s.chan c).config.reading
  · rw [if_pos reads, if_pos reads]
    have m := Moves.markEntries ((s.onChan c fun ch => { ch with readElapsed := 0 }).enterPhase c .reading) c fun st =>
      decide (st = .seated)
    have chan := m.frame.chan c
    rw [State.chan_enterPhase, if_pos rfl] at chan
    refine ⟨by rw [chan], by rw [chan, State.chan_onChan, if_pos rfl], ?_⟩
    exact (m.frame.2 .roster (by decide)).trans (State.roster_enterPhase _ _ _)
  · rw [if_neg reads, if_neg reads]
    exact .startWriting canonical c

theorem State.flag_startWriting (s : State) (c : Nat) : Category.channelPhase ∈ (s.startWriting c).office.flags :=
  State.flag_notify _ (.channelPhase c .writing s.time.hallTime)

theorem State.flag_startChannel (s : State) (c : Nat) : Category.channelPhase ∈ (s.startChannel c).office.flags := by
  unfold State.startChannel
  split
  · exact (Moves.markEntries _ c _).raised _ (State.flag_enterPhase _ c _)
  · exact State.flag_startWriting s c

/-! ## Starts by their rows and by command -/

theorem exec_timedStart (c : Nat) (s : State) : exec (.timedStart c) s =
    .next (if s.startDue c then (s.startChannel c).giveTick none else s).settle := rfl

theorem exec_writingStart (c : Nat) (s : State) : exec (.writingStart c) s =
    .next (if s.readingOver c then s.startWriting c else s).settle := rfl

theorem Served.roster {k : List Part} {u t : State} {tag kind : Byte} {code : Code} {out : List Byte}
    (h : Served k s u t tag kind code out) : t.roster = u.roster := by
  rw [h.eq]
  exact (Moves.settle _).frame.2 .roster (by decide)

theorem channelStart_starts (tag : Byte) (canonical : s.canonical = true) (opened : (s.chan c).state = .opened)
    (hc : c ≤ 15) (takes : s.takesRequest) :
    ∃ t, exec (.channelStart tag c) s = .next t ∧ Answered s t tag 0x03#8 .ok [] ∧ Started s t c ∧
      Unchanged [.channels, .roster, .flags, .notices, .responses, .framesIn] s t := by
  have answer : s.countFrame.channelStart c = (s.countFrame.startChannel c).done := by
    unfold State.channelStart
    rw [if_neg (by omega), if_neg (show ¬(s.countFrame.chan c).state ≠ .opened from fun h => h opened)]
    rfl
  obtain ⟨t, run, served⟩ := State.served (k := [.channels, .roster, .flags, .notices]) (i := .channelStart tag c) rfl takes
    answer (.startChannel s.countFrame c)
  have started : Started s.countFrame (s.countFrame.startChannel c) c := .startChannel (by exact canonical) c
  exact ⟨t, run, served.answered, started.congr (served.chan c) served.roster, served.unchanged.weaken (by decide)⟩

theorem timedStart_starts (canonical : s.canonical = true) (due : s.startDue c = true) :
    ∃ t, exec (.timedStart c) s = .next t ∧ Started s t c ∧ Unchanged [.channels, .roster, .flags, .notices] s t := by
  have m := ((Moves.startChannel s c).next (.giveTick _ none)).next (.settle _)
  refine ⟨_, by rw [exec_timedStart, if_pos due], (Started.startChannel canonical c).congr ?_ ?_, m.frame⟩
  · exact (Moves.settle _).frame.chan c
  · exact (Moves.settle _).frame.2 .roster (by decide)

theorem writingStart_starts (canonical : s.canonical = true) (state : (s.chan c).state = .reading)
    (past : (s.chan c).config.reading ≤ (s.chan c).readElapsed) :
    ∃ t, exec (.writingStart c) s = .next t ∧ WritingStarted s t c ∧
      (∀ k e, s.entry k = some e → e.channel ≠ c → t.entry k = some e) ∧
      Category.channelPhase ∈ t.office.flags ∧ Unchanged [.channels, .roster, .flags, .notices] s t := by
  have due : s.readingOver c = true := by simp [State.readingOver, state, past]
  have m := Moves.settle (s.startWriting c)
  have entry := fun k => m.frame.entry k (by decide)
  have confined := Confined.startWriting (c := c) canonical
  refine ⟨_, by rw [exec_writingStart, if_pos due], (WritingStarted.startWriting canonical c).move (m.frame.chan c)
    (fun k e found _ _ => (entry k).trans found) confined.ids, fun k e found apart => (entry k).trans (confined.other found apart),
    m.raised _ (State.flag_startWriting s c), ((Moves.startWriting s c).next m).frame⟩

/-! ## Starts at the own turn of a second tick -/

/-- A candidate SEATED before the tick is so when the turn of its channel comes. -/
theorem Waited.stands {t : State} (h : Waited c s t) {k : Nat} {e : Entry} (found : s.entry k = some e)
    (own : e.channel = c) (state : e.state ≠ .allocated) : t.entry k = some e := by
  rcases h k e found own with same | ⟨was, -⟩
  · exact same
  · exact absurd was state

theorem WritingStarted.kept {u t v : State} (h : WritingStarted u t c) (ids : SameIds u t) (kept : Kept c t v) :
    WritingStarted u v c :=
  h.move kept.chan (fun _ _ found own writing => kept.waits.stands found own (by rw [writing]; nofun)) ids

/-- The writing start at the own turn is one of the state before the tick. -/
theorem WritingStarted.before {u t v : State} (h : WritingStarted t v c) (waits : Waited c u t) : WritingStarted u v c := by
  obtain ⟨state, elapsed, writers⟩ := h
  exact ⟨state, elapsed, fun k e found own seated =>
    writers k e (waits.stands found own (by rw [seated]; nofun)) own seated⟩

theorem Round.ids_pass {u t : State} (h : Round u c t) : SameIds u (t.passTick c) := h.pass.ids

theorem Round.starts_reading {u t : State} (round : Round u c t) (starts : u.startsSecond c = true)
    (reading : 0 < (u.chan c).config.reading) : Category.channelPhase ∈ (t.passTick c).office.flags ∧
      ((t.passTick c).chan c).state = .reading ∧ ((t.passTick c).chan c).readElapsed = 0 ∧
      ∀ k e, u.entry k = some e → e.channel = c → e.state = .seated → (t.passTick c).entry k = some e := by
  have ticking := round.ticking
  rw [ticking.starts starts]
  have started := Started.startChannel ticking.given.canonical c
  unfold Started at started
  rw [if_pos (by rw [ticking.given.chan]; exact reading)] at started
  obtain ⟨state, elapsed, roster⟩ := started
  refine ⟨State.flag_startChannel _ c, state, elapsed, fun k e found own seated => ?_⟩
  exact (congrArg (fun r => mapGet r k) roster).trans
    ((round.waits c (Nat.le_refl c)).stands found own (by rw [seated]; nofun))

/-- The writing start has come at the own turn of channel `c`, with CHANNEL_PHASE. -/
def WritingBegun (c : Nat) (u t : State) : Prop :=
  Category.channelPhase ∈ t.office.flags ∧ WritingStarted u t c ∧ SameIds u t

theorem WritingBegun.kept {u t v : State} (h : WritingBegun c u t) (kept : Kept c t v) : WritingBegun c u v := by
  obtain ⟨told, started, ids⟩ := h
  exact ⟨kept.raised _ told, started.kept ids kept, ids.trans kept.ids⟩

theorem Round.starts_writing {u t : State} (round : Round u c t) (starts : u.startsSecond c = true)
    (reading : ¬0 < (u.chan c).config.reading) : WritingBegun c u (t.passTick c) := by
  have ticking := round.ticking
  have ids := round.ids_pass
  rw [ticking.starts starts] at ids ⊢
  have started := Started.startChannel ticking.given.canonical c
  unfold Started at started
  rw [if_neg (by rw [ticking.given.chan]; exact reading)] at started
  exact ⟨State.flag_startChannel _ c, started.before (round.waits c (Nat.le_refl c)), ids⟩

theorem Round.reads_past {u t : State} (round : Round u c t) (reads : u.readsSecond c = true)
    (past : (u.chan c).config.reading ≤ (u.chan c).readElapsed + 1) : WritingBegun c u (t.passTick c) := by
  have ticking := round.ticking
  have ids := round.ids_pass
  rw [ticking.reads reads] at ids ⊢
  have given := ticking.given
  have waits : Waited c u (t.giveTick (some c)) := (round.waits c (Nat.le_refl c)).trans (.of_roster rfl)
  generalize t.giveTick (some c) = g at given ids waits ⊢
  have m : Moves [.channels] g ((g.onChan c fun ch => { ch with readElapsed := ch.readElapsed + 1 }).readingMarks c) :=
    (Moves.onChan g c _).next (.readingMarks _ c)
  have chan := (Moves.readingMarks (g.onChan c fun ch => { ch with readElapsed := ch.readElapsed + 1 }) c).frame.chan c
  rw [State.chan_onChan, if_pos rfl, given.chan] at chan
  have second : g.readingSecond c =
      ((g.onChan c fun ch => { ch with readElapsed := ch.readElapsed + 1 }).readingMarks c).startWriting c := by
    unfold State.readingSecond
    dsimp only
    rw [if_pos]
    rw [chan]
    exact past
  rw [second] at ids ⊢
  generalize (g.onChan c fun ch => { ch with readElapsed := ch.readElapsed + 1 }).readingMarks c = v at m ids ⊢
  exact ⟨State.flag_startWriting v c, (WritingStarted.startWriting (m.canonical given.canonical) c).before
    (waits.trans (.of_roster (m.frame.2 .roster (by decide)))), ids⟩

theorem Readied.writingStarted {u t : State} (ready : Readied s u) (h : WritingStarted u t c) : WritingStarted s t c := by
  obtain ⟨state, elapsed, writers⟩ := h
  exact ⟨state, elapsed, fun k e found => writers k e (by rw [ready.entry]; exact found)⟩

theorem exec_starts {i : Instr} (brings : s.secondBy i) (canonical : s.canonical = true) (agree : s.seatsAgree = true)
    (hc : c ≤ 15) (starts : s.startsSecond c = true) :
    ∃ t, exec i s = .next t ∧ Category.channelPhase ∈ t.office.flags ∧
      if 0 < (s.chan c).config.reading then
        (t.chan c).state = .reading ∧ (t.chan c).readElapsed = 0 ∧
          ∀ k e, s.entry k = some e → e.channel = c → e.state = .seated → t.entry k = some e
      else WritingStarted s t c := by
  by_cases reading : 0 < (s.chan c).config.reading
  · simp only [if_pos reading]
    obtain ⟨u, t, ready, run, told, state, elapsed, seated⟩ := exec_own (c := c) (P := fun u t =>
      Category.channelPhase ∈ t.office.flags ∧ (t.chan c).state = .reading ∧ (t.chan c).readElapsed = 0 ∧
        ∀ k e, u.entry k = some e → e.channel = c → e.state = .seated → t.entry k = some e) brings canonical agree hc
      (fun u t ready round => round.starts_reading (by rw [ready.startsSecond]; exact starts)
        (by rw [ready.config]; exact reading))
      fun u t v ⟨told, state, elapsed, seated⟩ kept =>
        ⟨kept.raised _ told, by rw [kept.chan]; exact state, by rw [kept.chan]; exact elapsed, fun k e found own at_ =>
          kept.waits.stands (seated k e found own at_) own (by rw [at_]; nofun)⟩
    exact ⟨t, run, told, state, elapsed, fun k e found => seated k e (by rw [ready.entry]; exact found)⟩
  · simp only [if_neg reading]
    obtain ⟨u, t, ready, run, told, started, -⟩ := exec_own (c := c) (P := WritingBegun c) brings canonical agree hc
      (fun u t ready round => round.starts_writing (by rw [ready.startsSecond]; exact starts)
        (by rw [ready.config]; exact reading)) fun _ _ _ h kept => h.kept kept
    exact ⟨t, run, told, ready.writingStarted started⟩

theorem exec_readsPast {i : Instr} (brings : s.secondBy i) (canonical : s.canonical = true) (agree : s.seatsAgree = true)
    (hc : c ≤ 15) (reads : s.readsSecond c = true) (past : (s.chan c).config.reading ≤ (s.chan c).readElapsed + 1) :
    ∃ t, exec i s = .next t ∧ WritingStarted s t c ∧ Category.channelPhase ∈ t.office.flags := by
  obtain ⟨u, t, ready, run, told, started, -⟩ := exec_own (c := c) (P := WritingBegun c) brings canonical agree hc
    (fun u t ready round => round.reads_past (by rw [ready.readsSecond]; exact reads)
      (by rw [ready.config, ready.readElapsed]; exact past)) fun _ _ _ h kept => h.kept kept
  exact ⟨t, run, ready.writingStarted started, told⟩

/-- Settles O11, by the writing start and a channel's own turn of a second tick. -/
theorem startsMoveAChannelToReadingOrWriting : Obligations.StartsMoveAChannelToReadingOrWriting := by
  intro tag c s canonical
  refine ⟨fun opened hc takes => channelStart_starts tag canonical opened hc takes, timedStart_starts canonical,
    fun idle => ?_, writingStart_starts canonical, fun i brings agree hc =>
      ⟨exec_starts brings canonical agree hc, exec_readsPast brings canonical agree hc⟩⟩
  have undue : s.startDue c = false := by simp [State.startDue, idle]
  refine ⟨s.settle, ?_, (Unchanged.refl [] s).settle⟩
  rw [exec_timedStart, if_neg (by simp [undue])]

end Sys2Proof.Machine
end

section
/-! PROOF. Amendments (O12), by command, by row and at a channel's own turn of a second tick. -/

namespace Sys2Proof.Machine

set_option Elab.async false

variable {s : State} {c : Nat}

/-! ## Amendments applied -/

theorem State.flag_applyPending (pending : (s.chan c).amendment.isSome = true) :
    Category.amend ∈ (s.applyPending c).office.flags := by
  obtain ⟨a, found⟩ := Option.isSome_iff_exists.1 pending
  unfold State.applyPending State.dropAmendment
  simp only [found]
  split
  · exact State.flag_notify _ (.amendDropped c a.length)
  · exact State.flag_notify _ (.amendApplied c _ _)

theorem Channel.applied_of {r : Channel} {a : Amendment} (pending : r.amendment = some a) :
    r.applied = { r with
      amendment := none
      length := if 14400 < r.writeElapsed + 60 then r.length else max a.length (r.writeElapsed + 60) } := by
  unfold Channel.applied tooLate amended
  rw [pending]
  dsimp only
  by_cases late : 14400 < r.writeElapsed + 60 <;> simp [late]

theorem State.amendRefusal_wrongPhase (hc : c ≤ 15) (h1 : (s.chan c).state ≠ .reading) (h2 : (s.chan c).state ≠ .writing) :
    s.amendRefusal c = some .wrongPhase := by
  unfold State.amendRefusal
  rw [if_neg (by omega)]
  cases state : (s.chan c).state <;> simp [state] at h1 h2 <;> rfl

theorem State.amendRefusal_none (hc : c ≤ 15) (state : (s.chan c).state = .reading ∨ (s.chan c).state = .writing) :
    s.amendRefusal c = none := by
  unfold State.amendRefusal
  rw [if_neg (by omega)]
  rcases state with at_ | at_ <;> rw [at_]

/-! ## Amendments by command -/

variable {v : Nat} (tag : Byte)

theorem amendNow_wrongPhase (takes : s.takesRequest) (hc : c ≤ 15) (h1 : (s.chan c).state ≠ .reading)
    (h2 : (s.chan c).state ≠ .writing) : Refuses s (.amendNow tag c v) tag 0x03#8 .wrongPhase :=
  State.refused (f := fun t => t.amendNow c v) rfl takes (by
    unfold State.amendNow
    rw [show s.countFrame.amendRefusal c = _ from State.amendRefusal_wrongPhase hc h1 h2])

theorem amendAtMinute_wrongPhase (takes : s.takesRequest) (hc : c ≤ 15) (h1 : (s.chan c).state ≠ .reading)
    (h2 : (s.chan c).state ≠ .writing) : Refuses s (.amendAtMinute tag c v) tag 0x03#8 .wrongPhase :=
  State.refused (f := fun t => t.amendAtMinute c v) rfl takes (by
    unfold State.amendAtMinute
    rw [show s.countFrame.amendRefusal c = _ from State.amendRefusal_wrongPhase hc h1 h2])

theorem amendNow_amends (takes : s.takesRequest) (hc : c ≤ 15)
    (state : (s.chan c).state = .reading ∨ (s.chan c).state = .writing) :
    ∃ t, exec (.amendNow tag c v) s = .next t ∧
      let w := max (max 600 (min 14400 v)) ((s.chan c).writeElapsed + 60)
      if 14400 < (s.chan c).writeElapsed + 60 then
        Answered s t tag 0x03#8 .tooLate [] ∧ Unchanged [.responses, .framesIn] s t
      else
        Answered s t tag 0x03#8 (if w = v then .ok else .clamped) (be 2 w) ∧
          t.chan c = { s.chan c with length := w, amendment := none } ∧ Category.amend ∈ t.office.flags ∧
          (s.canonical = true → Recomputed s t c w) ∧
          Unchanged [.channels, .roster, .flags, .notices, .responses, .framesIn] s t := by
  have refusal : s.countFrame.amendRefusal c = none := State.amendRefusal_none hc state
  by_cases late : 14400 < (s.chan c).writeElapsed + 60
  · simp only [if_pos late]
    have answer : s.countFrame.amendNow c v = s.countFrame.refuse .tooLate := by
      unfold State.amendNow
      rw [refusal]
      dsimp only
      rw [if_pos]
      exact decide_eq_true late
    obtain ⟨t, run, served⟩ := State.served (k := []) (i := .amendNow tag c v) rfl takes answer (.refl s.countFrame)
    exact ⟨t, run, served.answered, served.unchanged⟩
  · simp only [if_neg late]
    have answer : s.countFrame.amendNow c v = ⟨clampCode v (max (max 600 (min 14400 v)) ((s.chan c).writeElapsed + 60)),
        be 2 (max (max 600 (min 14400 v)) ((s.chan c).writeElapsed + 60)),
        s.countFrame.amend c (amendLength v) (s.chan c).writeElapsed⟩ := by
      unfold State.amendNow
      rw [refusal]
      dsimp only
      rw [if_neg]
      · rfl
      · exact fun h => late (of_decide_eq_true h)
    obtain ⟨t, run, served⟩ := State.served (k := [.channels, .roster, .flags, .notices]) (i := .amendNow tag c v) rfl takes
      answer (.amend s.countFrame c _ _)
    refine ⟨t, run, served.answered, ?_, served.raised (State.flag_notify _ (.amendApplied c _ _)), fun canonical => ?_,
      served.unchanged.weaken (by decide)⟩
    · rw [served.chan, State.chan_amend, if_pos rfl]; rfl
    · have done : Recomputed s.countFrame _ c _ :=
        State.recomputed_amend (State.roster_rises (by exact canonical)) c (amendLength v) (s.chan c).writeElapsed
      exact fun k => (served.entry k).trans (done k)

theorem amendAtMinute_waits (takes : s.takesRequest) (hc : c ≤ 15)
    (state : (s.chan c).state = .reading ∨ (s.chan c).state = .writing) :
    ∃ t, exec (.amendAtMinute tag c v) s = .next t ∧
      let w := max 600 (min 14400 v)
      Answered s t tag 0x03#8 (if w = v then .ok else .clamped) [] ∧
        (t.chan c).amendment.map Amendment.length = some w ∧ (t.chan c).length = (s.chan c).length ∧
        (t.chan c).state = (s.chan c).state ∧ Unchanged [.channels, .responses, .framesIn] s t := by
  have refusal : s.countFrame.amendRefusal c = none := State.amendRefusal_none hc state
  have answer : s.countFrame.amendAtMinute c v = ⟨clampCode v (amendLength v), [],
      s.countFrame.onChan c fun ch => { ch with amendment := some ⟨amendLength v, ch.writeElapsed⟩ }⟩ := by
    unfold State.amendAtMinute
    rw [refusal]
  obtain ⟨t, run, served⟩ := State.served (k := [.channels]) (i := .amendAtMinute tag c v) rfl takes answer
    (.onChan s.countFrame c _)
  have chan : t.chan c = { s.chan c with amendment := some ⟨amendLength v, (s.chan c).writeElapsed⟩ } := by
    rw [served.chan, State.chan_onChan, if_pos rfl]; rfl
  exact ⟨t, run, served.answered, by rw [chan]; rfl, by rw [chan], by rw [chan], served.unchanged.weaken (by decide)⟩

/-! ## The pending amendment -/

theorem exec_deferredAmendment (c : Nat) (s : State) : exec (.deferredAmendment c) s =
    .next (if s.amendmentDue c then s.applyPending c else s).settle := rfl

theorem deferredAmendment_applies {a : Amendment} (pending : (s.chan c).amendment = some a)
    (due : s.amendmentDue c = true) :
    ∃ t, exec (.deferredAmendment c) s = .next t ∧
      t.chan c = { s.chan c with
        amendment := none
        length := if 14400 < (s.chan c).writeElapsed + 60 then (s.chan c).length
          else max a.length ((s.chan c).writeElapsed + 60) } ∧
      (if 14400 < (s.chan c).writeElapsed + 60 then t.roster = s.roster
        else s.canonical = true → Recomputed s t c (max a.length ((s.chan c).writeElapsed + 60))) ∧
      Category.amend ∈ t.office.flags ∧ Unchanged [.channels, .roster, .flags, .notices] s t := by
  have m := Moves.settle (s.applyPending c)
  have roster := m.frame.2 .roster (by decide)
  refine ⟨_, by rw [exec_deferredAmendment, if_pos due], ?_, ?_,
    m.raised _ (State.flag_applyPending (by rw [pending]; rfl)), ((Moves.applyPending s c).next m).frame⟩
  · rw [m.frame.chan, State.chan_applyPending, if_pos rfl, Channel.applied_of pending]
  · have applied : s.applyPending c = if 14400 < (s.chan c).writeElapsed + 60 then s.dropAmendment c
        else s.amend c a.length (s.chan c).writeElapsed := by
      unfold State.applyPending tooLate
      rw [pending]
      by_cases late : 14400 < (s.chan c).writeElapsed + 60 <;> simp [late]
    by_cases late : 14400 < (s.chan c).writeElapsed + 60
    · rw [if_pos late] at applied ⊢
      rw [applied] at roster ⊢
      exact Eq.trans roster ((Moves.dropAmendment s c).frame.2 .roster (by decide))
    · rw [if_neg late] at applied ⊢
      rw [applied] at m ⊢
      exact fun canonical => (State.recomputed_amend (State.roster_rises canonical) c a.length _).of_entry fun k =>
        m.frame.entry k

/-! ## The amendment of a writing second -/

theorem State.amendment_writingSecond (canonical : s.canonical = true) (running : (s.chan c).state ≠ .collecting)
    (gone : (s.chan c).secondOn.amendment = none) : ((s.writingSecond c).chan c).amendment = none := by
  have m : Moves [.channels, .roster, .seats, .flags, .notices] s ((s.amended43 c).countChannel c) :=
    (Moves.amended43 s c).widen.next (.countChannel _ c)
  have counted : (((s.amended43 c).countChannel c).chan c).amendment = none := by
    have chan := State.chan_counted43 canonical c running
    dsimp only at chan
    rw [chan]
    split
    · exact gone
    · exact gone
  have closed : ((((s.amended43 c).countChannel c).secondClose c).chan c).amendment = none := by
    unfold State.secondClose
    split
    · rw [State.chan_closeOnce, if_pos rfl]; exact counted
    · exact counted
  rw [State.writingSecond_eq]
  unfold State.secondBase
  split
  · rw [State.chan_endBase ((m.next (Moves.secondClose _ c)).canonical canonical), if_pos rfl, Channel.ended44]
    dsimp only
    split <;> rfl
  · exact closed

theorem State.flag_writingSecond (minute : ((s.chan c).writeElapsed + 1) % 60 = 0)
    (pending : (s.chan c).amendment.isSome = true) : Category.amend ∈ (s.writingSecond c).office.flags := by
  have chan : (s.onChan c fun ch => { ch with writeElapsed := ch.writeElapsed + 1 }).chan c =
      { s.chan c with writeElapsed := (s.chan c).writeElapsed + 1 } := by rw [State.chan_onChan, if_pos rfl]
  have amended : Category.amend ∈ (s.amended43 c).office.flags := by
    unfold State.amended43 State.secondAmendment
    rw [if_pos (by rw [chan]; exact minute)]
    exact State.flag_applyPending (by rw [chan]; exact pending)
  have m : Moves [.channels, .roster, .seats, .flags, .notices] (s.amended43 c) (s.writingSecond c) := by
    rw [State.writingSecond_eq]
    exact ((Moves.countChannel _ c).next (Moves.secondClose _ c)).next (.ite (fun _ => .endBase _ c) fun _ => .refl _)
  exact m.raised _ amended

theorem Round.writes_amended {u t : State} (round : Round u c t) (writes : u.writesSecond c = true)
    (minute : ((u.chan c).writeElapsed + 1) % 60 = 0) (pending : (u.chan c).amendment.isSome = true) :
    ((t.passTick c).chan c).amendment = none ∧ Category.amend ∈ (t.passTick c).office.flags ∧
      ((t.passTick c).chan c).length = u.nextLength c := by
  have ticking := round.ticking
  have given := ticking.given
  rw [ticking.writes writes]
  have state := (State.writesSecond_iff.1 writes).1
  generalize t.giveTick (some c) = g at given ⊢
  have running : (g.chan c).state ≠ .collecting := by
    rw [given.chan]; rcases state with at_ | at_ <;> rw [at_] <;> nofun
  have gone : (g.chan c).secondOn.amendment = none := by
    rw [given.chan, Channel.secondOn]
    dsimp only
    rw [if_pos minute]
    exact (Channel.applied_fields _).2.2.2.2.2.2.2
  have length := congrArg Channel.length (State.lasting_writingSecond given.canonical c running)
  rw [given.chan] at length
  have cleared := State.amendment_writingSecond given.canonical running gone
  have told := State.flag_writingSecond (s := g) (c := c) (by rw [given.chan]; exact minute) (by rw [given.chan]; exact pending)
  generalize g.writingSecond c = w at length cleared told ⊢
  exact ⟨cleared, told, Eq.trans length (State.length_secondOn u c)⟩

theorem exec_amends {i : Instr} {a : Amendment} (pending : (s.chan c).amendment = some a) (brings : s.secondBy i)
    (canonical : s.canonical = true) (agree : s.seatsAgree = true) (hc : c ≤ 15) (writes : s.writesSecond c = true)
    (minute : ((s.chan c).writeElapsed + 1) % 60 = 0) :
    ∃ t, exec i s = .next t ∧ (t.chan c).amendment = none ∧ Category.amend ∈ t.office.flags ∧
      (t.chan c).length = if 14400 < (s.chan c).writeElapsed + 61 then (s.chan c).length
        else max a.length ((s.chan c).writeElapsed + 61) := by
  obtain ⟨u, t, ready, run, gone, told, length⟩ := exec_own (c := c) (P := fun u t =>
    (t.chan c).amendment = none ∧ Category.amend ∈ t.office.flags ∧ (t.chan c).length = u.nextLength c) brings canonical agree hc
    (fun u t ready round => round.writes_amended (by rw [ready.writesSecond]; exact writes)
      (by rw [ready.writeElapsed]; exact minute) (by rw [ready.amendment, pending]; rfl))
    fun u t v ⟨gone, told, length⟩ kept => ⟨by rw [kept.chan]; exact gone, kept.raised _ told, by rw [kept.chan]; exact length⟩
  refine ⟨t, run, gone, told, length.trans ?_⟩
  rw [ready.nextLength]
  unfold State.nextLength State.amendsSecond
  by_cases late : 14400 < (s.chan c).writeElapsed + 61
  · have past : ¬(s.chan c).writeElapsed + 61 ≤ 14400 := by omega
    rw [if_pos late]
    simp [pending, past, -Nat.reduceLeDiff]
  · have inTime : (s.chan c).writeElapsed + 61 ≤ 14400 := by omega
    rw [if_neg late]
    simp [pending, inTime, minute]

/-- Settles O12, by the commands, the row and the channel's own turn. -/
theorem amendmentsSetTheWritingLength : Obligations.AmendmentsSetTheWritingLength := by
  intro tag c v s
  exact ⟨fun takes hc h1 h2 => ⟨amendNow_wrongPhase tag takes hc h1 h2, amendAtMinute_wrongPhase tag takes hc h1 h2⟩,
    fun takes hc state => ⟨amendNow_amends tag takes hc state, amendAtMinute_waits tag takes hc state⟩,
    fun a pending => ⟨deferredAmendment_applies pending, fun _ => exec_amends pending⟩⟩

end Sys2Proof.Machine
end

section
/-! PROOF. The close of admission (O13) and base end (O14), by their rows and at a channel's own turn of a second tick. -/

namespace Sys2Proof.Machine

set_option Elab.async false

variable {s : State} {c : Nat}

/-! ## What the tests of a channel read -/

/-- Holds that run out after the own turn change neither test of a channel's entries. -/
theorem Kept.tests {t : State} (h : Kept c s t) : t.hasWriter c = s.hasWriter c ∧ t.reconciles c = s.reconciles c := by
  have rises := State.roster_rises h.before
  have rises' := State.roster_rises h.after
  constructor
  · rw [Bool.eq_iff_iff, State.hasWriter_iff rises', State.hasWriter_iff rises]
    constructor
    · rintro ⟨k, e', found', own, writes⟩
      obtain ⟨e, found, -, channel⟩ := h.ids.back found'
      rcases h.waits k e found (channel.trans own) with same | ⟨-, gone⟩
      · cases found'.symm.trans same; exact ⟨k, e', found, own, writes⟩
      · cases found'.symm.trans gone; cases writes
    · rintro ⟨k, e, found, own, writes⟩
      exact ⟨k, e, h.waits.stands found own (fun at_ => by rw [at_] at writes; cases writes), own, writes⟩
  · rw [Bool.eq_iff_iff, State.reconciles_iff rises', State.reconciles_iff rises]
    constructor
    · intro all k e found own
      rcases h.waits k e found own with same | ⟨-, gone⟩
      · exact all k e same own
      · rcases all k _ gone own with at_ | at_ <;> cases at_
    · intro all k e' found' own
      obtain ⟨e, found, -, channel⟩ := h.ids.back found'
      have stands := h.waits.stands found (channel.trans own) (fun at_ => by
        rcases all k e found (channel.trans own) with x | x <;> rw [at_] at x <;> cases x)
      cases found'.symm.trans stands
      exact all k e' found own

/-! ## The close of admission -/

/-- An entry of a candidate who has not come by the close of admission (R43). -/
def Entry.shutOut (e : Entry) : Entry := { e with state := .absent, seat := none }

theorem State.closeOnce_of_open (shut : (s.chan c).closed = false) : s.closeOnce c = s.closeAdmission c := by
  rw [State.closeOnce, if_neg (by rw [shut]; nofun)]

theorem State.flag_closeAdmission (s : State) (c : Nat) : Category.channelPhase ∈ (s.closeAdmission c).office.flags :=
  State.flag_notify _ (.admissionClosed c _)

theorem State.closed_closeOnce (s : State) (c : Nat) : ((s.closeOnce c).chan c).closed = true := by
  rw [State.chan_closeOnce, if_pos rfl]

theorem exec_admissionClose (c : Nat) (s : State) : exec (.admissionClose c) s =
    .next (if s.closeDue c then s.closeOnce c else s).settle := rfl

theorem admissionClose_closes (canonical : s.canonical = true) (due : s.closeDue c = true)
    (shut : (s.chan c).closed = false) :
    ∃ t, exec (.admissionClose c) s = .next t ∧ t.chan c = { s.chan c with closed := true } ∧
      (∀ k e, s.entry k = some e → e.channel = c → e.state = .expected ∨ e.state = .allocated →
        t.entry k = some { e with state := .absent, seat := none }) ∧
      (∀ k e, s.entry k = some e → ¬(e.channel = c ∧ (e.state = .expected ∨ e.state = .allocated)) →
        t.entry k = some e) ∧
      Category.channelPhase ∈ t.office.flags ∧ Unchanged [.channels, .roster, .seats, .flags, .notices] s t := by
  have m := Moves.settle (s.closeAdmission c)
  have out : ∀ x : EntryState, x.isOut = true ↔ x = .expected ∨ x = .allocated := fun x => by simp [EntryState.isOut]
  have entry : ∀ k e, s.entry k = some e → (s.closeAdmission c).settle.entry k =
      some (if e.channel = c ∧ e.state.isOut = true then { e with state := .absent, seat := none } else e) := fun k e found => by
    rw [m.frame.entry, State.entry_closeAdmission (State.roster_rises canonical), found]; rfl
  refine ⟨_, by rw [exec_admissionClose, if_pos due, State.closeOnce_of_open shut], ?_, fun k e found own at_ => ?_,
    fun k e found apart => ?_, m.raised _ (State.flag_closeAdmission s c), ((Moves.closeAdmission s c).next m).frame⟩
  · rw [m.frame.chan, State.chan_closeAdmission, if_pos rfl]
  · rw [entry k e found, if_pos ⟨own, (out _).2 at_⟩]
  · rw [entry k e found, if_neg fun h => apart ⟨h.1, (out _).1 h.2⟩]

/-! ## The writing second, after its amendment and its count -/

/-- The state after steps 1 to 3 of a writing second (R43). -/
def State.counted43 (s : State) (c : Nat) : State := (s.amended43 c).countChannel c

theorem State.writingSecond_eq' (s : State) (c : Nat) : s.writingSecond c = ((s.counted43 c).secondClose c).secondBase c :=
  State.writingSecond_eq s c

theorem Moves.counted43 (s : State) (c : Nat) :
    Moves [.channels, .roster, .seats, .flags, .notices] s (s.counted43 c) :=
  (Moves.amended43 s c).widen.next (.countChannel _ c)

/-- The step of the amendment, for one entry. -/
def Channel.retimedSecond (r : Channel) (e : Entry) : Entry :=
  let d : Channel := { r with writeElapsed := r.writeElapsed + 1 }
  if d.writeElapsed % 60 = 0 then d.retimed e else e

theorem State.entry_amended43 (rises : mapRises 0 s.roster = true) (c k : Nat) : (s.amended43 c).entry k =
    (s.entry k).map fun e => if e.channel = c then (s.chan c).retimedSecond e else e := by
  have chan : (s.onChan c fun ch => { ch with writeElapsed := ch.writeElapsed + 1 }).chan c =
      { s.chan c with writeElapsed := (s.chan c).writeElapsed + 1 } := by rw [State.chan_onChan, if_pos rfl]
  unfold State.amended43 State.secondAmendment Channel.retimedSecond
  dsimp only
  rw [chan]
  dsimp only
  split
  · rw [State.entry_applyPending (s := s.onChan c _) rises, chan, State.entry_onChan]
  · rw [State.entry_onChan]; simp

theorem State.counts_amended43 (s : State) (c : Nat) : (s.amended43 c).counts = s.counts := by
  have m := (Moves.amended43 s c).frame
  exact funext fun e => State.counts_congr m.time (And.left (a := (s.amended43 c).booklets = s.booklets) (m.2 .booklets (by decide))) e

theorem Channel.retimedSecond_keeps (r : Channel) (e : Entry) : (r.retimedSecond e).state = e.state ∧
    (r.retimedSecond e).seat = e.seat ∧ (r.retimedSecond e).channel = e.channel := by
  obtain ⟨state, seat, -, channel, -⟩ := Channel.retimed_keeps { r with writeElapsed := r.writeElapsed + 1 } e
  unfold Channel.retimedSecond
  dsimp only
  split
  · exact ⟨state, seat, channel⟩
  · exact ⟨rfl, rfl, rfl⟩

/-- What a writing second leaves of an entry of its channel before admission is closed at it (R43, steps 2 and 3). -/
theorem State.entry_counted43 (canonical : s.canonical = true) (c k : Nat) : (s.counted43 c).entry k =
    (s.entry k).map fun e => if e.channel = c then s.counts ((s.chan c).retimedSecond e) else e := by
  rw [State.counted43, State.entry_countChannel (State.rises_next (Moves.amended43 s c) canonical),
    State.entry_amended43 (State.roster_rises canonical), State.counts_amended43, Option.map_map]
  congr 1
  funext e
  dsimp only [Function.comp]
  by_cases own : e.channel = c
  · simp only [if_pos own, if_pos ((Channel.retimedSecond_keeps (s.chan c) e).2.2.trans own)]
  · simp only [if_neg own]

theorem State.counts_idle (s : State) {e : Entry} (idle : e.state.isWriting = false) : s.counts e = e := by
  rw [State.counts, if_neg (by rw [idle]; nofun)]

/-- A candidate who has not come stands so when admission closes at a writing second. -/
theorem State.entry_counted43_out (canonical : s.canonical = true) {k : Nat} {e : Entry} (found : s.entry k = some e)
    (own : e.channel = c) (out : e.state.isOut = true) :
    ∃ e', (s.counted43 c).entry k = some e' ∧ e'.channel = c ∧ e'.state.isOut = true := by
  obtain ⟨state, -, channel⟩ := Channel.retimedSecond_keeps (s.chan c) e
  have idle : (s.counts ((s.chan c).retimedSecond e)) = (s.chan c).retimedSecond e := s.counts_idle (by
    rw [state]; rcases EntryState.isOut_cases out with at_ | at_ <;> rw [at_] <;> rfl)
  exact ⟨_, by rw [State.entry_counted43 canonical, found, Option.map_some, if_pos own, idle], channel.trans own, by rw [state]; exact out⟩

/-- Steps 4 and 5 of a writing second read of the channel what the count has left. -/
theorem State.chan_counted43_fields (canonical : s.canonical = true) (running : (s.chan c).state ≠ .collecting) :
    ((s.counted43 c).chan c).closed = (s.chan c).closed ∧ ((s.counted43 c).chan c).config = (s.chan c).config ∧
      ((s.counted43 c).chan c).writeElapsed = (s.chan c).writeElapsed + 1 ∧
      ((s.counted43 c).chan c).length = s.nextLength c := by
  have chan : (s.counted43 c).chan c = _ := State.chan_counted43 canonical c running
  obtain ⟨-, -, elapsed, config, closed, -⟩ := Channel.secondOn_fields (s.chan c)
  have length := State.length_secondOn s c
  rw [chan]
  split
  · exact ⟨closed, config, elapsed, length⟩
  · exact ⟨closed, config, elapsed, length⟩

/-- In WRITING the count leaves the channel as the amendment did. -/
theorem State.chan_counted43_writing (canonical : s.canonical = true) (writing : (s.chan c).state = .writing) :
    (s.counted43 c).chan c = (s.chan c).secondOn := by
  have chan : (s.counted43 c).chan c = _ := State.chan_counted43 canonical c (by rw [writing]; nofun)
  rw [chan, if_neg]
  rw [writing]
  nofun

/-! ## The close of admission at a writing second -/

/-- Admission of channel `c` has closed, its missing candidates of `s` ABSENT. -/
structure Shut (c : Nat) (s t : State) : Prop where
  closed : (t.chan c).closed = true
  told : Category.channelPhase ∈ t.office.flags
  absent : ∀ k e, s.entry k = some e → e.channel = c → e.state.isOut = true →
    ∃ e', t.entry k = some e' ∧ e'.channel = c ∧ e'.state = .absent ∧ e'.seat = none

theorem Shut.closeAdmission (rises : mapRises 0 s.roster = true) (c : Nat) : Shut c s (s.closeAdmission c) where
  closed := by rw [State.chan_closeAdmission, if_pos rfl]
  told := State.flag_closeAdmission s c
  absent := fun k e found own out =>
    ⟨{ e with state := .absent, seat := none }, by
      rw [State.entry_closeAdmission rises, found, Option.map_some, if_pos ⟨own, out⟩], own, rfl, rfl⟩

theorem Shut.move {t v : State} (h : Shut c s t) (chan : (v.chan c).closed = true)
    (raised : ∀ x, x ∈ t.office.flags → x ∈ v.office.flags)
    (entry : ∀ k e, t.entry k = some e → e.channel = c → e.state = .absent → v.entry k = some e) : Shut c s v where
  closed := chan
  told := raised _ h.told
  absent := fun k e found own out => by
    obtain ⟨e', after, channel, state, seat⟩ := h.absent k e found own out
    exact ⟨e', entry k e' after channel state, channel, state, seat⟩

theorem Shut.kept {t v : State} (h : Shut c s t) (kept : Kept c t v) : Shut c s v :=
  h.move (by rw [kept.chan]; exact h.closed) kept.raised fun _ _ found own absent =>
    kept.waits.stands found own (by rw [absent]; nofun)

theorem State.entry_endBase (s : State) (c k : Nat) : (s.endBase c).entry k = (s.closeOnce c).entry k := by
  rw [State.entry, State.entry, State.roster_endBase]

/-- Base end closes admission. -/
theorem Shut.endBase (canonical : s.canonical = true) (shut : (s.chan c).closed = false) : Shut c s (s.endBase c) where
  closed := by
    rw [State.chan_endBase canonical, if_pos rfl, Channel.ended44]
    dsimp only
    split <;> rfl
  told := State.flag_endBase s c
  absent := fun k e found own out => by
    rw [State.entry_endBase, State.closeOnce_of_open shut]
    exact (Shut.closeAdmission (State.roster_rises canonical) c).absent k e found own out

/-- Base end leaves an admission that has closed as it is. -/
theorem Shut.endBase_after {t : State} (h : Shut c s t) (canonical : t.canonical = true) : Shut c s (t.endBase c) := by
  refine h.move ?_ (Moves.endBase t c).raised fun k e found _ _ => ?_
  · rw [State.chan_endBase canonical, if_pos rfl, Channel.ended44]
    dsimp only
    split <;> rfl
  · rw [State.entry_endBase, State.closeOnce, if_pos h.closed]; exact found

theorem Shut.writingSecond (canonical : s.canonical = true) (running : (s.chan c).state ≠ .collecting)
    (shut : (s.chan c).closed = false)
    (due : (s.chan c).config.late < (s.chan c).writeElapsed + 1 ∨
      (s.chan c).state = .writing ∧ s.nextLength c ≤ (s.chan c).writeElapsed + 1) : Shut c s (s.writingSecond c) := by
  obtain ⟨closed, config, elapsed, length⟩ := State.chan_counted43_fields canonical running
  have form := (Moves.counted43 s c).canonical canonical
  have before := fun k e found own out => State.entry_counted43_out (c := c) canonical (k := k) (e := e) found own out
  have writing := State.chan_counted43_writing (c := c) canonical
  have out : ∀ t, Shut c (s.counted43 c) t → Shut c s t := fun t h => ⟨h.closed, h.told, fun k e found own out => by
    obtain ⟨e', after, own', out'⟩ := before k e found own out
    exact h.absent k e' after own' out'⟩
  rw [State.writingSecond_eq']
  generalize s.counted43 c = v at closed config elapsed length form writing out ⊢
  refine out _ ?_
  have shut' : (v.chan c).closed = false := closed.trans shut
  unfold State.secondClose State.secondBase
  by_cases late : (v.chan c).config.late < (v.chan c).writeElapsed
  · rw [if_pos late, State.closeOnce_of_open shut']
    have done := Shut.closeAdmission (State.roster_rises form) c
    split
    · exact done.endBase_after ((Moves.closeAdmission v c).canonical form)
    · exact done
  · rw [if_neg late]
    obtain ⟨at_, ends⟩ := due.resolve_left (by rw [← config, ← elapsed]; exact late)
    rw [if_pos ⟨by rw [writing at_, (Channel.secondOn_fields _).1]; exact at_, by rw [length, elapsed]; exact ends⟩]
    exact .endBase form shut'

theorem Round.closes {u t : State} (round : Round u c t) (closes : u.closesSecond c = true) : Shut c u (t.passTick c) := by
  simp only [State.closesSecond, State.endsSecond, Bool.and_eq_true, Bool.or_eq_true, decide_eq_true_eq,
    Bool.not_eq_true'] at closes
  obtain ⟨⟨writes, shut⟩, due⟩ := closes
  have ticking := round.ticking
  have given := ticking.given
  have waits : Waited c u (t.giveTick (some c)) := (round.waits c (Nat.le_refl c)).trans (.of_roster rfl)
  have state := (State.writesSecond_iff.1 writes).1
  rw [ticking.writes writes]
  generalize t.giveTick (some c) = g at given waits ⊢
  have length : g.nextLength c = u.nextLength c := by
    rw [State.nextLength, State.nextLength, State.amendsSecond, State.amendsSecond, given.chan]
  have done : Shut c g (g.writingSecond c) := .writingSecond given.canonical
    (by rw [given.chan]; rcases state with at_ | at_ <;> rw [at_] <;> nofun) (by rw [given.chan]; exact shut) (by
      rw [given.chan, length]
      exact due.imp id fun x => ⟨x.1.2, x.2⟩)
  generalize g.writingSecond c = w at done ⊢
  refine ⟨done.closed, done.told, fun k e found own out => ?_⟩
  rcases waits k e found own with same | ⟨-, gone⟩
  · exact done.absent k e same own out
  · exact done.absent k _ gone own rfl

theorem exec_closes {i : Instr} (brings : s.secondBy i) (canonical : s.canonical = true) (agree : s.seatsAgree = true)
    (hc : c ≤ 15) (closes : s.closesSecond c = true) :
    ∃ t, exec i s = .next t ∧ (t.chan c).closed = true ∧ Category.channelPhase ∈ t.office.flags ∧
      ∀ k e, s.entry k = some e → e.channel = c → e.state = .expected ∨ e.state = .allocated →
        ∃ e', t.entry k = some e' ∧ e'.state = .absent ∧ e'.seat = none := by
  obtain ⟨u, t, ready, run, shut⟩ := exec_own (c := c) (P := Shut c) brings canonical agree hc
    (fun u t ready round => round.closes (by rw [ready.closesSecond]; exact closes)) fun _ _ _ h kept => h.kept kept
  refine ⟨t, run, shut.closed, shut.told, fun k e found own out => ?_⟩
  obtain ⟨e', after, -, state, seat⟩ := shut.absent k e ((ready.entry k).trans found) own (by simpa [EntryState.isOut] using out)
  exact ⟨e', after, state, seat⟩

/-- Settles O13, by the row and the channel's own turn. -/
theorem admissionCloseMakesTheMissingAbsent : Obligations.AdmissionCloseMakesTheMissingAbsent :=
  fun _ _ canonical => ⟨admissionClose_closes canonical, fun _ brings agree hc => exec_closes brings canonical agree hc⟩

/-! ## Base end -/

theorem exec_baseEnd (c : Nat) (s : State) : exec (.baseEnd c) s = .next (s.secondBase c).settle := rfl

theorem Channel.ended44_fields (r : Channel) (writer reconciles : Bool) :
    (r.ended44 writer reconciles).closed = true ∧ (r.ended44 writer reconciles).amendment = none ∧
      (r.ended44 writer reconciles).state =
        (if writer then .overtime else if reconciles then .reconciled else .collecting) ∧
      (r.ended44 writer reconciles).hold = (writer && r.hold) := by
  unfold Channel.ended44 Channel.collect
  cases writer <;> exact ⟨rfl, rfl, rfl, rfl⟩

theorem baseEnd_ends (canonical : s.canonical = true) (writing : (s.chan c).state = .writing)
    (ends : (s.chan c).length ≤ (s.chan c).writeElapsed) :
    ∃ t, exec (.baseEnd c) s = .next t ∧ (t.chan c).closed = true ∧ (t.chan c).amendment = none ∧
      (t.chan c).state = (if s.hasWriter c then .overtime else if t.reconciles c then .reconciled else .collecting) ∧
      (t.chan c).hold = (s.hasWriter c && (s.chan c).hold) ∧ (∀ d, d ≠ c → t.chan d = s.chan d) ∧
      Category.channelPhase ∈ t.office.flags ∧ Unchanged [.channels, .roster, .seats, .flags, .notices] s t := by
  have m := Moves.settle (s.endBase c)
  have chan := fun d => (m.frame.chan d (by decide)).trans (State.chan_endBase canonical c d)
  have reconciles := State.reconciles_congr (s := s.endBase c) (m.frame.2 .roster (by decide)) c
  obtain ⟨closed, amendment, state, hold⟩ := Channel.ended44_fields (s.chan c) (s.hasWriter c) ((s.endBase c).reconciles c)
  have own := (chan c).trans (if_pos rfl)
  refine ⟨_, by rw [exec_baseEnd, State.secondBase, if_pos ⟨writing, ends⟩], by rw [own, closed], by rw [own, amendment],
    by rw [own, state, reconciles], by rw [own, hold], fun d apart => (chan d).trans (if_neg (Ne.symm apart)),
    m.raised _ (State.flag_endBase s c), ((Moves.endBase s c).next m).frame⟩

/-- Channel `c` has left WRITING or OVERTIME as its entries call for, its hold flag clear. -/
structure Ended (c : Nat) (t : State) : Prop where
  state : (t.chan c).state = if t.hasWriter c then .overtime else if t.reconciles c then .reconciled else .collecting
  hold : (t.chan c).hold = false

theorem Ended.kept {t v : State} (h : Ended c t) (kept : Kept c t v) : Ended c v where
  state := by rw [kept.chan, kept.tests.1, kept.tests.2]; exact h.state
  hold := by rw [kept.chan]; exact h.hold

theorem State.hasWriter_endBase (canonical : s.canonical = true) (c : Nat) : (s.endBase c).hasWriter c = s.hasWriter c := by
  rw [State.hasWriter_congr (State.roster_endBase s c), State.hasWriter_closeOnce canonical]

theorem Ended.endBase (canonical : s.canonical = true) (free : (s.chan c).hold = false) : Ended c (s.endBase c) := by
  obtain ⟨-, -, state, hold⟩ := Channel.ended44_fields (s.chan c) (s.hasWriter c) ((s.endBase c).reconciles c)
  exact ⟨by rw [State.chan_endBase canonical, if_pos rfl, state, State.hasWriter_endBase canonical],
    by rw [State.chan_endBase canonical, if_pos rfl, hold, free, Bool.and_false]⟩

theorem State.chan_secondClose (s : State) (c : Nat) :
    ∃ x, (s.secondClose c).chan c = { s.chan c with closed := x } := by
  unfold State.secondClose
  split
  · exact ⟨true, by rw [State.chan_closeOnce, if_pos rfl]⟩
  · exact ⟨(s.chan c).closed, rfl⟩

/-- A writing second that reaches W ends with base end. -/
theorem State.writingSecond_ends (canonical : s.canonical = true) (writing : (s.chan c).state = .writing)
    (ends : s.nextLength c ≤ (s.chan c).writeElapsed + 1) :
    ∃ v : State, s.writingSecond c = v.endBase c ∧ v.canonical = true ∧ (v.chan c).hold = (s.chan c).hold := by
  obtain ⟨-, -, elapsed, length⟩ := State.chan_counted43_fields canonical (by rw [writing]; nofun)
  have counted := State.chan_counted43_writing canonical writing
  obtain ⟨state, hold, -⟩ := Channel.secondOn_fields (s.chan c)
  have form := (Moves.counted43 s c).canonical canonical
  obtain ⟨x, closed⟩ := State.chan_secondClose (s.counted43 c) c
  refine ⟨(s.counted43 c).secondClose c, ?_, (Moves.secondClose _ c).canonical form, by rw [closed, counted]; exact hold⟩
  rw [State.writingSecond_eq', State.secondBase, if_pos]
  rw [closed]
  exact ⟨by rw [counted]; exact state.trans writing, by dsimp only; rw [length, elapsed]; exact ends⟩

/-- Base end has come at the own turn of channel `c`. -/
structure BaseEnded (c : Nat) (t : State) : Prop extends Ended c t where
  closed : (t.chan c).closed = true
  amendment : (t.chan c).amendment = none
  told : Category.channelPhase ∈ t.office.flags

theorem BaseEnded.kept {t v : State} (h : BaseEnded c t) (kept : Kept c t v) : BaseEnded c v where
  toEnded := h.toEnded.kept kept
  closed := by rw [kept.chan]; exact h.closed
  amendment := by rw [kept.chan]; exact h.amendment
  told := kept.raised _ h.told

theorem BaseEnded.endBase (canonical : s.canonical = true) (free : (s.chan c).hold = false) : BaseEnded c (s.endBase c) := by
  obtain ⟨closed, amendment, -⟩ := Channel.ended44_fields (s.chan c) (s.hasWriter c) ((s.endBase c).reconciles c)
  exact ⟨.endBase canonical free, by rw [State.chan_endBase canonical, if_pos rfl, closed],
    by rw [State.chan_endBase canonical, if_pos rfl, amendment], State.flag_endBase s c⟩

theorem Round.ends {u t : State} (round : Round u c t) (ends : u.endsSecond c = true) : BaseEnded c (t.passTick c) := by
  simp only [State.endsSecond, Bool.and_eq_true, decide_eq_true_eq] at ends
  obtain ⟨⟨writes, writing⟩, past⟩ := ends
  have ticking := round.ticking
  have given := ticking.given
  have free := (State.writesSecond_iff.1 writes).2
  rw [ticking.writes writes]
  generalize t.giveTick (some c) = g at given ⊢
  have length : g.nextLength c = u.nextLength c := by
    rw [State.nextLength, State.nextLength, State.amendsSecond, State.amendsSecond, given.chan]
  obtain ⟨v, eq, form, hold⟩ := State.writingSecond_ends given.canonical (by rw [given.chan]; exact writing)
    (by rw [length, given.chan]; exact past)
  have done : BaseEnded c (g.writingSecond c) := by
    rw [eq]
    refine .endBase form (by rw [hold, given.chan]; exact (Bool.or_eq_false_iff.1 free).2)
  generalize g.writingSecond c = w at done ⊢
  exact ⟨⟨done.state, done.hold⟩, done.closed, done.amendment, done.told⟩

/-- Settles O14, by the row and the channel's own turn. -/
theorem baseEndLeavesWriting : Obligations.BaseEndLeavesWriting := by
  intro c s canonical
  refine ⟨baseEnd_ends canonical, fun i brings agree hc ends => ?_⟩
  obtain ⟨u, t, ready, run, done⟩ := exec_own (c := c) (P := fun _ => BaseEnded c) brings canonical agree hc
    (fun u t ready round => round.ends (by rw [ready.endsSecond]; exact ends)) fun _ _ _ h kept => h.kept kept
  exact ⟨t, run, done.closed, done.amendment, done.state, done.hold, done.told⟩

end Sys2Proof.Machine
end

section
/-! PROOF. Overtime at a second tick (O19): it ends with the last writer of the channel. -/

namespace Sys2Proof.Machine

set_option Elab.async false

variable {s : State} {c : Nat}

/-! ## The last writer -/

theorem State.flag_countEntry (canonical : s.canonical = true) {k : Nat} {e : Entry} (found : s.entry k = some e)
    (writes : e.state.isWriting = true) (overtime : (s.chan e.channel).state = .overtime)
    (last : (s.countEntry k).hasWriter e.channel = false) : Category.channelPhase ∈ (s.countEntry k).office.flags := by
  have put : (s.putEntry k e.count).entry k = some e.count := by simp
  have after : mapRises 0 (s.countEntry k).roster = true := State.rises_next (Moves.countEntry s k) canonical
  have channel := Entry.count_channel e
  have entry := State.entry_countEntry s k k
  rw [if_pos rfl, found, Option.map_some, State.counts, if_pos writes] at entry
  have stays : ∀ x, (s.countEntry k).entry k = some x → x.channel = e.channel → x.state.isWriting = true → False :=
    fun x there own writing => by
      rw [(State.hasWriter_iff after e.channel).2 ⟨k, x, there, own, writing⟩] at last; cases last
  obtain ⟨state, -⟩ := Entry.count_keeps e
  by_cases pause : e.state = .onBreak ∧ 0 < e.remaining
  · rw [if_pos pause] at entry
    exact (stays _ entry channel (by dsimp only; rw [state]; exact writes)).elim
  · rw [if_neg pause] at entry
    by_cases past : e.allowed ≤ e.count.written
    · have eq : s.countEntry k = (s.putEntry k e.count).depart k .timeUp := by
        unfold State.countEntry
        rw [found]
        dsimp only
        rw [if_pos writes, if_neg pause, if_pos past]
      have office := State.office_depart put .timeUp (by rw [channel, State.chan_putEntry]; exact .inr overtime)
      rw [← eq, if_pos] at office
      · exact office
      · exact ⟨by rw [channel, State.chan_putEntry]; exact overtime, by rw [channel]; exact last⟩
    · rw [if_neg past] at entry
      exact (stays _ entry channel (by rw [state]; exact writes)).elim

theorem State.flag_countChannel (canonical : s.canonical = true) (overtime : (s.chan c).state = .overtime)
    (writer : s.hasWriter c = true) (last : (s.countChannel c).hasWriter c = false) :
    Category.channelPhase ∈ (s.countChannel c).office.flags := by
  have run : (s.countChannel c).canonical = true ∧
      ((s.countChannel c).hasWriter c = true → ((s.countChannel c).chan c).state = .overtime) ∧
      ((s.countChannel c).hasWriter c = false → Category.channelPhase ∈ (s.countChannel c).office.flags) := by
    refine State.countChannel_rule (P := fun t : State => t.canonical = true ∧
      (t.hasWriter c = true → (t.chan c).state = .overtime) ∧
      (t.hasWriter c = false → Category.channelPhase ∈ t.office.flags)) (State.roster_rises canonical) c ?_ ?_
    · exact ⟨canonical, fun _ => overtime, fun none => by rw [writer] at none; cases none⟩
    · rintro t k e ⟨form, running, -⟩ found own writes
      have state := running ((State.hasWriter_iff (State.roster_rises form) c).2 ⟨k, e, found, own, writes⟩)
      have counted := State.chan_countEntry form found writes (by rw [own, state]; nofun)
      rw [own] at counted
      refine ⟨(Moves.countEntry t k).canonical form, fun some => ?_, fun none => ?_⟩
      · rw [counted, if_neg]
        · exact state
        · rintro ⟨-, none⟩
          rw [some] at none; cases none
      · exact State.flag_countEntry form found writes (by rw [own]; exact state) (by rw [own]; exact none)
  exact run.2.2 last

/-! ## The tests of a channel, when its entries stand -/

theorem State.tests_congr {t : State} (rises : mapRises 0 s.roster = true) (rises' : mapRises 0 t.roster = true)
    (same : ∀ k, t.entry k = s.entry k) (c : Nat) : t.hasWriter c = s.hasWriter c ∧ t.reconciles c = s.reconciles c := by
  constructor
  · rw [Bool.eq_iff_iff, State.hasWriter_iff rises', State.hasWriter_iff rises]
    simp only [same]
  · rw [Bool.eq_iff_iff, State.reconciles_iff rises', State.reconciles_iff rises]
    simp only [same]

/-- With no candidate of it to be shut out, the closing of a channel's admission changes no entry. -/
theorem State.entry_closeOnce_same (rises : mapRises 0 s.roster = true)
    (here : ∀ k e, s.entry k = some e → e.channel = c → e.state.isOut = false) (k : Nat) :
    (s.closeOnce c).entry k = s.entry k := by
  unfold State.closeOnce
  split
  · rfl
  · rw [State.entry_closeAdmission rises]
    cases found : s.entry k with
    | none => rfl
    | some e =>
      rw [Option.map_some, if_neg]
      rintro ⟨own, out⟩
      rw [here k e found own] at out; cases out

theorem State.hasWriter_amended43 (canonical : s.canonical = true) (c : Nat) :
    (s.amended43 c).hasWriter c = s.hasWriter c := by
  have entry := State.entry_amended43 (State.roster_rises canonical) c
  rw [Bool.eq_iff_iff, State.hasWriter_iff (State.rises_next (Moves.amended43 s c) canonical),
    State.hasWriter_iff (State.roster_rises canonical)]
  constructor
  · rintro ⟨k, e', found', own, writes⟩
    rw [entry] at found'
    obtain ⟨e, found, rfl⟩ := Option.map_eq_some_iff.1 found'
    by_cases channel : e.channel = c
    · rw [if_pos channel] at writes
      exact ⟨k, e, found, channel, by rw [(Channel.retimedSecond_keeps _ e).1] at writes; exact writes⟩
    · rw [if_neg channel] at own; exact absurd own channel
  · rintro ⟨k, e, found, own, writes⟩
    obtain ⟨state, -, channel⟩ := Channel.retimedSecond_keeps (s.chan c) e
    exact ⟨k, _, by rw [entry, found, Option.map_some, if_pos own], channel.trans own, by rw [state]; exact writes⟩

/-! ## The writing second of a channel in OVERTIME -/

/-- Channel `c` has left OVERTIME with its last writer, if that one has left, with CHANNEL_PHASE. -/
structure OvertimeTaken (c : Nat) (t : State) : Prop extends Ended c t where
  told : t.hasWriter c = false → Category.channelPhase ∈ t.office.flags

theorem OvertimeTaken.kept {t v : State} (h : OvertimeTaken c t) (kept : Kept c t v) : OvertimeTaken c v where
  toEnded := h.toEnded.kept kept
  told := fun last => kept.raised _ (h.told (by rw [← kept.tests.1]; exact last))

theorem OvertimeTaken.counted43 (canonical : s.canonical = true) (overtime : (s.chan c).state = .overtime)
    (writer : s.hasWriter c = true) (free : (s.chan c).hold = false) : OvertimeTaken c (s.counted43 c) := by
  have form := (Moves.amended43 s c).canonical canonical
  have chan : (s.counted43 c).chan c = _ := State.chan_counted43 canonical c (by rw [overtime]; nofun)
  have writer' := (State.hasWriter_amended43 canonical c).trans writer
  obtain ⟨state, hold, -⟩ := Channel.secondOn_fields (s.chan c)
  have told := State.flag_countChannel (c := c) form (by rw [State.chan_amended43, state]; exact overtime) writer'
  rw [overtime, writer'] at chan
  have eq : (s.amended43 c).countChannel c = s.counted43 c := rfl
  rw [eq] at chan told
  generalize s.counted43 c = v at chan told ⊢
  cases last : v.hasWriter c with
  | true =>
    rw [if_neg (by rw [last]; simp)] at chan
    exact ⟨⟨by rw [chan, last]; exact state.trans overtime, by rw [chan]; exact hold.trans free⟩, fun none => by
      rw [last] at none; cases none⟩
  | false =>
    rw [if_pos ⟨rfl, rfl, last⟩] at chan
    exact ⟨⟨by rw [chan, last]; rfl, by rw [chan]; rfl⟩, told⟩

theorem OvertimeTaken.secondClose {t : State} (h : OvertimeTaken c t) (canonical : t.canonical = true)
    (here : ∀ k e, t.entry k = some e → e.channel = c → e.state.isOut = false) : OvertimeTaken c (t.secondClose c) := by
  unfold State.secondClose
  split
  · have rises := State.roster_rises canonical
    obtain ⟨writer, reconciles⟩ := State.tests_congr rises (State.rises_next (Moves.closeOnce t c) canonical)
      (State.entry_closeOnce_same rises here) c
    have chan := State.chan_closeOnce t c c
    rw [if_pos rfl] at chan
    exact ⟨⟨by rw [chan, writer, reconciles]; exact h.state, by rw [chan]; exact h.hold⟩, fun last =>
      (Moves.closeOnce t c).raised _ (h.told (by rw [← writer]; exact last))⟩
  · exact h

theorem OvertimeTaken.secondBase {t : State} (h : OvertimeTaken c t) : OvertimeTaken c (t.secondBase c) := by
  rw [State.secondBase, if_neg]
  · exact h
  · rintro ⟨writing, -⟩
    rw [h.state] at writing
    split at writing
    · cases writing
    · split at writing <;> cases writing

/-- An entry that a second leaves to be shut out was to be so before. -/
theorem State.isOut_counted43 (canonical : s.canonical = true)
    (here : ∀ k e, s.entry k = some e → e.channel = c → e.state.isOut = false) (k : Nat) (e' : Entry)
    (found' : (s.counted43 c).entry k = some e') (own : e'.channel = c) : e'.state.isOut = false := by
  rw [State.entry_counted43 canonical] at found'
  obtain ⟨e, found, rfl⟩ := Option.map_eq_some_iff.1 found'
  obtain ⟨state, -, channel⟩ := Channel.retimedSecond_keeps (s.chan c) e
  by_cases mine : e.channel = c
  · have stays : ((s.chan c).retimedSecond e).state.isOut = false := by rw [state]; exact here k e found mine
    rw [if_pos mine]
    generalize (s.chan c).retimedSecond e = x at stays
    have gone := State.departed_gone s x.count .timeUp
    unfold State.counts
    split
    · split
      · rw [(Entry.count_keeps x).1]; exact stays
      · split
        · unfold State.departed
          dsimp only
          split <;> rfl
        · rw [(Entry.count_keeps x).1]; exact stays
    · exact stays
  · rw [if_neg mine] at own
    exact absurd own mine

theorem Round.overtime {u t : State} (round : Round u c t) (canonical : u.canonical = true)
    (writes : u.writesSecond c = true) (overtime : (u.chan c).state = .overtime) (writer : u.hasWriter c = true)
    (here : ∀ k e, u.entry k = some e → e.channel = c → e.state.isOut = false) : OvertimeTaken c (t.passTick c) := by
  have ticking := round.ticking
  have given := ticking.given
  have free := (State.writesSecond_iff.1 writes).2
  have waits : Waited c u (t.giveTick (some c)) := (round.waits c (Nat.le_refl c)).trans (.of_roster rfl)
  have ids : SameIds u (t.giveTick (some c)) := round.ids.trans (.of_roster rfl)
  rw [ticking.writes writes]
  generalize t.giveTick (some c) = g at given waits ids ⊢
  have kept : ∀ k e, u.entry k = some e → e.channel = c → g.entry k = some e := fun k e found own =>
    waits.stands found own fun at_ => by
      have out := here k e found own
      rw [at_] at out; cases out
  have here' : ∀ k e, g.entry k = some e → e.channel = c → e.state.isOut = false := fun k e' found' own => by
    obtain ⟨e, found, -, channel⟩ := ids.back found'
    have stands := kept k e found (channel.trans own)
    cases found'.symm.trans stands
    exact here k e' found own
  have writer' : g.hasWriter c = true := by
    obtain ⟨k, e, found, own, writing⟩ := (State.hasWriter_iff (State.roster_rises canonical) c).1 writer
    exact (State.hasWriter_iff (State.roster_rises given.canonical) c).2 ⟨k, e, kept k e found own, own, writing⟩
  have counted := OvertimeTaken.counted43 given.canonical (by rw [given.chan]; exact overtime) writer'
    (by rw [given.chan]; exact (Bool.or_eq_false_iff.1 free).2)
  have done := (counted.secondClose ((Moves.counted43 g c).canonical given.canonical)
    (State.isOut_counted43 given.canonical here')).secondBase
  rw [← State.writingSecond_eq'] at done
  generalize g.writingSecond c = w at done ⊢
  exact ⟨⟨done.state, done.hold⟩, done.told⟩

theorem State.phase_of (lawful : s.rosterLawful = true) {k : Nat} {e : Entry} (found : s.entry k = some e) :
    (s.chan e.channel).allows e.state = true := by
  simp only [State.rosterLawful, State.phasesAgree, Bool.and_eq_true, List.all_eq_true] at lawful
  exact lawful.1.1.1.2.1 (k, e) (mapGet_mem found)

theorem exec_overtime (i : Instr) (c : Nat) (s : State) (brings : s.secondBy i) (canonical : s.canonical = true)
    (lawful : s.rosterLawful = true) (hc : c ≤ 15) (writes : s.writesSecond c = true)
    (overtime : (s.chan c).state = .overtime) (writer : s.hasWriter c = true) :
    ∃ t, exec i s = .next t ∧ (t.chan c).hold = false ∧
      (t.chan c).state = (if t.hasWriter c then .overtime else if t.reconciles c then .reconciled else .collecting) ∧
      (t.hasWriter c = false → Category.channelPhase ∈ t.office.flags) := by
  have agree : s.seatsAgree = true := by
    simp only [State.rosterLawful, Bool.and_eq_true] at lawful
    exact lawful.1.1.1.1
  have here : ∀ k e, s.entry k = some e → e.channel = c → e.state.isOut = false := fun k e found own => by
    have allowed := State.phase_of lawful found
    rw [own, Channel.allows, overtime] at allowed
    have among := of_decide_eq_true allowed
    generalize e.state = x at among ⊢
    revert among
    cases x <;> decide
  obtain ⟨u, t, ready, run, done⟩ := exec_own (c := c) (P := fun _ => OvertimeTaken c) brings canonical agree hc
    (fun u t ready round => round.overtime (ready.canonical canonical) (by rw [ready.writesSecond]; exact writes)
      (by rw [ready.state]; exact overtime) (by rw [State.hasWriter_congr ready.roster]; exact writer)
      fun k e found => here k e (by rw [← ready.entry]; exact found)) fun _ _ _ h kept => h.kept kept
  exact ⟨t, run, done.hold, done.state, done.told⟩

end Sys2Proof.Machine
end

section
/-! PROOF. The events of a good REPLY to a POLL: the part as the event finds it, the notes and marks that answer it, and what
follows at once. -/

namespace Sys2Proof.Machine

set_option Elab.async false

variable {s t u v : State} {l a : Nat}

/-! ## Seats and drop addresses -/

theorem seatLine_index (l : Nat) {a : Nat} (ha : 1 ≤ a) (hb : a ≤ 64) : seatLine (seatIndex l a) = l := by
  unfold seatLine seatIndex; omega

theorem seatAddr_index (l : Nat) {a : Nat} (ha : 1 ≤ a) (hb : a ≤ 64) : seatAddr (seatIndex l a) = a := by
  unfold seatAddr seatIndex; omega

theorem State.noteSeat_index (s : State) (l : Nat) {a : Nat} (ha : 1 ≤ a) (hb : a ≤ 64) (c : NoteContent) :
    s.noteSeat (seatIndex l a) c = s.queueNote l a c := by
  rw [State.noteSeat, seatLine_index l ha hb, seatAddr_index l ha hb]

theorem State.setMark_index (s : State) (l : Nat) {a : Nat} (ha : 1 ≤ a) (hb : a ≤ 64) :
    s.setMark (seatIndex l a) = s.onLine l fun n => n.setMark a := by
  rw [State.setMark, seatLine_index l ha hb, seatAddr_index l ha hb]

/-! ## Marks and notes: what they leave of the lines -/

/-- What marks and notes leave of a line. -/
def Line.bare (n : Line) : Line :=
  { n with
    marks := []
    fifo := []
    stats := { n.stats with notesDropped := 0, wrongSeat := 0 }
    exchange := n.exchange.map Exchange.forget }

/-- From `s` to `t` nothing has been done on the lines but marks set and dropped, and notes queued and counted; and no seat
has come or gone. -/
structure Posted (s t : State) : Prop where
  lines : ∀ m, (t.line m).bare = (s.line m).bare
  sites : ∀ i, (t.seat i).configured = (s.seat i).configured

theorem Posted.refl (s : State) : Posted s s := ⟨fun _ => rfl, fun _ => rfl⟩

theorem Posted.trans (h : Posted s t) (g : Posted t u) : Posted s u :=
  ⟨fun m => (g.lines m).trans (h.lines m), fun i => (g.sites i).trans (h.sites i)⟩

theorem Posted.of_lines (same : t.lines = s.lines)
    (sites : ∀ i, (t.seat i).configured = (s.seat i).configured := by exact fun _ => rfl) : Posted s t :=
  ⟨fun m => by rw [State.line, State.line, same], sites⟩

theorem Posted.onLine (s : State) (m : Nat) {f : Line → Line} (same : ∀ n, (f n).bare = n.bare) :
    Posted s (s.onLine m f) := by
  refine ⟨fun j => ?_, fun _ => rfl⟩
  rw [State.line_onLine]
  split
  · next own => rw [← own, same]
  · rfl

theorem Exchange.forget_markAgain (b : Bool) (a : Nat) (x : Exchange) : (x.markAgain b a).forget = x.forget := by
  obtain ⟨addr, kind⟩ := x
  cases kind <;> try rfl
  unfold Exchange.markAgain
  dsimp only
  split <;> rfl

theorem Line.bare_setMark (n : Line) (a : Nat) : (n.setMark a).bare = n.bare := by
  have again : Exchange.forget ∘ Exchange.markAgain true a = Exchange.forget :=
    funext fun x => Exchange.forget_markAgain true a x
  unfold Line.setMark
  split
  · rfl
  · simp [Line.bare, again]

theorem Line.bare_dropMark (n : Line) (a : Nat) : (n.dropMark a).bare = n.bare := by
  have again : Exchange.forget ∘ Exchange.markAgain false a = Exchange.forget :=
    funext fun x => Exchange.forget_markAgain false a x
  simp [Line.dropMark, Line.bare, again]

theorem Line.bare_queueNote (n : Line) (a : Nat) (c : NoteContent) : (n.queueNote a c).bare = n.bare := by
  unfold Line.queueNote
  split <;> rfl

theorem Posted.setMark (s : State) (i : Nat) : Posted s (s.setMark i) := .onLine s _ fun n => n.bare_setMark _

theorem Posted.dropMark (s : State) (i : Nat) : Posted s (s.dropMark i) := .onLine s _ fun n => n.bare_dropMark _

theorem Posted.queueNote (s : State) (l a : Nat) (c : NoteContent) : Posted s (s.queueNote l a c) :=
  .onLine s _ fun n => n.bare_queueNote a c

theorem Posted.noteSeat (s : State) (i : Nat) (c : NoteContent) : Posted s (s.noteSeat i c) := .queueNote s _ _ c

theorem Posted.noteStation (s : State) (a : Nat) (c : NoteContent) : Posted s (s.noteStation a c) := .queueNote s _ _ c

theorem Posted.markEntry (s : State) (k : Nat) : Posted s (s.markEntry k) := by
  unfold State.markEntry
  split
  · exact .setMark s _
  · exact .refl s

theorem Posted.settleMark (s : State) (i : Nat) : Posted s (s.settleMark i) := by
  unfold State.settleMark
  split
  · exact .refl s
  · exact .dropMark s i

theorem Posted.notify (s : State) (x : Subject) : Posted s (s.notify x) := .of_lines rfl

theorem Posted.onEntry (s : State) (k : Nat) (f : Entry → Entry) : Posted s (s.onEntry k f) :=
  .of_lines (by unfold State.onEntry; split <;> rfl) fun _ => by unfold State.onEntry; split <;> rfl

theorem Posted.enterPhase (s : State) (c : Nat) (x : ChanState) : Posted s (s.enterPhase c x) := .of_lines rfl

section
variable (h : Posted s t)
include h

theorem Posted.state (m : Nat) : (t.line m).state = (s.line m).state := (congrArg Line.state (h.lines m) :)

theorem Posted.addr (m b : Nat) : (t.line m).addr b = (s.line m).addr b :=
  (congrArg (fun n : Line => n.addr b) (h.lines m) :)

theorem Posted.presence (m b : Nat) : t.presence m b = s.presence m b := by rw [State.presence, State.presence, h.addr]

theorem Posted.testWaits (m : Nat) : (t.line m).testWaits = (s.line m).testWaits :=
  (congrArg Line.testWaits (h.lines m) :)

theorem Posted.free {m : Nat} (free : (s.line m).exchange = none) : (t.line m).exchange = none := by
  have same : (t.line m).exchange.map Exchange.forget = (s.line m).exchange.map Exchange.forget :=
    (congrArg Line.exchange (h.lines m) :)
  rw [free] at same
  exact Option.map_eq_none_iff.1 same

theorem Posted.busy {m : Nat} (busy : (s.line m).exchange ≠ none) : (t.line m).exchange ≠ none := by
  have same : (t.line m).exchange.map Exchange.forget = (s.line m).exchange.map Exchange.forget :=
    (congrArg Line.exchange (h.lines m) :)
  intro free
  rw [free] at same
  exact busy (Option.map_eq_none_iff.1 same.symm)

end

/-! ## The part as an event finds it -/

/-- The part as event `v` in the REPLY to a POLL finds it: the line free, the reply counted, the missed-reply count of a
PRESENT address 0 (R99, R100, R121). -/
def State.atEvent (s : State) (l a : Nat) (v : DeskEvent) : State :=
  (s.landed l (.event v)).countMiss l ⟨a, .poll⟩ (.event v)

/-- The part when an event has been handed on, a wiring test that waited started, and all has followed at once. -/
def State.afterEvent (s : State) (l : Nat) : State := (s.onLine l Line.startTest).settle

section
variable (s : State) (l a : Nat) (e : DeskEvent)

theorem State.atEvent_unchanged : Unchanged [.presence] s (s.atEvent l a e) :=
  ((Unchanged.landed s l (.event e)).weaken nofun).trans (.countMiss (.inr (.inl rfl)))

theorem State.atEvent_line (m : Nat) : ((s.atEvent l a e).line m).rest =
    if l = m then { (s.line l).rest with exchange := none, stats := (s.line l).stats.hear (.event e) }
    else (s.line m).rest := by
  rw [State.atEvent, (State.line_countMiss _ l _ _ m).2]
  split
  · next own => rw [← own, State.line_landed]; rfl
  · next apart => rw [State.landed, State.line_onLine, if_neg apart]

theorem State.atEvent_addr (m b : Nat) : ((s.atEvent l a e).line m).addr b =
    if l = m ∧ a = b ∧ s.presence l a = .present then { (s.line m).addr b with missed := 0 } else (s.line m).addr b := by
  have landed : ∀ m, ((s.landed l (.event e)).line m).addr b = (s.line m).addr b := fun m => by
    rw [State.landed, State.line_onLine]
    split
    · next own => rw [own]; rfl
    · rfl
  rw [State.atEvent, (State.line_countMiss _ l _ _ m).1]
  by_cases own : l = m ∧ a = b
  · obtain ⟨rfl, rfl⟩ := own
    rw [if_pos ⟨rfl, rfl⟩, landed]
    have here : ((s.line l).addr a).presence = s.presence l a := rfl
    by_cases present : s.presence l a = .present
    · rw [if_pos ⟨rfl, rfl, present⟩, AddrState.judge, if_pos (here.trans present)]; rfl
    · rw [if_neg fun h => present h.2.2, AddrState.judge, if_neg fun h => present (here.symm.trans h)]
  · rw [if_neg own, if_neg fun h => own ⟨h.1, h.2.1⟩, landed]

theorem State.atEvent_presence (m b : Nat) : (s.atEvent l a e).presence m b = s.presence m b := by
  rw [State.presence, State.atEvent_addr]
  split <;> rfl

theorem State.atEvent_configured (m b : Nat) : (s.atEvent l a e).configured m b = s.configured m b := by
  have frame := s.atEvent_unchanged l a e
  have stations : (s.atEvent l a e).stations = s.stations := frame.2 .stations (by decide)
  rw [State.configured, State.configured, State.station, State.station, frame.seat, stations]

theorem State.atEvent_fields (m : Nat) : ((s.atEvent l a e).line m).state = (s.line m).state ∧
    ((s.atEvent l a e).line m).fifo = (s.line m).fifo ∧ ((s.atEvent l a e).line m).marks = (s.line m).marks ∧
    ((s.atEvent l a e).line m).testWaits = (s.line m).testWaits := by
  have rest := s.atEvent_line l a e m
  generalize (s.atEvent l a e).line m = n at rest ⊢
  split at rest
  · next own =>
    subst own
    exact ⟨(congrArg Line.state rest :), (congrArg Line.fifo rest :), (congrArg Line.marks rest :),
      (congrArg Line.testWaits rest :)⟩
  · exact ⟨(congrArg Line.state rest :), (congrArg Line.fifo rest :), (congrArg Line.marks rest :),
      (congrArg Line.testWaits rest :)⟩

theorem State.atEvent_free : ((s.atEvent l a e).line l).exchange = none := by
  have rest := s.atEvent_line l a e l
  rw [if_pos rfl] at rest
  exact (congrArg Line.exchange rest :)

theorem State.atEvent_stats : ((s.atEvent l a e).line l).stats = (s.line l).stats.hear (.event e) := by
  have rest := s.atEvent_line l a e l
  rw [if_pos rfl] at rest
  exact (congrArg Line.stats rest :)

end

/-- A good REPLY with an event defined for the line hands the event on. -/
theorem exec_hears {l : Fin 7} {bytes : List Byte} {e : DeskEvent} (hears : s.hears l a bytes e)
    (fits : e.definedFor l = true) : exec (.lineReplyReceived l bytes) s =
      .next (((s.atEvent l a e).handOn l a (.event e)).afterEvent l) := by
  obtain ⟨flight, body, reply, event⟩ := hears
  have heard : Exchange.hear l ⟨a, .poll⟩ bytes = .event e := by
    rw [Exchange.hear, reply]
    simp [ExchangeKind.hear, event, fits]
  rw [exec_reply flight rfl bytes, heard]
  rfl

/-! ## What follows at once of presences -/

/-- What an event with nothing but marks and notes on the lines leaves of presences and missed-reply counts. -/
theorem PresencesStand.after {e : DeskEvent} (posted : Posted (s.atEvent l a e) v) :
    PresencesStand s (v.afterEvent l) l a := by
  intro m b
  have kept := (Moves.settle (v.onLine l Line.startTest)).frame.2 .presence (by decide) m b
  have before : ((v.line m).addr b) = _ := (posted.addr m b).trans (s.atEvent_addr l a e m b)
  have waits := (posted.testWaits l).trans (s.atEvent_fields l a e l).2.2.2
  have free := posted.free (s.atEvent_free l a e)
  have started : ((v.onLine l Line.startTest).line m).addr b =
      if m = l ∧ (s.line l).testWaits = true then AddrState.at ((v.line m).addr b).presence else (v.line m).addr b := by
    rw [State.line_onLine]
    by_cases own : l = m
    · subst own
      rw [if_pos rfl, ((v.line l).startTest_spec b).2.2.2.2.2, waits, free]
      simp
    · rw [if_neg own, if_neg fun h => own h.1.symm]
  obtain ⟨presence, missed⟩ := kept
  refine ⟨presence.trans ?_, missed.trans ?_⟩
  · rw [State.presence, started, before]
    split <;> split <;> rfl
  · rw [started, before]
    by_cases waiting : m = l ∧ (s.line l).testWaits = true
    · have cleared : m = l ∧ ((s.line l).testWaits = true ∨ b = a ∧ s.presence l a = .present) :=
        ⟨waiting.1, .inl waiting.2⟩
      rw [if_pos waiting, if_pos cleared]; rfl
    · rw [if_neg waiting]
      by_cases own : l = m ∧ a = b ∧ s.presence l a = .present
      · have cleared : m = l ∧ ((s.line l).testWaits = true ∨ b = a ∧ s.presence l a = .present) :=
          ⟨own.1.symm, .inr ⟨own.2.1.symm, own.2.2⟩⟩
        rw [if_pos own, if_pos cleared]
      · rw [if_neg own, if_neg]
        rintro ⟨here, waits | present⟩
        · exact waiting ⟨here, waits⟩
        · exact own ⟨here.symm, present.1.symm, present.2⟩

/-! ## What follows at once of a note and of a mark -/

theorem State.noteGoes_of {n : Note} (known : s.configured l n.addr = true) (sound : s.presence l n.addr ≠ .faulty) :
    s.noteGoes l n = true := by simp [State.noteGoes, known, sound]

theorem getLast?_dropWhile {α : Type} {p : α → Bool} {xs : List α} {x : α} (last : xs.getLast? = some x) (stays : p x = false) :
    (xs.dropWhile p).getLast? = some x := by
  induction xs with
  | nil => cases last
  | cons y ys ih =>
    rw [List.dropWhile_cons]
    split
    · next passes =>
      cases ys with
      | nil =>
        simp only [List.getLast?_singleton, Option.some.injEq] at last
        rw [last, stays] at passes; cases passes
      | cons z zs => exact ih (by rw [List.getLast?_cons_cons] at last; exact last)
    · exact last

/-- The arbiter keeps the last note of a line, if it can go, or sends it. -/
theorem State.noted_arbitrate {c : NoteContent} (named : a ≠ 0) (known : s.configured l a = true)
    (sound : s.presence l a ≠ .faulty) (last : (s.line l).fifo.getLast? = some ⟨a, c⟩) : (s.arbitrate l).noted l a c := by
  unfold State.arbitrate
  split
  · exact .inl (by simpa [State.sendPoll, State.send, State.onStats, State.onAddr, Line.onAddr] using last)
  · split
    · exact .inl (by simpa [State.sendClock, State.onStats, State.send] using last)
    · have rest := getLast?_dropWhile (p := fun n => !s.noteGoes l n) last
        (by simp [State.noteGoes_of (n := ⟨a, c⟩) known sound])
      unfold State.noteStep
      split
      · next n ns found =>
        rw [found] at rest
        cases ns with
        | nil =>
          simp only [List.getLast?_singleton, Option.some.injEq] at rest
          exact .inr (by simp [State.onStats, State.send, rest, Note.exchange, named])
        | cons m ms =>
          rw [List.getLast?_cons_cons] at rest
          exact .inl (by simpa [State.onStats, State.send] using rest)
      · next none =>
        rw [none] at rest; cases rest

theorem State.configured_congr (seats : t.seats = s.seats) (stations : t.stations = s.stations) (m b : Nat) :
    t.configured m b = s.configured m b := by
  rw [State.configured, State.configured, State.seat, State.seat, State.station, State.station, seats, stations]

theorem State.fifo_endSweep (s : State) (l : Nat) : ((s.endSweep l).line l).fifo = (s.line l).fifo := by
  unfold State.endSweep
  dsimp only
  split
  · refine (foldl_keeps (fun t : State => (t.line l).fifo) State.setMark (fun t i => ?_) _ _).trans ?_
    · rw [State.setMark, State.line_onLine]
      split
      · next own => unfold Line.setMark; split <;> simp [own]
      · rfl
    · simp [State.restartInterval]
  · simp [State.restartInterval]

theorem State.noted_runLine {c : NoteContent} (named : a ≠ 0) (known : s.configured l a = true)
    (sound : s.presence l a ≠ .faulty) (loud : (s.line l).state ≠ .quiet)
    (last : (s.line l).fifo.getLast? = some ⟨a, c⟩) : (s.runLine l).noted l a c := by
  unfold State.runLine
  split
  · exact .inl last
  · split
    · exact State.noted_arbitrate named known sound last
    · next quiet => exact absurd quiet loud
    · unfold State.sweepStep
      split
      · exact .inl (by simpa [State.onStats, State.send] using last)
      · have m := Moves.endSweep s l
        have configured := State.configured_congr (m.frame.2 .seats (by decide)) (m.frame.2 .stations (by decide)) l a
        refine State.noted_arbitrate named (by rw [configured]; exact known) ?_ (by rw [State.fifo_endSweep]; exact last)
        rw [(m.frame.2 .presence (by decide) l a).1]; exact sound
    · unfold State.testStep
      dsimp only
      split
      · exact .inl (by simpa [State.send] using last)
      · have fifo : ((s.endTest l).line l).fifo = (s.line l).fifo := by simp [State.endTest, State.restartInterval]
        have presence : (s.endTest l).presence l a = s.presence l a := by
          simp [State.endTest, State.restartInterval, State.presence, Line.addr]
        exact State.noted_arbitrate named known (by rw [presence]; exact sound) (by rw [fifo]; exact last)

theorem State.noted_settle {c : NoteContent} (hl : l < 7) (named : a ≠ 0) (known : s.configured l a = true)
    (sound : s.presence l a ≠ .faulty) (loud : (s.line l).state ≠ .quiet)
    (last : (s.line l).fifo.getLast? = some ⟨a, c⟩) : s.settle.noted l a c := by
  obtain ⟨u, aside, line, -⟩ := s.settle_split hl
  have presence : u.presence l a = s.presence l a := by rw [State.presence, State.presence, aside.line]
  have seats : u.seats = s.seats := (congrArg State.seats aside.still :)
  have stations : u.stations = s.stations := (congrArg State.stations aside.still :)
  have noted := State.noted_runLine (s := u) named (by rw [State.configured_congr seats stations]; exact known)
    (by rw [presence]; exact sound) (by rw [aside.line]; exact loud) (by rw [aside.line]; exact last)
  unfold State.noted
  rw [line]
  exact noted

end Sys2Proof.Machine
end

section
/-! PROOF. What an event is answered by, and departures (O19). -/

namespace Sys2Proof.Machine

set_option Elab.async false

variable {s t u v : State} {l a : Nat}

/-! ## Marks that last -/

theorem State.marked_endSweep {b : Nat} (marked : b ∈ (s.line l).marks) : b ∈ ((s.endSweep l).line l).marks := by
  unfold State.endSweep
  dsimp only
  split
  · refine foldl_invariant (fun t : State => b ∈ (t.line l).marks) State.setMark (fun t i h => ?_) _ _ ?_
    · rw [State.setMark, State.line_onLine]
      split
      · next own =>
        unfold Line.setMark
        split
        · rw [own]; exact h
        · dsimp only
          split
          · rw [own]; exact h
          · exact List.mem_append_left _ (by rw [own]; exact h)
      · exact h
    · simpa [State.restartInterval] using marked
  · simpa [State.restartInterval] using marked

/-- A mark stands while its line goes on, but on a QUIET line. -/
theorem State.marked_runLine {b : Nat} (loud : (s.line l).state ≠ .quiet) (marked : b ∈ (s.line l).marks) :
    b ∈ ((s.runLine l).line l).marks := by
  unfold State.runLine
  split
  · exact marked
  · split
    · rw [(s.marks_arbitrate l).1]; exact marked
    · next quiet => exact absurd quiet loud
    · unfold State.sweepStep
      split
      · simpa [State.onStats, State.send] using marked
      · rw [((s.endSweep l).marks_arbitrate l).1]; exact State.marked_endSweep marked
    · unfold State.testStep
      dsimp only
      split
      · simpa [State.send] using marked
      · rw [((s.endTest l).marks_arbitrate l).1]
        simpa [State.endTest, State.restartInterval] using marked

theorem State.marked_settle {b : Nat} (hl : l < 7) (loud : (s.line l).state ≠ .quiet) (marked : b ∈ (s.line l).marks) :
    b ∈ (s.settle.line l).marks := by
  obtain ⟨u, aside, line, -⟩ := s.settle_split hl
  rw [line]
  exact State.marked_runLine (by rw [aside.line]; exact loud) (by rw [aside.line]; exact marked)

theorem State.fifo_settle (hl : l < 7) (s : State) : (s.settle.line l).fifo <:+ (s.line l).fifo := by
  obtain ⟨u, aside, line, -⟩ := s.settle_split hl
  rw [line, ← aside.line]
  exact u.fifo_runLine l

theorem Line.mem_setMark {n : Line} (a : Nat) (loud : n.state ≠ .quiet) : a ∈ (n.setMark a).marks := by
  unfold Line.setMark
  rw [if_neg loud]
  dsimp only
  split
  · next listed => exact listed
  · exact List.mem_append_right _ List.mem_cons_self

/-! ## The lines after an event -/

theorem State.started_line (v : State) (l m : Nat) : ((v.onLine l Line.startTest).line m).state = (v.line m).state ∧
    ((v.onLine l Line.startTest).line m).fifo = (v.line m).fifo ∧
    ((v.onLine l Line.startTest).line m).marks = (v.line m).marks ∧
    ((v.onLine l Line.startTest).line m).stats = (v.line m).stats ∧
    ∀ b, (v.onLine l Line.startTest).presence m b = v.presence m b := by
  obtain ⟨stats, state, -, marks, fifo, -⟩ := (v.line m).startTest_spec 0
  rw [State.line_onLine]
  by_cases own : l = m
  · subst own
    rw [if_pos rfl]
    refine ⟨state, fifo, marks, stats, fun b => ?_⟩
    rw [State.presence, State.line_onLine, if_pos rfl, ((v.line l).startTest_spec b).2.2.2.2.2]
    split <;> rfl
  · rw [if_neg own]
    exact ⟨rfl, rfl, rfl, rfl, fun b => by rw [State.presence, State.line_onLine, if_neg own]; rfl⟩

theorem State.noted_after {m b : Nat} {c : NoteContent} (hm : m < 7) (named : b ≠ 0) (known : v.configured m b = true)
    (sound : v.presence m b ≠ .faulty) (loud : (v.line m).state ≠ .quiet)
    (last : (v.line m).fifo.getLast? = some ⟨b, c⟩) : (v.afterEvent l).noted m b c := by
  obtain ⟨state, fifo, -, -, presence⟩ := v.started_line l m
  exact State.noted_settle hm named known (by rw [presence]; exact sound) (by rw [state]; exact loud) (by rw [fifo]; exact last)

theorem State.marked_after {m b : Nat} (hm : m < 7) (loud : (v.line m).state ≠ .quiet) (marked : b ∈ (v.line m).marks) :
    b ∈ ((v.afterEvent l).line m).marks := by
  obtain ⟨state, -, marks, -⟩ := v.started_line l m
  exact State.marked_settle hm (by rw [state]; exact loud) (by rw [marks]; exact marked)

/-- Part of what an event leaves stands through what follows at once. -/
theorem Unchanged.after {k : List Part} (h : Unchanged k s v) (desks : Part.presence ∈ k) :
    Unchanged k s (v.afterEvent l) := h.started l desks

theorem Moves.afterEvent (v : State) (l : Nat) : Moves [.presence] v (v.afterEvent l) :=
  (Moves.startTest v l).next (.settle _)

section
variable (v : State) (l : Nat)

theorem State.entry_afterEvent (k : Nat) : (v.afterEvent l).entry k = v.entry k := (Moves.afterEvent v l).frame.entry k

theorem State.seat_afterEvent (i : Nat) : (v.afterEvent l).seat i = v.seat i := (Moves.afterEvent v l).frame.seat i

theorem State.chan_afterEvent (c : Nat) : (v.afterEvent l).chan c = v.chan c := (Moves.afterEvent v l).frame.chan c

end

/-! ## Answers -/

theorem Line.takesNote_iff' (n : Line) : n.takesNote = true ↔ n.state ≠ .quiet ∧ n.fifo.length < Config.fifoSize := by
  simp [Line.takesNote]

/-- An event that ends with `note` at the tail of its own line's notes, if there was room, tells the desk or station. -/
theorem Told.after {e : DeskEvent} {note : NoteContent} (hl : l < 7) (ha : 1 ≤ a) (posted : Posted (s.atEvent l a e) v)
    (known : v.configured l a = s.configured l a)
    (queued : (s.line l).takesNote = true → (v.line l).fifo.getLast? = some ⟨a, note⟩) :
    Told s (v.afterEvent l) l a note := by
  refine ⟨.after posted, fun ⟨takes, configured, sound⟩ => ?_⟩
  obtain ⟨loud, -⟩ := (s.line l).takesNote_iff'.1 takes
  exact State.noted_after hl (by omega) (by rw [known]; exact configured)
    (by rw [posted.presence, State.atEvent_presence]; exact sound)
    (by rw [posted.state, (s.atEvent_fields l a e l).1]; exact loud) (queued takes)

theorem State.line_queueNote (s : State) (l a : Nat) (c : NoteContent) (m : Nat) :
    (s.queueNote l a c).line m = if l = m then (s.line l).queueNote a c else s.line m := State.line_onLine ..

theorem Line.last_queueNote {n : Line} (takes : n.takesNote = true) (a : Nat) (c : NoteContent) :
    (n.queueNote a c).fifo.getLast? = some ⟨a, c⟩ := by
  rw [Line.queueNote, if_pos takes]; simp

theorem State.atEvent_takesNote (s : State) (l a : Nat) (e : DeskEvent) (m : Nat) :
    ((s.atEvent l a e).line m).takesNote = (s.line m).takesNote := by
  obtain ⟨state, fifo, -⟩ := s.atEvent_fields l a e m
  rw [Line.takesNote, Line.takesNote, state, fifo]

theorem State.configured_queueNote (w : State) (l a : Nat) (c : NoteContent) (m b : Nat) :
    (w.queueNote l a c).configured m b = w.configured m b := rfl

theorem Told.note {e : DeskEvent} (hl : l < 7) (ha : 1 ≤ a) (s : State) (note : NoteContent) :
    Told s (((s.atEvent l a e).queueNote l a note).afterEvent l) l a note := by
  have posted := Posted.queueNote (s.atEvent l a e) l a note
  have known := (State.configured_queueNote (s.atEvent l a e) l a note l a).trans (s.atEvent_configured l a e l a)
  have queued : (s.line l).takesNote = true →
      (((s.atEvent l a e).queueNote l a note).line l).fifo.getLast? = some ⟨a, note⟩ := fun takes => by
    rw [State.line_queueNote, if_pos rfl]
    exact Line.last_queueNote (by rw [State.atEvent_takesNote]; exact takes) a note
  generalize (s.atEvent l a e).queueNote l a note = v at posted known queued ⊢
  exact .after hl ha posted known queued

/-- An event that is answered by a note alone is turned away. -/
theorem turned_of {l : Fin 7} {bytes : List Byte} {e : DeskEvent} {note : NoteContent} (hears : s.hears l a bytes e)
    (fits : e.definedFor l = true) (ha : 1 ≤ a)
    (answer : (s.atEvent l a e).handOn l a (.event e) = (s.atEvent l a e).queueNote l a note) : Turned s l a bytes note :=
  ⟨_, by rw [exec_hears hears fits, answer],
    ((s.atEvent_unchanged l a e).trans ((Moves.queueNote _ _ _ _).frame.weaken nofun)).after (by decide),
    .note l.isLt ha s note⟩

/-- An event that nothing answers. -/
theorem unanswered_of {l : Fin 7} {bytes : List Byte} {e : DeskEvent} (hears : s.hears l a bytes e)
    (fits : e.definedFor l = true) (answer : (s.atEvent l a e).handOn l a (.event e) = s.atEvent l a e) :
    ∃ t, exec (.lineReplyReceived l bytes) s = .next t ∧ Unchanged [.presence] s t ∧ PresencesStand s t l a :=
  ⟨_, by rw [exec_hears hears fits, answer], (s.atEvent_unchanged l a e).after (by decide), .after (.refl _)⟩

/-! ## The desk of a seat -/

theorem isSeatLine_of (hl : l < 6) : isSeatLine l = true := by simp [isSeatLine, hl]

theorem State.handOn_desk (s : State) (hl : l < 6) (a : Nat) (e : DeskEvent) :
    s.handOn l a (.event e) = s.deskEvent (seatIndex l a) e := by
  unfold State.handOn seatOn
  rw [if_pos (isSeatLine_of hl)]

theorem State.atEvent_seat (s : State) (l a : Nat) (e : DeskEvent) (i : Nat) : (s.atEvent l a e).seat i = s.seat i :=
  (s.atEvent_unchanged l a e).seat i

theorem State.atEvent_entry (s : State) (l a : Nat) (e : DeskEvent) (k : Nat) : (s.atEvent l a e).entry k = s.entry k :=
  (s.atEvent_unchanged l a e).entry k

theorem State.atEvent_chan (s : State) (l a : Nat) (e : DeskEvent) (c : Nat) : (s.atEvent l a e).chan c = s.chan c :=
  (s.atEvent_unchanged l a e).chan c

/-- A press at a seat that is not OCCUPIED, when the key does there what R64 says. -/
theorem pressedElsewhere_of {l : Fin 7} {bytes : List Byte} {e : DeskEvent} (hears : s.hears l a bytes e)
    (fits : e.definedFor l = true) (hl : l.val < 6) (ha : 1 ≤ a) (hb : a ≤ 64)
    (clearing : ∀ (w : State) i n, (w.seat i).occ = .clearing n → w.deskEvent i e = w.closingNote i)
    (idle : ∀ (w : State) i, (w.seat i).occ = .free ∨ (∃ k n, (w.seat i).occ = .held k n) → w.deskEvent i e = w) :
    PressedElsewhere s l a bytes := by
  have word : ∀ n, (s.seat (seatIndex l a)).occ = .clearing n →
      (s.atEvent l a e).handOn l a (.event e) = match (s.seat (seatIndex l a)).closing with
      | .timeUp => (s.atEvent l a e).queueNote l a .timeUp
      | .finished => (s.atEvent l a e).queueNote l a .finished
      | .none => s.atEvent l a e := fun n occ => by
    rw [State.handOn_desk _ hl, clearing _ _ n (by rw [State.atEvent_seat]; exact occ)]
    cases word : (s.seat (seatIndex l a)).closing <;>
      simp only [State.closingNote, State.atEvent_seat, State.noteSeat_index _ l ha hb, word]
  dsimp only [PressedElsewhere]
  refine ⟨fun ⟨n, occ⟩ closing => turned_of hears fits ha (by rw [word n occ, closing]),
    fun ⟨n, occ⟩ closing => turned_of hears fits ha (by rw [word n occ, closing]), fun quiet => unanswered_of hears fits ?_⟩
  have seat := State.atEvent_seat s l a e (seatIndex l a)
  rcases quiet with occ | held | ⟨⟨n, occ⟩, closing⟩
  · rw [State.handOn_desk _ hl, idle _ _ (by rw [seat]; exact .inl occ)]
  · rw [State.handOn_desk _ hl, idle _ _ (by rw [seat]; exact .inr held)]
  · rw [word n occ, closing]

/-! ## Departures -/

variable {k : Nat} {e : Entry}

theorem State.depart_others (found : s.entry k = some e) (w : ClosingWord) (d : Nat) (other : d ≠ e.channel) :
    (s.depart k w).chan d = s.chan d :=
  (OnePhase.depart s k e.channel w fun e' found' => by cases found.symm.trans found'; rfl).others d other

theorem DepartureTaken.depart (found : s.entry k = some e) (w : ClosingWord) :
    DepartureTaken s (s.depart k w) e.channel := by
  have chan := fun running => State.chan_depart found w running e.channel
  have office := State.office_depart found w
  refine ⟨State.depart_others found w, fun writing => ?_, fun overtime => ?_⟩
  · rw [writing] at chan office
    have told := office (.inl rfl)
    rw [if_neg (by simp)] at told
    refine ⟨?_, told⟩
    rw [chan (by simp), if_neg (by simp)]
  · rw [overtime] at chan office
    have told := office (.inr rfl)
    have record := chan (by simp)
    cases last : (s.depart k w).hasWriter e.channel with
    | true =>
      rw [last] at told record
      rw [if_pos rfl]
      exact ⟨by rw [record]; simp, by rw [if_neg (by simp)] at told; exact told⟩
    | false =>
      rw [last] at told record
      rw [if_neg Bool.false_ne_true]
      exact ⟨by rw [record]; simp [Channel.collect], by rw [if_pos (by simp)] at told; exact told⟩

theorem Departed.depart (found : s.entry k = some e) (w : ClosingWord) : Departed s (s.depart k w) k e w.leaves w := by
  refine ⟨?_, fun j apart => State.depart_apart s w apart, fun i own => ?_, fun i apart => ?_, .depart found w⟩
  · rw [State.entry_depart found, if_pos rfl, State.departed]
  · rw [State.seat_depart found, if_pos own]; rfl
  · rw [State.seat_depart found, if_neg apart]

theorem DepartureTaken.congr {c : Nat} {p : List Part} {w t : State} (before : Unchanged p s w) (after : Unchanged p v t)
    (h : DepartureTaken w v c) (sub : ∀ x ∈ p, x ∈ [Part.presence, .responses, .framesIn] := by decide) :
    DepartureTaken s t c := by
  have b := before.weaken sub
  have n := after.weaken sub
  have flags : Part.same w v .flags → Part.same s t .flags := fun same x h1 h2 =>
    (n.2 .flags (by decide) x h1 h2).trans ((same x h1 h2).trans (b.2 .flags (by decide) x h1 h2))
  have notices : Part.same w v .notices → Part.same s t .notices := fun same =>
    (n.2 .notices (by decide)).trans (same.trans (b.2 .notices (by decide)))
  have roster : t.roster = v.roster := n.2 .roster (by decide)
  obtain ⟨others, writing, overtime⟩ := h
  have stands : (v.chan c = w.chan c ∧ Part.same w v .flags ∧ Part.same w v .notices) →
      t.chan c = s.chan c ∧ Part.same s t .flags ∧ Part.same s t .notices := fun ⟨h1, h2, h3⟩ =>
    ⟨by rw [n.chan, h1, b.chan], flags h2, notices h3⟩
  refine ⟨fun d other => by rw [n.chan, others d other, b.chan], fun state => stands (writing (by rw [b.chan]; exact state)),
    fun state => ?_⟩
  have taken := overtime (by rw [b.chan]; exact state)
  rw [State.hasWriter_congr roster, State.reconciles_congr roster]
  split
  · next some => rw [if_pos some] at taken; exact stands taken
  · next none =>
    rw [if_neg none] at taken
    obtain ⟨record, told⟩ := taken
    exact ⟨by rw [n.chan, record, b.chan], (n.2 .flags (by decide) _ (by decide) (by decide)).2 told⟩

/-- A departure, as the state before what led to it and after what follows it tell it. -/
theorem Departed.congr {p : List Part} {w t : State} {x : EntryState} {word : ClosingWord} (before : Unchanged p s w)
    (after : Unchanged p v t) (h : Departed w v k e x word)
    (sub : ∀ y ∈ p, y ∈ [Part.presence, .responses, .framesIn] := by decide) : Departed s t k e x word := by
  have b := before.weaken sub
  have n := after.weaken sub
  have time : w.time = s.time := b.2 .time (by decide)
  have hall : w.hall = s.hall := b.2 .hall (by decide)
  have returned : w.isReturned = s.isReturned := funext fun x =>
    State.isReturned_congr (And.left (a := w.booklets = s.booklets) (b.2 .booklets (by decide))) x
  obtain ⟨entry, entries, seat, seats, taken⟩ := h
  refine ⟨by rw [n.entry, entry, time, returned], fun j apart => by rw [n.entry, entries j apart, b.entry],
    fun i own => by rw [n.seat, seat i own, b.seat, hall], fun i apart => by rw [n.seat, seats i apart, b.seat],
    taken.congr before after sub⟩

theorem Unchanged.countFrame (s : State) : Unchanged [.framesIn] s s.countFrame :=
  ⟨rfl, fun p counted => Part.same_countFrame s p fun same => counted (same ▸ List.mem_cons_self)⟩

theorem Served.after {k : List Part} {s u t : State} {tag kind : Byte} {code : Code} {out : List Byte}
    (h : Served k s u t tag kind code out) : Unchanged [.responses] u t := by
  rw [h.eq]
  exact Unchanged.settle ⟨rfl, fun p answered => Part.same_respond _ _ p fun same => answered (same ▸ List.mem_cons_self)⟩

theorem exec_timeUp (k : Nat) (s : State) : exec (.timeUp k) s =
    .next (if s.timeUpDue k then s.depart k .timeUp else s).settle := rfl

theorem EntryState.writing_iff (x : EntryState) : x.isWriting = true ↔ x = .writing ∨ x = .onBreak := by
  cases x <;> decide

theorem timeUp_departs (found : s.entry k = some e) (writes : e.state = .writing ∨ e.state = .onBreak)
    (past : e.allowed ≤ e.written) :
    ∃ t, exec (.timeUp k) s = .next t ∧ Departed s t k e .timeUp .timeUp ∧
      Unchanged [.channels, .roster, .seats, .flags, .notices] s t := by
  have due : s.timeUpDue k = true := by
    simp [State.timeUpDue, found, (EntryState.writing_iff _).2 writes, past]
  exact ⟨_, by rw [exec_timeUp, if_pos due],
    (Departed.depart found .timeUp).congr (.refl [] s) (Moves.settle _).frame nofun, (Moves.depart s k _).frame.settle⟩

theorem candidateFinish_departs (tag : Byte) (found : s.entry k = some e)
    (writes : e.state = .writing ∨ e.state = .onBreak) (takes : s.takesRequest) (hk : k ≤ 511) :
    ∃ t, exec (.candidateFinish tag k) s = .next t ∧ Answered s t tag 0x03#8 .ok [] ∧
      Departed s t k e .finished .finished ∧
      Unchanged [.channels, .roster, .seats, .flags, .notices, .responses, .framesIn] s t := by
  have here : s.countFrame.entry k = some e := found
  have answer : s.countFrame.candidateFinish k = (s.countFrame.depart k .finished).done := by
    unfold State.candidateFinish State.finishRefusal
    rw [if_neg (by omega), here]
    dsimp only
    rw [if_pos ((EntryState.writing_iff _).2 writes)]
    rfl
  obtain ⟨t, run, served⟩ := State.served (k := [.channels, .roster, .seats, .flags, .notices]) (i := .candidateFinish tag k)
    rfl takes answer (.depart s.countFrame k _)
  exact ⟨t, run, served.answered, (Departed.depart here .finished).congr (p := [.responses, .framesIn])
    ((Unchanged.countFrame s).weaken (by decide)) (served.after.weaken (by decide)), served.unchanged.weaken (by decide)⟩

/-! ## The FINISH key -/

theorem Posted.onSeat (s : State) (i : Nat) (f : Seat → Seat) (same : ∀ r, (f r).configured = r.configured := by intro _; rfl) :
    Posted s (s.onSeat i f) := by
  refine ⟨fun _ => rfl, fun j => ?_⟩
  rw [State.seat_onSeat]
  split
  · next own => rw [← own, same]
  · rfl

theorem Posted.dropWarning (s : State) (k : Nat) : Posted s (s.dropWarning k) := .of_lines rfl

theorem Posted.clearSeat (s : State) (i : Nat) (w : ClosingWord) : Posted s (s.clearSeat i w) := by
  unfold State.clearSeat State.freeSeat
  split
  · exact (Posted.onSeat s i _).trans (.settleMark _ i)
  · exact (Posted.onSeat s i _).trans (.settleMark _ i)

theorem Posted.reconcile (s : State) (c : Nat) : Posted s (s.reconcile c) := by
  unfold State.reconcile
  split
  · exact .enterPhase s c _
  · exact .refl s

theorem Posted.collectTest (s : State) (k : Nat) : Posted s (s.collectTest k) := by
  unfold State.collectTest
  split
  · split
    · exact (Posted.onEntry s k _).trans (.reconcile _ _)
    · exact .refl s
  · exact .refl s

theorem Posted.overtimeTest (s : State) (c : Nat) : Posted s (s.overtimeTest c) := by
  unfold State.overtimeTest State.enterCollecting
  split
  · exact (Posted.enterPhase s c _).trans (.reconcile _ c)
  · exact .refl s

theorem Posted.ite {p : Prop} [Decidable p] (h : Posted s t) (g : Posted s u) : Posted s (if p then t else u) := by
  split
  · exact h
  · exact g

theorem Posted.depart (s : State) (k : Nat) (w : ClosingWord) : Posted s (s.depart k w) := by
  unfold State.depart
  cases found : s.entry k with
  | none => exact .refl s
  | some e =>
    dsimp only
    generalize hu : State.dropWarning (s.onEntry k _) k = u
    have start : Posted s u := hu ▸ (Posted.onEntry s k _).trans (.dropWarning _ k)
    cases e.seat with
    | none => exact start.trans ((Posted.collectTest u k).trans (.overtimeTest _ _))
    | some i =>
      have cleared := start.trans (.clearSeat u i w)
      dsimp only
      generalize u.clearSeat i w = x at cleared ⊢
      exact (cleared.trans (.ite (.setMark x i) (.refl x))).trans ((Posted.collectTest _ k).trans (.overtimeTest _ _))

theorem pressFinish_departs {l : Fin 7} {bytes : List Byte} (hears : s.hears l a bytes .finish) (hl : l.val < 6)
    (occ : (s.seat (seatIndex l a)).occ = .occupied k) (found : s.entry k = some e)
    (writes : e.state = .writing ∨ e.state = .onBreak)
    (begun : (s.chan e.channel).config.barStart ≤ (s.chan e.channel).writeElapsed)
    (more : (s.chan e.channel).config.barEnd < e.allowed - e.written) :
    ∃ t, exec (.lineReplyReceived l bytes) s = .next t ∧ Departed s t k e .finished .finished ∧
      PresencesStand s t l a ∧ Unchanged [.channels, .roster, .seats, .presence, .flags, .notices] s t := by
  have here : (s.atEvent l a .finish).entry k = some e := (s.atEvent_entry l a _ k).trans found
  have bar : (s.atEvent l a .finish).finishBar e = none := by
    unfold State.finishBar
    rw [State.atEvent_chan, if_neg (by rcases writes with at_ | at_ <;> rw [at_] <;> nofun), if_neg (by omega), if_neg (by omega)]
  have answer : (s.atEvent l a .finish).handOn l a (.event .finish) = (s.atEvent l a .finish).depart k .finished := by
    rw [State.handOn_desk _ hl]
    show State.pressFinish _ _ = _
    unfold State.pressFinish
    rw [State.atEvent_seat, occ]
    dsimp only
    rw [here]
    dsimp only
    rw [bar]
  have frame := s.atEvent_unchanged l a .finish
  have m := Moves.depart (s.atEvent l a .finish) k .finished
  have posted := Posted.depart (s.atEvent l a .finish) k .finished
  have departed := Departed.depart here .finished
  have run := exec_hears (s := s) hears (by simp [DeskEvent.definedFor, isSeatLine_of hl])
  rw [answer] at run
  generalize (s.atEvent l a .finish).depart k .finished = v at m posted departed run
  exact ⟨_, run, departed.congr frame (Moves.afterEvent v l).frame, .after posted,
    ((frame.weaken (by decide)).trans (m.frame.weaken (by decide))).after (by decide)⟩

theorem pressFinish_barred {l : Fin 7} {bytes : List Byte} {b : Bar} (hears : s.hears l a bytes .finish) (hl : l.val < 6)
    (ha : 1 ≤ a) (hb : a ≤ 64) (occ : (s.seat (seatIndex l a)).occ = .occupied k) (found : s.entry k = some e)
    (bar : s.finishBar e = some b) : Turned s l a bytes (.finishRefused b) := by
  refine turned_of hears (by simp [DeskEvent.definedFor, isSeatLine_of hl]) ha ?_
  have bar' : (s.atEvent l a .finish).finishBar e = some b := by
    rw [← bar, State.finishBar, State.finishBar, State.atEvent_chan]
  rw [State.handOn_desk _ hl]
  show State.pressFinish _ _ = _
  unfold State.pressFinish
  rw [State.atEvent_seat, occ]
  dsimp only
  rw [State.atEvent_entry, found]
  dsimp only
  rw [bar']
  exact State.noteSeat_index _ _ ha hb _

/-- Settles O19, by the departure of an entry, the channel's own turn, and the press of the key. -/
theorem departureClearsTheSeat : Obligations.DepartureClearsTheSeat := by
  refine ⟨fun tag k e s found writes => ⟨timeUp_departs found writes, candidateFinish_departs tag found writes⟩,
    exec_overtime, fun l a bytes s hl ha hb hears => ⟨fun k e occ found => ⟨fun writes begun more =>
      pressFinish_departs hears hl occ found writes begun more, fun early => ?_, fun writes begun last => ?_⟩, ?_⟩⟩
  · refine pressFinish_barred hears hl ha hb occ found ?_
    unfold State.finishBar
    dsimp only
    split
    · rfl
    · next moved => rw [if_pos (early.resolve_left moved)]
  · refine pressFinish_barred hears hl ha hb occ found ?_
    unfold State.finishBar
    dsimp only
    rw [if_neg writes, if_neg (Nat.not_lt.2 begun), if_pos last]
  · refine pressedElsewhere_of hears (by simp [DeskEvent.definedFor, isSeatLine_of hl]) hl ha hb (fun w i n occ => ?_)
      fun w i idle => ?_
    · show State.pressFinish _ _ = _
      rw [State.pressFinish, occ]
    · show State.pressFinish _ _ = _
      unfold State.pressFinish
      rcases idle with occ | ⟨k, n, occ⟩ <;> rw [occ]

end Sys2Proof.Machine
end

section
/-! PROOF. The desk of a seat: taps, BREAK and HELP (O22). -/

namespace Sys2Proof.Machine

set_option Elab.async false

variable {s t u v : State} {l a k : Nat} {e : Entry}

/-! ## Marks alone -/

/-- From `s` to `t` nothing has been done on the lines but marks set and dropped. -/
structure Marked (s t : State) : Prop where
  posted : Posted s t
  fifo : ∀ m, (t.line m).fifo = (s.line m).fifo
  stats : ∀ m, (t.line m).stats = (s.line m).stats

theorem Marked.refl (s : State) : Marked s s := ⟨.refl s, fun _ => rfl, fun _ => rfl⟩

theorem Marked.trans (h : Marked s t) (g : Marked t u) : Marked s u :=
  ⟨h.posted.trans g.posted, fun m => (g.fifo m).trans (h.fifo m), fun m => (g.stats m).trans (h.stats m)⟩

theorem Marked.of_lines (same : t.lines = s.lines)
    (sites : ∀ i, (t.seat i).configured = (s.seat i).configured := by exact fun _ => rfl) : Marked s t :=
  have line : ∀ m, t.line m = s.line m := fun m => by rw [State.line, State.line, same]
  ⟨.of_lines same sites, fun m => by rw [line], fun m => by rw [line]⟩

theorem Marked.ite {p : Prop} [Decidable p] (h : Marked s t) (g : Marked s u) : Marked s (if p then t else u) := by
  split
  · exact h
  · exact g

theorem Line.setMark_keeps (n : Line) (a : Nat) : (n.setMark a).fifo = n.fifo ∧ (n.setMark a).stats = n.stats ∧
    (n.setMark a).state = n.state := by
  unfold Line.setMark
  split <;> exact ⟨rfl, rfl, rfl⟩

theorem Marked.setMark (s : State) (i : Nat) : Marked s (s.setMark i) := by
  refine ⟨.setMark s i, fun m => ?_, fun m => ?_⟩ <;> rw [State.setMark, State.line_onLine] <;> split
  · next own => rw [← own, (Line.setMark_keeps _ _).1]
  · rfl
  · next own => rw [← own, (Line.setMark_keeps _ _).2.1]
  · rfl

theorem Marked.markEntry (s : State) (k : Nat) : Marked s (s.markEntry k) := by
  unfold State.markEntry
  split
  · exact .setMark s _
  · exact .refl s

theorem Marked.onSeat (s : State) (i : Nat) (f : Seat → Seat)
    (same : ∀ r, (f r).configured = r.configured := by intro _; rfl) : Marked s (s.onSeat i f) :=
  ⟨.onSeat s i f same, fun _ => rfl, fun _ => rfl⟩

theorem Marked.putEntry (s : State) (k : Nat) (e : Entry) : Marked s (s.putEntry k e) := .of_lines rfl

theorem Marked.warn (s : State) (m : PMap Nat) : Marked s { s with warnings := m } := .of_lines rfl

theorem Marked.warnTest (s : State) (k : Nat) : Marked s (s.warnTest k) := by
  unfold State.warnTest
  cases s.entry k with
  | none => exact .refl s
  | some e =>
    dsimp only
    split
    · have warned : Marked s (if e.allowed - e.written ∈ (s.chan e.channel).config.warnings
          then { s with warnings := mapPut s.warnings k (e.allowed - e.written) }.markEntry k else s) :=
        .ite ((Marked.warn s _).trans (.markEntry _ k)) (.refl s)
      exact .ite (warned.trans (.markEntry _ k)) warned
    · exact .refl s

theorem Marked.takesNote (h : Marked s t) (m : Nat) : (t.line m).takesNote = (s.line m).takesNote := by
  rw [Line.takesNote, Line.takesNote, h.fifo, h.posted.state]

/-! ## A desk told and marked -/

theorem State.marked_index (s : State) (l : Nat) {a : Nat} (ha : 1 ≤ a) (hb : a ≤ 64) (loud : (s.line l).state ≠ .quiet) :
    a ∈ ((s.setMark (seatIndex l a)).line l).marks := by
  rw [State.setMark_index s l ha hb, State.line_onLine, if_pos rfl]
  exact Line.mem_setMark a loud

theorem State.marks_queueNote (s : State) (l a : Nat) (c : NoteContent) (m : Nat) :
    ((s.queueNote l a c).line m).marks = (s.line m).marks := by
  rw [State.line_queueNote]
  split
  · next own => unfold Line.queueNote; split <;> rw [own]
  · rfl

/-- A desk is marked, and told by a note, when its line is `w` after marks alone. -/
theorem Told.marked {x : DeskEvent} {w : State} {note : NoteContent} (hl : l < 7) (ha : 1 ≤ a)
    (marked : Marked (s.atEvent l a x) w) (known : w.configured l a = s.configured l a) :
    Told s ((w.queueNote l a note).afterEvent l) l a note := by
  have posted := marked.posted.trans (.queueNote w l a note)
  have known' := (State.configured_queueNote w l a note l a).trans known
  have queued : (s.line l).takesNote = true → ((w.queueNote l a note).line l).fifo.getLast? = some ⟨a, note⟩ := fun takes => by
    rw [State.line_queueNote, if_pos rfl]
    exact Line.last_queueNote (by rw [marked.takesNote, State.atEvent_takesNote]; exact takes) a note
  generalize w.queueNote l a note = v at posted known' queued ⊢
  exact .after hl ha posted known' queued

/-! ## The tap that seats a candidate -/

/-- The entry of a candidate seated by a tap at seat `i` (R63, R90). -/
def Entry.tapped (e : Entry) (i : Nat) (c : Channel) : Entry :=
  { e with
    seat := some i
    lastSeat := some i
    state := if c.state = .writing then .writing else .seated
    written := if c.state = .writing then c.writeElapsed else e.written
    late := decide (c.state = .writing) || e.late }

/-- Seat `i` taken by slot `k` with the entry given (R63, R90, R57). -/
theorem State.seatCandidate_eq (s : State) (i k : Nat) (e : Entry) : ∃ w : State,
    s.seatCandidate i k e = (w.setMark i).noteSeat i (.welcome (e.id % 10000)) ∧ Marked s w ∧
      (∀ m, w.entry m = if k = m then some (e.tapped i (s.chan e.channel)) else s.entry m) ∧
      (∀ j, w.seat j = if i = j then { s.seat i with occ := .occupied k, closing := .none } else s.seat j) ∧
      w.stations = s.stations ∧ Moves [.seats, .roster] s w := by
  have record : (if (s.chan e.channel).state = .writing
      then { e.seatAt i with state := .writing, written := (s.chan e.channel).writeElapsed, late := true }
      else { e.seatAt i with state := .seated }) = e.tapped i (s.chan e.channel) := by
    unfold Entry.tapped Entry.seatAt
    by_cases writing : (s.chan e.channel).state = .writing <;> simp [writing]
  unfold State.seatCandidate
  dsimp only
  rw [record]
  have m : Moves [.seats, .roster] s ((s.putEntry k (e.tapped i (s.chan e.channel))).occupySeat i k) :=
    (Moves.putEntry s k _).widen.next (.occupySeat _ i k)
  have marked : Marked s ((s.putEntry k (e.tapped i (s.chan e.channel))).occupySeat i k) :=
    (Marked.putEntry s k _).trans (.onSeat _ i _)
  have entry : ∀ j, ((s.putEntry k (e.tapped i (s.chan e.channel))).occupySeat i k).entry j =
      if k = j then some (e.tapped i (s.chan e.channel)) else s.entry j := fun j => by
    rw [State.occupySeat, State.entry_onSeat, State.entry_putEntry]
  have seat : ∀ j, ((s.putEntry k (e.tapped i (s.chan e.channel))).occupySeat i k).seat j =
      if i = j then { s.seat i with occ := .occupied k, closing := .none } else s.seat j := fun j => by
    rw [State.occupySeat, State.seat_onSeat]; rfl
  generalize (s.putEntry k (e.tapped i (s.chan e.channel))).occupySeat i k = x at m marked entry seat
  have warn := Moves.warnTest x k
  refine ⟨x.warnTest k, rfl, marked.trans (.warnTest x k), fun j => by rw [warn.frame.entry, entry],
    fun j => by rw [warn.frame.seat, seat], ?_, m.next warn⟩
  exact (m.next warn).frame.2 .stations (by decide)

theorem State.configured_of_seats (stations : t.stations = s.stations)
    (same : ∀ i, (t.seat i).configured = (s.seat i).configured) (m b : Nat) : t.configured m b = s.configured m b := by
  rw [State.configured, State.configured, same, State.station, State.station, stations]

theorem State.atEvent_activeLookup (s : State) (l a : Nat) (x : DeskEvent) (id : Nat) :
    (s.atEvent l a x).activeLookup id = s.activeLookup id := by
  have frame := s.atEvent_unchanged l a x
  have roster : (s.atEvent l a x).roster = s.roster := frame.2 .roster (by decide)
  unfold State.activeLookup
  rw [roster]
  congr 1
  funext p
  rw [frame.chan]

theorem fits_desk (hl : l < 6) (x : DeskEvent) (here : ∃ id, x = .tap id ∨ x = .finish ∨ x = .takeBreak ∨ x = .help) :
    x.definedFor l = true := by
  obtain ⟨id, rfl | rfl | rfl | rfl⟩ := here <;> exact isSeatLine_of hl

theorem tap_seats {l : Fin 7} {id : Nat} {bytes : List Byte} (hl : l.val < 6) (ha : 1 ≤ a) (hb : a ≤ 64)
    (hears : s.hears l a bytes (.tap id)) (found : s.activeLookup id = some (k, e)) (allocated : e.state = .allocated)
    (own : e.seat = some (seatIndex l a)) :
    ∃ t, exec (.lineReplyReceived l bytes) s = .next t ∧ (t.seat (seatIndex l a)).occ = .occupied k ∧
      t.entry k = some (e.tapped (seatIndex l a) (s.chan e.channel)) ∧
      (∀ m, m ≠ k → t.entry m = s.entry m) ∧ (∀ m, m ≠ seatIndex l a → t.seat m = s.seat m) ∧
      ((s.line l).state ≠ .quiet → a ∈ (t.line l).marks) ∧ Told s t l a (.welcome (e.id % 10000)) ∧
      Unchanged [.seats, .roster, .presence] s t := by
  have answer : (s.atEvent l a (.tap id)).handOn l a (.event (.tap id)) =
      (s.atEvent l a (.tap id)).seatCandidate (seatIndex l a) k e := by
    rw [State.handOn_desk _ hl]
    show State.takeTap _ _ _ = _
    unfold State.takeTap
    rw [State.atEvent_activeLookup, found]
    dsimp only
    rw [allocated]
    dsimp only
    rw [if_pos own]
  have run := exec_hears hears (fits_desk hl _ ⟨id, .inl rfl⟩)
  obtain ⟨w, eq, marked, entry, seat, stations, m⟩ :=
    (s.atEvent l a (.tap id)).seatCandidate_eq (seatIndex l a) k e
  rw [answer, eq, State.noteSeat_index _ _ ha hb] at run
  have loud : (s.line l).state ≠ .quiet → (w.line l).state ≠ .quiet := fun loud => by
    rw [marked.posted.state, (s.atEvent_fields l a (.tap id) l).1]; exact loud
  have known : w.configured l a = s.configured l a :=
    (State.configured_of_seats stations (fun i => by rw [seat]; split <;> simp [*]) l a).trans (s.atEvent_configured l a _ l a)
  have done := marked.trans (.setMark w (seatIndex l a))
  have told : Told s (((w.setMark (seatIndex l a)).queueNote l a (.welcome (e.id % 10000))).afterEvent l) l a
      (.welcome (e.id % 10000)) := .marked l.isLt ha done known
  have mark : (s.line l).state ≠ .quiet → a ∈ (((w.setMark (seatIndex l a)).queueNote l a (.welcome (e.id % 10000))).line l).marks :=
    fun h => by rw [State.marks_queueNote]; exact w.marked_index l ha hb (loud h)
  have loud' : (s.line l).state ≠ .quiet →
      (((w.setMark (seatIndex l a)).queueNote l a (.welcome (e.id % 10000))).line l).state ≠ .quiet := fun h => by
    rw [((Posted.setMark w _).trans (.queueNote _ _ _ _)).state]; exact loud h
  have tail := (Moves.setMark w (seatIndex l a)).next (.queueNote _ l a (.welcome (e.id % 10000)))
  generalize (w.setMark (seatIndex l a)).queueNote l a (.welcome (e.id % 10000)) = v at run told mark loud' tail
  have entry' : ∀ j, (v.afterEvent l).entry j = if k = j then some (e.tapped (seatIndex l a) (s.chan e.channel)) else s.entry j :=
    fun j => by rw [State.entry_afterEvent, tail.frame.entry, entry, State.atEvent_chan, State.atEvent_entry]
  have seat' : ∀ j, (v.afterEvent l).seat j = _ := fun j =>
    (State.seat_afterEvent v l j).trans ((tail.frame.seat j).trans (seat j))
  exact ⟨_, run, by rw [seat', if_pos rfl], by rw [entry', if_pos rfl],
    fun j other => by rw [entry', if_neg (Ne.symm other)], fun j other => by
      rw [seat', if_neg (Ne.symm other), State.atEvent_seat], fun h => State.marked_after l.isLt (loud' h) (mark h), told,
    (((s.atEvent_unchanged l a _).weaken (by decide)).trans ((m.next tail).frame.weaken (by decide))).after (by decide)⟩

/-! ## Other taps -/

/-- What a tap does, by the entry that its id finds. -/
theorem State.handOn_tap {id : Nat} (hl : l < 6) (found : s.activeLookup id = some (k, e)) :
    (s.atEvent l a (.tap id)).handOn l a (.event (.tap id)) =
      match e.state with
      | .expected => (s.atEvent l a (.tap id)).noteSeat (seatIndex l a) .goToEntrance
      | .allocated => if e.seat = some (seatIndex l a) then (s.atEvent l a (.tap id)).seatCandidate (seatIndex l a) k e
          else (s.atEvent l a (.tap id)).wrongSeat (seatIndex l a) (e.seat.getD 0)
      | .seated | .writing | .onBreak => if e.seat = some (seatIndex l a) then (s.atEvent l a (.tap id)).setMark (seatIndex l a)
          else (s.atEvent l a (.tap id)).wrongSeat (seatIndex l a) (e.seat.getD 0)
      | .finished | .timeUp | .collected => (s.atEvent l a (.tap id)).noteSeat (seatIndex l a) .alreadyLeft
      | .absent => (s.atEvent l a (.tap id)).noteSeat (seatIndex l a) .notAdmitted
      | .missing => (s.atEvent l a (.tap id)).noteSeat (seatIndex l a) .unknown := by
  rw [State.handOn_desk _ hl]
  show State.takeTap _ _ _ = _
  cases at_ : e.state <;> simp only [State.takeTap, State.atEvent_activeLookup, found, at_]

/-- One more tap at a wrong seat (R89, R121). -/
def LineStats.wrong (t : LineStats) : LineStats := { t with wrongSeat := statUp t.wrongSeat }

theorem State.line_wrong (w : State) (l : Nat) :
    (w.onStats l LineStats.wrong).line l = { w.line l with stats := (w.line l).stats.wrong } := by
  rw [State.onStats, State.line_onLine, if_pos rfl]

theorem Posted.wrong (s : State) (l : Nat) : Posted s (s.onStats l LineStats.wrong) := .onLine s _ fun _ => rfl

theorem Line.wrongSeat_of_heard {m n : Line} (h : m.heard = n.heard) : m.stats.wrongSeat = n.stats.wrongSeat :=
  congrArg (fun p => p.2.2.2) h

theorem State.wrongSeat_afterEvent {l : Nat} (v : State) :
    ((v.afterEvent l).line l).stats.wrongSeat = (v.line l).stats.wrongSeat := by
  rw [State.afterEvent, Line.wrongSeat_of_heard (State.heard_settle _ l), (v.started_line l l).2.2.2.1]

/-- The answer to a tap at a wrong seat: the note WRONG_SEAT, and one more counted. -/
theorem State.wrongSeat_index (w : State) (l : Nat) (ha : 1 ≤ a) (hb : a ≤ 64) (j : Nat) :
    w.wrongSeat (seatIndex l a) j =
      (w.queueNote l a (.wrongSeat (w.seat j).row (w.seat j).column)).onStats l LineStats.wrong := by
  rw [State.wrongSeat, State.noteSeat_index _ _ ha hb, seatLine_index _ ha hb]
  rfl

theorem State.stats_queueNote (w : State) (l a : Nat) (note : NoteContent) (m : Nat) :
    ((w.queueNote l a note).line m).stats.wrongSeat = (w.line m).stats.wrongSeat := by
  rw [State.line_queueNote]
  split
  · next own => rw [own]; unfold Line.queueNote; split <;> rfl
  · rfl

/-- A note queued at `l`, and one more tap at a wrong seat counted there. -/
theorem Told.wrong {x : DeskEvent} {note : NoteContent} (hl : l < 7) (ha : 1 ≤ a) :
    let v := ((s.atEvent l a x).queueNote l a note).onStats l LineStats.wrong
    Told s (v.afterEvent l) l a note ∧ (v.line l).stats.wrongSeat = statUp (s.line l).stats.wrongSeat ∧
      Moves [] (s.atEvent l a x) v := by
  intro v
  have queued : (s.line l).takesNote = true → (((s.atEvent l a x).queueNote l a note).line l).fifo.getLast? = some ⟨a, note⟩ :=
    fun takes => by
      rw [State.line_queueNote, if_pos rfl]
      exact Line.last_queueNote (by rw [State.atEvent_takesNote]; exact takes) a note
  have stats : (((s.atEvent l a x).queueNote l a note).line l).stats.wrongSeat = (s.line l).stats.wrongSeat := by
    rw [State.stats_queueNote, State.atEvent_stats]; rfl
  have first := Posted.queueNote (s.atEvent l a x) l a note
  have moved := Moves.queueNote (s.atEvent l a x) l a note
  obtain ⟨w, hw⟩ : ∃ w, (s.atEvent l a x).queueNote l a note = w := ⟨_, rfl⟩
  have hv : v = w.onStats l LineStats.wrong := congrArg (fun w => State.onStats w l LineStats.wrong) hw
  clear_value v
  subst hv
  rw [hw] at queued stats first moved
  have m := moved.next (.onStats w l LineStats.wrong)
  have posted := first.trans (.wrong w l)
  have line := w.line_wrong l
  have known : (w.onStats l LineStats.wrong).configured l a = s.configured l a :=
    (State.configured_of_seats (m.frame.2 .stations (by decide)) (fun i => by rw [m.frame.seat]) l a).trans
      (s.atEvent_configured l a x l a)
  generalize w.onStats l LineStats.wrong = v at m posted line known ⊢
  refine ⟨.after hl ha posted known fun takes => by rw [line]; exact queued takes, ?_, m⟩
  rw [line]
  exact congrArg statUp stats

theorem tappedElsewhere_of {l : Fin 7} {bytes : List Byte} {x : DeskEvent} {j : Nat} (hears : s.hears l a bytes x)
    (fits : x.definedFor l = true) (ha : 1 ≤ a) (hb : a ≤ 64)
    (answer : (s.atEvent l a x).handOn l a (.event x) = (s.atEvent l a x).wrongSeat (seatIndex l a) j) :
    TappedElsewhere s l a bytes j := by
  have run := exec_hears hears fits
  rw [answer, State.wrongSeat_index _ _ ha hb, State.atEvent_seat] at run
  obtain ⟨told, stats, m⟩ := Told.wrong (s := s) (x := x) (note := .wrongSeat (s.seat j).row (s.seat j).column) l.isLt ha
  have frame := (s.atEvent_unchanged l a x).trans (m.frame.weaken nofun)
  generalize ((s.atEvent l a x).queueNote l a (.wrongSeat (s.seat j).row (s.seat j).column)).onStats l LineStats.wrong = v
    at run told stats frame
  exact ⟨_, run, frame.after (by decide), told, (State.wrongSeat_afterEvent v).trans stats⟩

theorem tap_marks {l : Fin 7} {bytes : List Byte} {x : DeskEvent} (hears : s.hears l a bytes x)
    (fits : x.definedFor l = true) (ha : 1 ≤ a) (hb : a ≤ 64)
    (answer : (s.atEvent l a x).handOn l a (.event x) = (s.atEvent l a x).setMark (seatIndex l a)) :
    ∃ t, exec (.lineReplyReceived l bytes) s = .next t ∧ ((s.line l).state ≠ .quiet → a ∈ (t.line l).marks) ∧
      (t.line l).fifo <:+ (s.line l).fifo ∧ PresencesStand s t l a ∧ Unchanged [.presence] s t := by
  have run := exec_hears hears fits
  rw [answer] at run
  have marked := Marked.setMark (s.atEvent l a x) (seatIndex l a)
  have loud : (s.line l).state ≠ .quiet → ((s.atEvent l a x).line l).state ≠ .quiet := fun h => by
    rw [(s.atEvent_fields l a x l).1]; exact h
  have mark : (s.line l).state ≠ .quiet → a ∈ (((s.atEvent l a x).setMark (seatIndex l a)).line l).marks := fun h =>
    (s.atEvent l a x).marked_index l ha hb (loud h)
  have m := Moves.setMark (s.atEvent l a x) (seatIndex l a)
  have fifo := (marked.fifo l).trans (s.atEvent_fields l a x l).2.1
  have loud' : (s.line l).state ≠ .quiet → (((s.atEvent l a x).setMark (seatIndex l a)).line l).state ≠ .quiet := fun h => by
    rw [marked.posted.state]; exact loud h
  have posted := marked.posted
  generalize (s.atEvent l a x).setMark (seatIndex l a) = v at run m mark fifo loud' posted
  refine ⟨_, run, fun h => State.marked_after l.isLt (loud' h) (mark h), ?_, .after posted,
    ((s.atEvent_unchanged l a x).trans (m.frame.weaken nofun)).after (by decide)⟩
  rw [← fifo, ← (v.started_line l l).2.1]
  exact State.fifo_settle l.isLt (v.onLine l Line.startTest)

/-! ## BREAK -/

/-- What a BREAK press makes of a WRITING or ON_BREAK entry (R65). -/
def Entry.broken (e : Entry) : Entry :=
  if e.state = .writing then { e with state := .onBreak, breaks := satUp 255 e.breaks } else { e with state := .writing }

theorem State.handOn_break (hl : l < 6) (occ : (s.seat (seatIndex l a)).occ = .occupied k) (found : s.entry k = some e) :
    (s.atEvent l a .takeBreak).handOn l a (.event .takeBreak) = (s.atEvent l a .takeBreak).takeBreak (seatIndex l a) k e := by
  rw [State.handOn_desk _ hl]
  show State.pressBreak _ _ = _
  unfold State.pressBreak
  rw [State.atEvent_seat, occ]
  dsimp only
  rw [State.atEvent_entry, found]

theorem State.takeBreak_broken (w : State) (i : Nat)
    (able : e.state = .writing ∧ 0 < e.remaining ∨ e.state = .onBreak) :
    w.takeBreak i k e = (w.putEntry k e.broken).setMark i := by
  unfold State.takeBreak Entry.broken
  rcases able with ⟨writing, more⟩ | away
  · rw [writing]; dsimp only; rw [if_pos more, if_pos rfl]
  · rw [away]; rfl

theorem break_taken {l : Fin 7} {bytes : List Byte} (hl : l.val < 6) (ha : 1 ≤ a) (hb : a ≤ 64)
    (hears : s.hears l a bytes .takeBreak) (occ : (s.seat (seatIndex l a)).occ = .occupied k) (found : s.entry k = some e)
    (able : e.state = .writing ∧ 0 < e.remaining ∨ e.state = .onBreak) :
    ∃ t, exec (.lineReplyReceived l bytes) s = .next t ∧ t.entry k = some e.broken ∧
      (∀ j, j ≠ k → t.entry j = s.entry j) ∧ ((s.line l).state ≠ .quiet → a ∈ (t.line l).marks) ∧
      PresencesStand s t l a ∧ Unchanged [.roster, .presence] s t := by
  have run := exec_hears hears (fits_desk hl _ ⟨0, .inr (.inr (.inl rfl))⟩)
  rw [State.handOn_break hl occ found, State.takeBreak_broken _ _ able] at run
  have put := Marked.putEntry (s.atEvent l a .takeBreak) k e.broken
  have m := (Moves.putEntry (s.atEvent l a .takeBreak) k e.broken)
  have entry := fun j => State.entry_putEntry (s.atEvent l a .takeBreak) k j e.broken
  generalize (s.atEvent l a .takeBreak).putEntry k e.broken = w at run put m entry
  have mark : (s.line l).state ≠ .quiet → a ∈ ((w.setMark (seatIndex l a)).line l).marks := fun h =>
    w.marked_index l ha hb (by rw [put.posted.state, (s.atEvent_fields l a _ l).1]; exact h)
  have marked := put.trans (.setMark w (seatIndex l a))
  have tail := Moves.setMark w (seatIndex l a)
  generalize w.setMark (seatIndex l a) = v at run mark marked tail
  have entry' : ∀ j, (v.afterEvent l).entry j = if k = j then some e.broken else s.entry j := fun j => by
    rw [State.entry_afterEvent, tail.frame.entry, entry, State.atEvent_entry]
  exact ⟨_, run, by rw [entry', if_pos rfl], fun j other => by rw [entry', if_neg (Ne.symm other)], fun h =>
    State.marked_after l.isLt (by rw [marked.posted.state, (s.atEvent_fields l a _ l).1]; exact h) (mark h),
    .after marked.posted,
    (((s.atEvent_unchanged l a _).weaken (by decide)).trans ((m.next tail).frame.weaken (by decide))).after (by decide)⟩

theorem break_refused {l : Fin 7} {bytes : List Byte} (hl : l.val < 6) (ha : 1 ≤ a) (hb : a ≤ 64)
    (hears : s.hears l a bytes .takeBreak) (occ : (s.seat (seatIndex l a)).occ = .occupied k) (found : s.entry k = some e)
    (unable : e.state = .seated ∨ e.state = .writing ∧ e.remaining = 0) : Turned s l a bytes .breakRefused := by
  refine turned_of hears (fits_desk hl _ ⟨0, .inr (.inr (.inl rfl))⟩) ha ?_
  rw [State.handOn_break hl occ found, ← State.noteSeat_index _ _ ha hb]
  unfold State.takeBreak
  rcases unable with seated | ⟨writing, none⟩
  · rw [seated]
  · rw [writing]; dsimp only; rw [if_neg (by omega)]

/-! ## HELP -/

theorem Office.notices_notify (o : Office) (n : Notice) :
    (o.notify n).notices = o.notices ++ if 32 ≤ o.notices.length then [] else [n] := by
  have size : Config.noticeQueueSize = 32 := rfl
  rw [Office.notify, size]
  by_cases room : o.notices.length < 32
  · rw [if_pos room, if_neg (Nat.not_le_of_lt room)]
  · rw [if_neg room, if_pos (Nat.le_of_not_lt room), List.append_nil]

/-- What a HELP press puts to the office link (R68, R187, R189, R190). -/
theorem State.office_help (w : State) (x : Subject) (help : x.category = .help) :
    (∀ y, y ≠ .noticeLost → (y ∈ (w.notify x).office.flags ↔ y = .help ∨ y ∈ w.office.flags)) ∧
      (w.notify x).office.notices = w.office.notices ++
        if Category.help ∈ w.hall.masks ∨ 32 ≤ w.office.notices.length then [] else [⟨x, w.time.hallTime⟩] := by
  refine ⟨fun y lost => by rw [State.notify_flag _ _ _ lost, help], ?_⟩
  rw [State.notify_office, help]
  by_cases masked : Category.help ∈ w.hall.masks
  · rw [if_pos masked, if_pos (.inl masked), List.append_nil]
  · rw [if_neg masked, Office.notices_notify]
    simp only [masked, false_or]

theorem State.office_atEvent (s : State) (l a : Nat) (x : DeskEvent) : (s.atEvent l a x).office = s.office := by
  have landed : (s.landed l (.event x)).office = s.office := rfl
  unfold State.atEvent State.countMiss
  split
  · rw [if_pos (show (Heard.event x).good = true from rfl)]; exact landed
  · exact landed

theorem help_raised {l : Fin 7} {bytes : List Byte} (hl : l.val < 6) (hears : s.hears l a bytes .help) :
    ∃ t, exec (.lineReplyReceived l bytes) s = .next t ∧ Category.help ∈ t.office.flags ∧
      (Category.help ∉ s.hall.masks → s.office.notices.length < 32 →
        ⟨.help (seatIndex l a) s.time.hallTime (s.seat (seatIndex l a)).occ.slot, s.time.hallTime⟩ ∈ t.office.notices) ∧
      (Category.help ∈ s.hall.masks → Unchanged [.presence, .flags] s t) ∧
      (∀ x, x ∉ [.help, .lineTestDone, .noticeLost] → (x ∈ t.office.flags ↔ x ∈ s.office.flags)) ∧
      (let others := fun n : Notice => decide (n.subject.category ≠ .lineTestDone)
       t.office.notices.filter others = s.office.notices.filter others ++
        if Category.help ∈ s.hall.masks ∨ 32 ≤ s.office.notices.length then []
        else [⟨.help (seatIndex l a) s.time.hallTime (s.seat (seatIndex l a)).occ.slot, s.time.hallTime⟩]) ∧
      PresencesStand s t l a ∧ Unchanged [.presence, .flags, .notices] s t := by
  have run := exec_hears hears (fits_desk hl _ ⟨0, .inr (.inr (.inr rfl))⟩)
  have frame := s.atEvent_unchanged l a .help
  have time : (s.atEvent l a .help).time = s.time := frame.2 .time (by decide)
  have hall : (s.atEvent l a .help).hall = s.hall := frame.2 .hall (by decide)
  have answer : (s.atEvent l a .help).handOn l a (.event .help) = (s.atEvent l a .help).notify
      (.help (seatIndex l a) s.time.hallTime (s.seat (seatIndex l a)).occ.slot) := by
    rw [State.handOn_desk _ hl]
    show State.pressHelp _ _ = _
    rw [State.pressHelp, time, State.atEvent_seat]
  obtain ⟨flags, notices⟩ := (s.atEvent l a .help).office_help
    (.help (seatIndex l a) s.time.hallTime (s.seat (seatIndex l a)).occ.slot) rfl
  have m := Moves.notify (s.atEvent l a .help) (.help (seatIndex l a) s.time.hallTime (s.seat (seatIndex l a)).occ.slot)
  have posted : Posted (s.atEvent l a .help) ((s.atEvent l a .help).notify
    (.help (seatIndex l a) s.time.hallTime (s.seat (seatIndex l a)).occ.slot)) := .notify _ _
  rw [answer] at run
  rw [State.office_atEvent, hall, time] at notices
  rw [State.office_atEvent] at flags
  generalize (s.atEvent l a .help).notify (.help (seatIndex l a) s.time.hallTime (s.seat (seatIndex l a)).occ.slot) = v
    at run flags notices m posted
  have after := (Moves.afterEvent v l).frame
  have told := after.2 .flags (by decide)
  have queue := after.2 .notices (by decide)
  have whole : (v.afterEvent l).office.notices.filter (fun n => decide (n.subject.category ≠ .lineTestDone)) =
      s.office.notices.filter (fun n => decide (n.subject.category ≠ .lineTestDone)) ++
        if Category.help ∈ s.hall.masks ∨ 32 ≤ s.office.notices.length then []
        else [⟨.help (seatIndex l a) s.time.hallTime (s.seat (seatIndex l a)).occ.slot, s.time.hallTime⟩] := by
    refine queue.trans ?_
    rw [notices, List.filter_append]
    split <;> rfl
  refine ⟨_, run, (told _ (by decide) (by decide)).2 ((flags _ (by decide)).2 (.inl rfl)), fun unmasked room => ?_,
    fun masked => ?_, fun x other => ?_, whole, .after posted,
    ((frame.weaken (by decide)).trans (m.frame.weaken (by decide))).after (by decide)⟩
  · rw [if_neg (by simp [unmasked, room])] at whole
    exact (List.mem_filter.1 (whole ▸ List.mem_append_right _ List.mem_cons_self)).1
  · rw [if_pos (.inl masked), List.append_nil] at notices
    refine ⟨after.1.trans (m.frame.1.trans frame.1), fun p out => ?_⟩
    by_cases note : p = .notices
    · subst note
      exact queue.trans (congrArg (List.filter _) notices)
    · have listed : p ∉ [Part.presence, .flags, .notices] := by simpa [note] using out
      exact (((frame.weaken (by decide)).trans (m.frame.weaken (by decide))).after (l := l) (by decide)).2 p listed
  · simp only [List.mem_cons, List.not_mem_nil, or_false, not_or] at other
    obtain ⟨h1, h2, h3⟩ := other
    rw [told x h2 h3, flags x h3]
    simp [h1]

/-- Settles O22, event by event. -/
theorem tapOnTheHeldSeatSeatsTheCandidate : Obligations.TapOnTheHeldSeatSeatsTheCandidate := by
  refine ⟨fun l a id k e bytes body s hl ha hb flight reply event found _ allocated own =>
    tap_seats hl ha hb ⟨flight, body, reply, event⟩ found allocated own, fun l a bytes s hl ha hb => ?_⟩
  refine ⟨fun id hears => ⟨fun none => ?_, fun k e found _ => ?_⟩, fun hears => ⟨fun k e occ found =>
    ⟨break_taken hl ha hb hears occ found, break_refused hl ha hb hears occ found⟩, ?_⟩, help_raised hl⟩
  · refine turned_of hears (fits_desk hl _ ⟨id, .inl rfl⟩) ha ?_
    rw [State.handOn_desk _ hl]
    show State.takeTap _ _ _ = _
    unfold State.takeTap
    rw [State.atEvent_activeLookup, none]
    exact State.noteSeat_index _ _ ha hb _
  · have fits := fits_desk hl (.tap id) ⟨id, .inl rfl⟩
    have tapped := State.handOn_tap (l := l) (a := a) hl found
    refine ⟨fun state => ?_, fun state j seat other => ?_, fun state own => ?_, fun state => ?_, fun state => ?_, fun state => ?_⟩
    · exact turned_of hears fits ha (by rw [tapped, state]; exact State.noteSeat_index _ _ ha hb _)
    · refine tappedElsewhere_of hears fits ha hb ?_
      have apart : ¬e.seat = some (seatIndex l a) := by rw [seat]; simpa using other
      rw [tapped]
      cases at_ : e.state <;> simp [at_, EntryState.isSeated] at state <;> dsimp only <;> rw [if_neg apart, seat] <;> rfl
    · refine tap_marks hears fits ha hb ?_
      rw [tapped]
      cases at_ : e.state <;> simp [at_, EntryState.isSeated] at state <;> dsimp only <;> rw [if_pos own]
    · refine turned_of hears fits ha ?_
      rw [tapped]
      rcases state with at_ | at_ | at_ <;> rw [at_] <;> exact State.noteSeat_index _ _ ha hb _
    · exact turned_of hears fits ha (by rw [tapped, state]; exact State.noteSeat_index _ _ ha hb _)
    · exact turned_of hears fits ha (by rw [tapped, state]; exact State.noteSeat_index _ _ ha hb _)
  · refine pressedElsewhere_of hears (fits_desk hl _ ⟨0, .inr (.inr (.inl rfl))⟩) hl ha hb (fun w i n occ => ?_)
      fun w i idle => ?_
    · show State.pressBreak _ _ = _
      rw [State.pressBreak, occ]
    · show State.pressBreak _ _ = _
      unfold State.pressBreak
      rcases idle with occ | ⟨k, n, occ⟩ <;> rw [occ]

end Sys2Proof.Machine
end

section
/-! PROOF. The stations: events turned away, ISSUE and RETURN (O24). -/

namespace Sys2Proof.Machine

set_option Elab.async false

variable {s t u v w : State} {l a k b : Nat} {e : Entry}

/-! ## Station events -/

theorem fits_station (x : DeskEvent) {r : Role} (sends : x.sender = some r) : x.definedFor 6 = true := by
  cases x <;> cases sends <;> rfl

theorem State.handOn_station (w : State) (a : Nat) (x : DeskEvent) : w.handOn 6 a (.event x) = w.stationEvent a x := rfl

theorem State.atEvent_station (s : State) (l a : Nat) (x : DeskEvent) (b : Nat) : (s.atEvent l a x).station b = s.station b :=
  (s.atEvent_unchanged l a x).station b

/-- An event that the role may not send is answered WRONG_STATION (R101). -/
theorem State.stationEvent_wrong {x : DeskEvent} {r : Role} (w : State) (a : Nat) (sends : x.sender = some r)
    (other : (w.station a).role ≠ r) : w.stationEvent a x = w.queueNote 6 a .wrongStation := by
  unfold State.stationEvent
  cases x <;> cases sends <;> cases role : (w.station a).role <;>
    solve
    | rfl
    | exact absurd role other

theorem wrongStation_turned {bytes : List Byte} {x : DeskEvent} {r : Role} (ha : 1 ≤ a) (hears : s.hears 6 a bytes x)
    (sends : x.sender = some r) (other : (s.station a).role ≠ r) : Turned s 6 a bytes .wrongStation :=
  turned_of (l := 6) hears (fits_station x sends) ha
    (((s.atEvent 6 a x).handOn_station a x).trans
      ((s.atEvent 6 a x).stationEvent_wrong a sends (by rw [State.atEvent_station]; exact other)))

theorem exec_station {bytes : List Byte} {x : DeskEvent} {r : Role} (hears : s.hears 6 a bytes x) (sends : x.sender = some r) :
    exec (.lineReplyReceived 6 bytes) s = .next (((s.atEvent 6 a x).stationEvent a x).afterEvent 6) :=
  exec_hears (l := 6) hears (fits_station x sends)

/-- A station is told what has come about without the lines. -/
theorem Told.station {x : DeskEvent} (note : NoteContent) (ha : 1 ≤ a) (lines : w.lines = (s.atEvent 6 a x).lines)
    (seats : w.seats = (s.atEvent 6 a x).seats) (stations : w.stations = (s.atEvent 6 a x).stations) :
    Told s ((w.queueNote 6 a note).afterEvent 6) 6 a note :=
  .marked (by decide) ha (.of_lines lines fun i => by rw [State.seat, State.seat, seats])
    ((State.configured_congr seats stations 6 a).trans (s.atEvent_configured 6 a x 6 a))

/-! ## The tests of a serial (R77, R126) -/

theorem State.bookletRefusal_congr (same : t.booklets = s.booklets) (k : Nat) (e : Entry) (b : Nat) :
    t.bookletRefusal k e b = s.bookletRefusal k e b := by
  unfold State.bookletRefusal
  rw [same]

theorem State.owned_iff (s : State) (k b : Nat) :
    ((mapGet s.booklets b).any fun r => decide (r.owner ≠ k)) = false ↔ ∀ r, mapGet s.booklets b = some r → r.owner = k := by
  cases mapGet s.booklets b <;> simp

theorem State.bookletRefusal_none (s : State) (passes : s.passesBooklet k e b) : s.bookletRefusal k e b = none := by
  have list : Config.bookletListSize = 8 := rfl
  have table : Config.bookletTableSize = 2048 := rfl
  obtain ⟨owned, room⟩ := passes
  unfold State.bookletRefusal
  rw [(s.owned_iff k b).2 owned, if_neg Bool.false_ne_true, list, table]
  by_cases listed : b ∈ e.booklets
  · rw [if_pos listed]
  · obtain ⟨short, free⟩ := room.resolve_left listed
    rw [if_neg listed, if_neg (by omega), if_neg (by omega)]

theorem bookletTurned_of {turned : NoteContent → Prop} (h : ∀ note, s.bookletRefusal k e b = some note → turned note) :
    BookletTurned s k e b turned := by
  have list : Config.bookletListSize = 8 := rfl
  have table : Config.bookletTableSize = 2048 := rfl
  unfold State.bookletRefusal at h
  rw [list, table] at h
  refine ⟨fun r found other => h _ ?_, fun owned unlisted => ⟨fun full => h _ ?_, fun short full => h _ ?_⟩⟩
  · rw [found, Option.any_some, decide_eq_true other, if_pos rfl]
  · rw [(s.owned_iff k b).2 owned, if_neg Bool.false_ne_true, if_neg unlisted, if_pos full]
  · rw [(s.owned_iff k b).2 owned, if_neg Bool.false_ne_true, if_neg unlisted, if_neg (by omega), if_pos full]

/-! ## The issue of a serial (R124, R125, R127) -/

theorem State.entry_issueNew (s : State) (found : s.entry k = some e) (named : b ≠ 0) (j : Nat) :
    (s.issueNew k e b).entry j = if k = j then some { e with booklets := e.given b } else s.entry j := by
  unfold State.issueNew Entry.given
  by_cases listed : b ∈ e.booklets
  · rw [if_pos listed]
    by_cases same : k = j
    · rw [if_pos same, ← same, found, if_pos (Or.inr listed)]
    · rw [if_neg same]
  · rw [if_neg listed]
    have entry : (s.issue k b).entry j = (s.onEntry k fun e => { e with booklets := e.booklets ++ [b] }).entry j := rfl
    rw [entry, State.entry_onEntry, found, if_neg (not_or.2 ⟨named, listed⟩)]
    rfl

theorem bookletIssued_issueNew (s : State) (named : b ≠ 0) (k : Nat) (e : Entry) : BookletIssued s (s.issueNew k e b) k e b := by
  unfold BookletIssued State.issueNew
  by_cases listed : b ∈ e.booklets
  · rw [if_pos listed, if_pos (.inr listed)]
    exact ⟨rfl, rfl⟩
  · rw [if_neg listed, if_neg (not_or.2 ⟨named, listed⟩)]
    have table : (s.issue k b).booklets = mapPut s.booklets b ⟨k, false⟩ := rfl
    rw [table]
    exact ⟨by simp, fun x other => by simp [Ne.symm other], rfl⟩

theorem BookletIssued.congr (h : BookletIssued u v k e b) (before : Part.same s u .booklets) (after : Part.same v t .booklets) :
    BookletIssued s t k e b := by
  obtain ⟨table, stats⟩ := before
  obtain ⟨table', stats'⟩ := after
  unfold BookletIssued at h ⊢
  rw [table', stats', ← table, ← stats]
  exact h

theorem State.issueNew_lines (s : State) (k : Nat) (e : Entry) (b : Nat) : (s.issueNew k e b).lines = s.lines := by
  have put : ∀ f : Entry → Entry, (s.onEntry k f).lines = s.lines := fun f => by
    unfold State.onEntry; split <;> rfl
  unfold State.issueNew
  split
  · rfl
  · exact put _

theorem Entry.length_given (named : b ≠ 0) (e : Entry) :
    (e.given b).length = if b ∈ e.booklets then e.booklets.length else e.booklets.length + 1 := by
  unfold Entry.given
  by_cases listed : b ∈ e.booklets <;> simp [listed, named]

theorem State.takeIssue_idle {id : Nat} (w : State) (named : b ≠ 0) (found : w.activeLookup id = some (k, e))
    (idle : e.state.isSeated = false) : w.takeIssue a id b = w.queueNote 6 a .notWriting := by
  unfold State.takeIssue
  rw [if_neg named, found]
  dsimp only
  rw [if_pos idle]
  rfl

theorem State.takeIssue_refused {id : Nat} {note : NoteContent} (w : State) (named : b ≠ 0)
    (found : w.activeLookup id = some (k, e)) (seated : e.state.isSeated = true)
    (refused : w.bookletRefusal k e b = some note) : w.takeIssue a id b = w.queueNote 6 a note := by
  unfold State.takeIssue
  rw [if_neg named, found]
  dsimp only
  rw [seated, if_neg nofun, refused]
  rfl

section
variable {id : Nat} {bytes : List Byte} (ha : 1 ≤ a) (hears : s.hears 6 a bytes (.issue id b))
  (role : (s.station a).role = .issue)
include role

theorem State.stationEvent_issue : (s.atEvent 6 a (.issue id b)).stationEvent a (.issue id b) =
    (s.atEvent 6 a (.issue id b)).takeIssue a id b := by
  unfold State.stationEvent
  rw [State.atEvent_station, role]

include ha hears

theorem issue_turned {note : NoteContent} (answer : (s.atEvent 6 a (.issue id b)).takeIssue a id b =
    (s.atEvent 6 a (.issue id b)).queueNote 6 a note) : Turned s 6 a bytes note :=
  turned_of (l := 6) hears rfl ha ((State.stationEvent_issue role).trans answer)

theorem issue_taken (named : b ≠ 0) (found : s.activeLookup id = some (k, e)) (at_ : s.entry k = some e)
    (seated : e.state.isSeated = true) (passes : s.passesBooklet k e b) :
    ∃ t, exec (.lineReplyReceived 6 bytes) s = .next t ∧ BookletIssued s t k e b ∧
      t.entry k = some { e with booklets := e.given b } ∧ (∀ j, j ≠ k → t.entry j = s.entry j) ∧
      Told s t 6 a (.issued b (e.given b).length) ∧ Unchanged [.booklets, .roster, .presence] s t := by
  have frame := s.atEvent_unchanged 6 a (.issue id b)
  have run := exec_station hears rfl
  have refusal : (s.atEvent 6 a (.issue id b)).bookletRefusal k e b = none :=
    (State.bookletRefusal_congr (frame.2 .booklets (by decide)).1 k e b).trans (s.bookletRefusal_none passes)
  have answer : (s.atEvent 6 a (.issue id b)).takeIssue a id b =
      ((s.atEvent 6 a (.issue id b)).issueNew k e b).queueNote 6 a (.issued b (e.given b).length) := by
    unfold State.takeIssue
    rw [if_neg named, State.atEvent_activeLookup, found]
    dsimp only
    rw [seated, if_neg nofun, refusal, Entry.length_given named]
    rfl
  rw [State.stationEvent_issue role, answer] at run
  have entry := State.entry_issueNew (s.atEvent 6 a (.issue id b)) ((s.atEvent_entry 6 a _ k).trans at_) named
  have issued := bookletIssued_issueNew (s.atEvent 6 a (.issue id b)) named k e
  have m := Moves.issueNew (s.atEvent 6 a (.issue id b)) k e b
  have told : Told s ((((s.atEvent 6 a (.issue id b)).issueNew k e b).queueNote 6 a (.issued b (e.given b).length)).afterEvent 6)
      6 a (.issued b (e.given b).length) :=
    .station _ ha (State.issueNew_lines _ k e b) (m.frame.2 .seats (by decide)) (m.frame.2 .stations (by decide))
  generalize (s.atEvent 6 a (.issue id b)).issueNew k e b = v at run entry issued m told
  have tail := Moves.queueNote v 6 a (.issued b (e.given b).length)
  generalize v.queueNote 6 a (.issued b (e.given b).length) = x at run told tail
  have after : Moves [.presence] v (x.afterEvent 6) := tail.widen.next (.afterEvent x 6)
  have entry' : ∀ j, (x.afterEvent 6).entry j = if k = j then some { e with booklets := e.given b } else s.entry j := fun j => by
    rw [after.frame.entry, entry, State.atEvent_entry]
  exact ⟨_, run, issued.congr (frame.2 .booklets (by decide)) (after.frame.2 .booklets (by decide)),
    by rw [entry', if_pos rfl], fun j other => by rw [entry', if_neg (Ne.symm other)], told,
    ((frame.weaken (by decide)).trans (m.frame.weaken (by decide))).trans (after.frame.weaken (by decide))⟩

end

/-! ## The return of a serial (R129, R130) -/

/-- Serial `b` marked returned and counted (R129 steps 1 and 2). -/
def State.handedIn (s : State) (k b : Nat) : State :=
  { s with
    booklets := mapPut s.booklets b ⟨k, true⟩
    bookletStats := { s.bookletStats with returned := statUp s.bookletStats.returned } }

theorem State.acceptReturn_eq (s : State) (k b : Nat) : s.acceptReturn k b = (s.handedIn k b).collectTest k := rfl

theorem State.isReturned_handedIn (s : State) (k b x : Nat) :
    (s.handedIn k b).isReturned x = (decide (x = b) || s.isReturned x) := by
  have table : mapGet (s.handedIn k b).booklets x = if b = x then some ⟨k, true⟩ else mapGet s.booklets x := mapGet_mapPut ..
  unfold State.isReturned
  rw [table]
  by_cases same : b = x
  · simp [same]
  · simp [same, Ne.symm same]

/-- The owner of the last serial returned has stopped writing, and its whole list is in (R130). -/
def State.allIn (s : State) (e : Entry) (b : Nat) : Bool :=
  (decide (e.state = .finished) || decide (e.state = .timeUp) ||
    (decide (e.state = .missing) && decide ((s.chan e.channel).state = .reconciled))) &&
    e.booklets.all fun x => decide (x = b) || s.isReturned x

theorem State.collects_handedIn (s : State) (k : Nat) (listed : b ∈ e.booklets) : (s.handedIn k b).collects e = s.allIn e b := by
  have more : e.booklets.isEmpty = false := by
    cases list : e.booklets with
    | nil => rw [list] at listed; cases listed
    | cons => rfl
  unfold State.collects State.allIn
  rw [more, Bool.not_false, Bool.and_true]
  congr 2
  funext x
  exact s.isReturned_handedIn k b x

theorem Moves.handedIn (s : State) (k b : Nat) : Moves [.booklets] s (s.handedIn k b) :=
  .booklets _ _ _ fun h => mapRises_mapPut b _ (by simpa using h)

theorem State.collectTest_lines (s : State) (k : Nat) : (s.collectTest k).lines = s.lines := by
  have put : ∀ f : Entry → Entry, (s.onEntry k f).lines = s.lines := fun f => by
    unfold State.onEntry; split <;> rfl
  unfold State.collectTest
  split
  · split
    · unfold State.reconcile; split
      · exact put _
      · exact put _
    · rfl
  · rfl

/-- What a collected test that passes leaves of the channel (R51, R132). -/
theorem State.chan_collectTest (s : State) (found : s.entry k = some e) :
    if s.collects e = true ∧ (s.chan e.channel).state = .collecting ∧ (s.collectTest k).reconciles e.channel = true then
      (s.collectTest k).chan e.channel = { s.chan e.channel with state := .reconciled } ∧
        (∀ c, c ≠ e.channel → (s.collectTest k).chan c = s.chan c) ∧ Category.channelPhase ∈ (s.collectTest k).office.flags
    else Unchanged [.roster] s (s.collectTest k) := by
  have one : s.collectTest k = if s.collects e then
      (s.onEntry k fun e => { e with state := .collected }).reconcile e.channel else s := by
    unfold State.collectTest; rw [found]
  rw [one]
  by_cases passes : s.collects e = true
  · rw [if_pos passes]
    have put := Moves.onEntry s k fun e => { e with state := .collected }
    generalize (s.onEntry k fun e => { e with state := .collected }) = v at put
    have tests : (v.reconcile e.channel).reconciles e.channel = v.reconciles e.channel :=
      State.reconciles_congr ((Moves.reconcile v e.channel).frame.2 .roster (by decide)) _
    rw [tests, ← put.frame.chan]
    by_cases last : (v.chan e.channel).state = .collecting ∧ v.reconciles e.channel = true
    · rw [if_pos ⟨passes, last⟩]
      refine ⟨by rw [State.chan_reconcile, if_pos ⟨rfl, last⟩], fun c other => ?_, ?_⟩
      · rw [State.chan_reconcile, if_neg fun h => other h.1.symm, put.frame.chan]
      · rw [State.reconcile, if_pos last, State.enterPhase]
        exact (State.notify_flag _ _ _ (by decide)).2 (.inl rfl)
    · rw [if_neg fun h => last h.2, State.reconcile, if_neg last]
      exact put.frame
  · rw [if_neg passes, if_neg fun h => passes h.1]
    exact .refl _ s

/-- What a serial handed in leaves: the first clauses of `Returned`, before the station is told. -/
theorem State.acceptReturn_leaves (s : State) (found : s.entry k = some e) (listed : b ∈ e.booklets) :
    let v := s.acceptReturn k b
    (v.booklets = mapPut s.booklets b ⟨k, true⟩ ∧
        v.bookletStats = { s.bookletStats with returned := statUp s.bookletStats.returned }) ∧
      (∀ j, v.entry j = if k = j then some (if s.allIn e b then { e with state := .collected } else e) else s.entry j) ∧
      if s.allIn e b = true ∧ (s.chan e.channel).state = .collecting ∧ v.reconciles e.channel = true then
        v.chan e.channel = { s.chan e.channel with state := .reconciled } ∧
          (∀ c, c ≠ e.channel → v.chan c = s.chan c) ∧ Category.channelPhase ∈ v.office.flags
      else Unchanged [.booklets, .roster] s v := by
  intro v
  have v_eq : v = (s.handedIn k b).collectTest k := rfl
  clear_value v
  subst v_eq
  have table := (Moves.collectTest (s.handedIn k b) k).frame.2 .booklets (by decide)
  have first := (Moves.handedIn s k b).frame
  have collects := s.collects_handedIn k listed
  have entry := (s.handedIn k b).entry_collectTest k
  have chan := State.chan_collectTest (s.handedIn k b) (k := k) (e := e) ((first.entry k).trans found)
  rw [collects, first.chan] at chan
  refine ⟨table, fun j => ?_, ?_⟩
  · rw [entry, first.entry, first.entry, found, Option.map_some, State.tested, collects]
  · split
    · next all =>
      rw [if_pos all] at chan
      exact ⟨chan.1, fun c other => (chan.2.1 c other).trans (first.chan c), chan.2.2⟩
    · next some =>
      rw [if_neg some] at chan
      exact (first.weaken (by decide)).trans (chan.weaken (by decide))

/-- The serials of the list of `e` that are still out once `b` has come back. -/
def State.stillOut (s : State) (e : Entry) (b : Nat) : List Nat :=
  e.booklets.filter fun x => !(decide (x = b) || s.isReturned x)

theorem State.outOf_congr (same : t.booklets = s.booklets) (e : Entry) (b : Nat) : t.stillOut e b = s.stillOut e b := by
  unfold State.stillOut
  congr 1
  funext x
  rw [State.isReturned_congr same]

/-- What an accepted return does, with the answer to the station (R129). -/
theorem State.takeReturn_returned (w : State) (named : b ≠ 0) (out : mapGet w.booklets b = some ⟨k, false⟩)
    (found : w.entry k = some e) (stopped : e.state.isSeated = false) (opened : (w.chan e.channel).state ≠ .releasing)
    (listed : b ∈ e.booklets) :
    w.takeReturn a b = (w.acceptReturn k b).queueNote 6 a
      (.returned b (w.stillOut e b).length (w.allIn e b || decide (e.state = .collected))) := by
  obtain ⟨⟨table, -⟩, entry, -⟩ := w.acceptReturn_leaves found listed
  have left : (w.acceptReturn k b).outOf e.booklets = w.stillOut e b := by
    unfold State.outOf State.stillOut
    congr 1
    funext x
    rw [State.isReturned_congr (t := w.acceptReturn k b) (s := w.handedIn k b) table, State.isReturned_handedIn]
  have done : ((w.acceptReturn k b).entry k).any (fun e => decide (e.state = .collected)) =
      (w.allIn e b || decide (e.state = .collected)) := by
    rw [entry, if_pos rfl]
    cases w.allIn e b <;> simp
  unfold State.takeReturn
  rw [if_neg named, out]
  dsimp only
  rw [if_neg Bool.false_ne_true, found, Option.any_some, Option.any_some, stopped, if_neg Bool.false_ne_true,
    decide_eq_false opened, if_neg Bool.false_ne_true, done, ← left]
  rfl

/-- One more duplicate return (R128). -/
def State.countDuplicate (s : State) : State :=
  { s with bookletStats := { s.bookletStats with duplicate := statUp s.bookletStats.duplicate } }

theorem State.bookletStats_countDuplicate (s : State) :
    s.countDuplicate.bookletStats = { s.bookletStats with duplicate := statUp s.bookletStats.duplicate } := rfl

theorem Moves.countDuplicate (s : State) : Moves [.booklets] s s.countDuplicate :=
  .booklets _ _ _ fun h => by simpa using h

theorem State.keeps_countDuplicate (s : State) : s.countDuplicate.lines = s.lines ∧ s.countDuplicate.seats = s.seats ∧
    s.countDuplicate.stations = s.stations ∧ s.countDuplicate.booklets = s.booklets := ⟨rfl, rfl, rfl, rfl⟩

theorem State.takeReturn_duplicate (w : State) (named : b ≠ 0) (twice : mapGet w.booklets b = some ⟨k, true⟩) :
    w.takeReturn a b = w.countDuplicate.queueNote 6 a (.duplicateReturn b) := by
  unfold State.takeReturn
  rw [if_neg named, twice]
  dsimp only
  rw [if_pos rfl]
  rfl

section
variable {bytes : List Byte} (ha : 1 ≤ a) (hears : s.hears 6 a bytes (.hand b)) (role : (s.station a).role = .collect)
include role

theorem State.stationEvent_hand : (s.atEvent 6 a (.hand b)).stationEvent a (.hand b) =
    (s.atEvent 6 a (.hand b)).takeReturn a b := by
  unfold State.stationEvent
  rw [State.atEvent_station, role]

include ha hears

theorem hand_turned {note : NoteContent} (answer : (s.atEvent 6 a (.hand b)).takeReturn a b =
    (s.atEvent 6 a (.hand b)).queueNote 6 a note) : Turned s 6 a bytes note :=
  turned_of (l := 6) hears rfl ha ((State.stationEvent_hand role).trans answer)

theorem hand_duplicate (named : b ≠ 0) (twice : mapGet s.booklets b = some ⟨k, true⟩) :
    ∃ t, exec (.lineReplyReceived 6 bytes) s = .next t ∧ t.booklets = s.booklets ∧
      t.bookletStats = { s.bookletStats with duplicate := statUp s.bookletStats.duplicate } ∧
      Told s t 6 a (.duplicateReturn b) ∧ Unchanged [.booklets, .presence] s t := by
  have frame := s.atEvent_unchanged 6 a (.hand b)
  have run := exec_station hears rfl
  obtain ⟨table, stats⟩ := frame.2 .booklets (by decide)
  rw [State.stationEvent_hand role, State.takeReturn_duplicate _ named (by rw [table]; exact twice)] at run
  have m := Moves.countDuplicate (s.atEvent 6 a (.hand b))
  obtain ⟨lines, seats, stations, same'⟩ := State.keeps_countDuplicate (s.atEvent 6 a (.hand b))
  have told := Told.station (.duplicateReturn b) ha lines seats stations
  have same := State.bookletStats_countDuplicate (s.atEvent 6 a (.hand b))
  rw [stats] at same
  rw [table] at same'
  generalize (s.atEvent 6 a (.hand b)).countDuplicate = v at run m told same same'
  have after : Moves [.presence] v ((v.queueNote 6 a (.duplicateReturn b)).afterEvent 6) :=
    (Moves.queueNote v 6 a (.duplicateReturn b)).widen.next (.afterEvent _ 6)
  generalize (v.queueNote 6 a (.duplicateReturn b)).afterEvent 6 = x at run told after
  obtain ⟨table', stats'⟩ := after.frame.2 .booklets (by decide)
  exact ⟨x, run, table'.trans same', stats'.trans same, told,
    ((frame.weaken (by decide)).trans (m.frame.weaken (by decide))).trans (after.frame.weaken (by decide))⟩

/-- An accepted return. -/
theorem hand_returned (named : b ≠ 0) (out : mapGet s.booklets b = some ⟨k, false⟩) (found : s.entry k = some e)
    (stopped : e.state.isSeated = false) (opened : (s.chan e.channel).state ≠ .releasing) (listed : b ∈ e.booklets) :
    ∃ t, exec (.lineReplyReceived 6 bytes) s = .next t ∧ Returned s t a k e b := by
  have frame := s.atEvent_unchanged 6 a (.hand b)
  have run := exec_station hears rfl
  obtain ⟨table, stats⟩ := frame.2 .booklets (by decide)
  have here := (s.atEvent_entry 6 a (.hand b) k).trans found
  have allIn : (s.atEvent 6 a (.hand b)).allIn e b = s.allIn e b := by
    unfold State.allIn; rw [State.atEvent_chan]; congr 2; funext x; rw [State.isReturned_congr table]
  rw [State.stationEvent_hand role, State.takeReturn_returned _ named (by rw [table]; exact out) here stopped
    (by rw [State.atEvent_chan]; exact opened) listed, allIn, State.outOf_congr table] at run
  obtain ⟨⟨booklets, counted⟩, entry, chan⟩ := State.acceptReturn_leaves (s.atEvent 6 a (.hand b)) here listed
  rw [table] at booklets
  rw [stats] at counted
  rw [allIn, State.atEvent_chan] at chan
  have m := Moves.acceptReturn (s.atEvent 6 a (.hand b)) k b
  have told := Told.station (s := s) (x := .hand b) (w := (s.atEvent 6 a (.hand b)).acceptReturn k b)
    (.returned b (s.stillOut e b).length (s.allIn e b || decide (e.state = .collected))) ha
    (State.collectTest_lines _ k) (m.frame.2 .seats (by decide)) (m.frame.2 .stations (by decide))
  generalize (s.atEvent 6 a (.hand b)).acceptReturn k b = v at run booklets counted entry chan m told
  have after : Moves [.presence] v ((v.queueNote 6 a (.returned b (s.stillOut e b).length
      (s.allIn e b || decide (e.state = .collected)))).afterEvent 6) := (Moves.queueNote v 6 a _).widen.next (.afterEvent _ 6)
  generalize (v.queueNote 6 a (.returned b (s.stillOut e b).length (s.allIn e b || decide (e.state = .collected)))).afterEvent 6 = x
    at run told after
  obtain ⟨table', stats'⟩ := after.frame.2 .booklets (by decide)
  have tests := State.reconciles_congr (after.frame.2 .roster (by decide)) e.channel
  refine ⟨x, run, ?_, fun y other => ?_, stats'.trans counted, ?_, fun j other => ?_, ?_, ?_⟩
  · rw [table', booklets]; simp
  · rw [table', booklets]; simp [Ne.symm other]
  · rw [after.frame.entry, entry, if_pos rfl, allIn]
    show some (if s.allIn e b then _ else e) = some { e with state := if s.allIn e b then _ else e.state }
    cases s.allIn e b <;> rfl
  · rw [after.frame.entry, entry, if_neg (Ne.symm other), State.atEvent_entry]
  · show Told s x 6 a (.returned b (s.stillOut e b).length (decide ((if s.allIn e b then EntryState.collected else e.state) = .collected)))
    cases inn : s.allIn e b <;> simpa [inn] using told
  · rw [← tests] at chan
    by_cases all : s.allIn e b = true ∧ (s.chan e.channel).state = .collecting ∧ x.reconciles e.channel = true
    · rw [if_pos all] at chan
      obtain ⟨own, others, flag⟩ := chan
      refine (if_pos all).mpr ⟨(after.frame.chan _).trans own, fun c other => ?_, ?_,
        ((frame.weaken (by decide)).trans (m.frame.weaken (by decide))).trans (after.frame.weaken (by decide))⟩
      · rw [after.frame.chan, others c other, State.atEvent_chan]
      · exact (after.frame.2 .flags (by decide) _ (by decide) (by decide)).2 flag
    · rw [if_neg all] at chan
      exact (if_neg all).mpr (((frame.weaken (by decide)).trans (chan.weaken (by decide))).trans (after.frame.weaken (by decide)))

end

/-- Settles O24, event by event and test by test. -/
theorem issueAndReturnKeepTheBookletTable : Obligations.IssueAndReturnKeepTheBookletTable := by
  intro a b bytes s ha turned
  refine ⟨fun v r hears sends other => wrongStation_turned ha hears sends other, fun id hears role => ?_, fun hears role => ?_⟩
  · have issued := fun note => issue_turned (note := note) ha hears role
    refine ⟨fun zero => issued _ (by rw [State.takeIssue, if_pos zero]; rfl), fun named none => issued _ ?_,
      fun k e named found at_ => ?_⟩
    · rw [State.takeIssue, if_neg named, State.atEvent_activeLookup, none]; rfl
    · have same := (s.atEvent_unchanged 6 a (.issue id b)).2 .booklets (by decide)
      have lookup := (s.atEvent_activeLookup 6 a (.issue id b) id).trans found
      refine ⟨fun idle => issued _ (State.takeIssue_idle _ named lookup idle), fun seated =>
        ⟨bookletTurned_of fun note refused => issued _ (State.takeIssue_refused _ named lookup seated ?_),
          issue_taken ha hears role named found at_ seated⟩⟩
      rw [State.bookletRefusal_congr same.1, refused]
  · have returned := fun note => hand_turned (note := note) ha hears role
    obtain ⟨table, -⟩ := (s.atEvent_unchanged 6 a (.hand b)).2 .booklets (by decide)
    refine ⟨fun zero => returned _ (by rw [State.takeReturn, if_pos zero]; rfl), fun named none => returned _ ?_,
      fun k named twice => hand_duplicate ha hears role named twice, fun k e named out found => ⟨fun seated => returned _ ?_,
        fun idle closed => returned _ ?_, hand_returned ha hears role named out found⟩⟩
    · rw [State.takeReturn, if_neg named, table, none]; rfl
    · rw [State.takeReturn, if_neg named, table, out]
      dsimp only
      rw [if_neg Bool.false_ne_true, State.atEvent_entry, found, Option.any_some, seated, if_pos rfl]; rfl
    · rw [State.takeReturn, if_neg named, table, out]
      dsimp only
      rw [if_neg Bool.false_ne_true, State.atEvent_entry, found, Option.any_some, Option.any_some, idle,
        if_neg Bool.false_ne_true, State.atEvent_chan, decide_eq_true closed, if_pos rfl]; rfl

end Sys2Proof.Machine
end

section
/-! PROOF. The seat search: what stands beside a seat, the orders of search, the seat found (O23, second part). -/

namespace Sys2Proof.Machine

set_option Elab.async false

variable {s t : State} {e : Entry}

/-! ## The seat table read as a whole -/

theorem State.seat_of_mem (rises : mapRises 0 s.seats = true) {p : Nat × Seat} (listed : p ∈ s.seats) : s.seat p.1 = p.2 := by
  rw [State.seat, tabGet, mapGet_of_mem rises listed, Option.getD_some]

theorem State.mem_of_configured {i : Nat} (set : (s.seat i).configured = true) : (i, s.seat i) ∈ s.seats := by
  cases got : mapGet s.seats i with
  | none =>
    have blank : s.seat i = .blank := by rw [State.seat, tabGet, got, Option.getD_none]
    rw [blank] at set
    cases set
  | some r =>
    have read : s.seat i = r := by rw [State.seat, tabGet, got, Option.getD_some]
    rw [read]
    exact mapGet_mem got

theorem adjacent_iff (a b : Nat) : adjacent a b = true ↔ a = b + 1 ∨ b = a + 1 := by simp [adjacent]

theorem Spacing.neighbours_iff (m : Spacing) (r t : Seat) : m.neighbours r t = true ↔ t.configured = true ∧ Beside m r t := by
  unfold Spacing.neighbours Beside
  cases m <;> simp [adjacent_iff]

/-- A neighbour of seat `i` under the spacing is HELD or OCCUPIED by another candidate of the channel (R83, R93). -/
theorem State.crowded_iff (rises : mapRises 0 s.seats = true) (i c : Nat) (self : Option Nat) :
    s.crowded i c self = true ↔ ∃ j k e, j ≠ i ∧ (s.seat j).configured = true ∧
      Beside (s.chan c).config.spacing (s.seat i) (s.seat j) ∧ (s.seat j).occ.slot = some k ∧ some k ≠ self ∧
      s.entry k = some e ∧ e.channel = c := by
  have taken : ∀ r : Seat, (match r.occ.slot with
      | some k => decide (some k ≠ self) && ((s.entry k).any fun e => decide (e.channel = c))
      | none => false) = true ↔ ∃ k e, r.occ.slot = some k ∧ some k ≠ self ∧ s.entry k = some e ∧ e.channel = c := fun r => by
    cases r.occ.slot <;> simp [Option.any_eq_true]
  unfold State.crowded
  constructor
  · intro near
    obtain ⟨p, listed, test⟩ := List.any_eq_true.1 near
    rw [Bool.and_eq_true, Bool.and_eq_true, decide_eq_true_eq, Spacing.neighbours_iff] at test
    obtain ⟨⟨other, set, beside⟩, occ⟩ := test
    obtain ⟨k, e, slot, apart, found, own⟩ := (taken p.2).1 occ
    have read := s.seat_of_mem rises listed
    exact ⟨p.1, k, e, other, by rw [read]; exact set, by rw [read]; exact beside, by rw [read]; exact slot, apart, found, own⟩
  · rintro ⟨j, k, e, other, set, beside, slot, apart, found, own⟩
    refine List.any_eq_true.2 ⟨(j, s.seat j), s.mem_of_configured set, ?_⟩
    rw [Bool.and_eq_true, Bool.and_eq_true, decide_eq_true_eq, Spacing.neighbours_iff]
    exact ⟨⟨other, set, beside⟩, (taken (s.seat j)).2 ⟨k, e, slot, apart, found, own⟩⟩

theorem State.configured_of_eligible {i : Nat} (h : s.eligible i = true) : (s.seat i).configured = true := by
  unfold State.eligible at h
  simp only [Bool.and_eq_true] at h
  exact h.1.1.1.1

/-! ## The two orders of search (R81, R82) -/

theorem State.mem_accessibleSeats (s : State) (i : Nat) :
    i ∈ s.accessibleSeats ↔ s.eligible i = true ∧ (s.seat i).accessible = true := by
  rw [State.accessibleSeats, List.mem_filter, Bool.and_eq_true]
  refine and_iff_right_of_imp fun ⟨eligible, _⟩ => ?_
  exact List.mem_map.2 ⟨_, s.mem_of_configured (s.configured_of_eligible eligible), rfl⟩

theorem State.seatAt_some (rises : mapRises 0 s.seats = true) {x y i : Nat} (found : s.seatAt x y = some i) :
    (s.seat i).configured = true ∧ (s.seat i).row = x ∧ (s.seat i).column = y := by
  obtain ⟨p, got, rfl⟩ := Option.map_eq_some_iff.1 found
  have test := List.find?_some got
  rw [s.seat_of_mem rises (List.mem_of_find?_eq_some got)]
  simp only [Bool.and_eq_true, decide_eq_true_eq] at test
  exact ⟨test.1.1, test.1.2, test.2⟩

/-- With no position shared, the configured seat at a position is the one found there. -/
theorem State.seatAt_own (rises : mapRises 0 s.seats = true) (apart : sharesPosition s.seats = false) {i : Nat}
    (set : (s.seat i).configured = true) : s.seatAt (s.seat i).row (s.seat i).column = some i := by
  have listed := s.mem_of_configured set
  cases found : s.seatAt (s.seat i).row (s.seat i).column with
  | none =>
    rw [State.seatAt, Option.map_eq_none_iff, List.find?_eq_none] at found
    exact absurd (by simp [set]) (found _ listed)
  | some j =>
    obtain ⟨set', row, column⟩ := State.seatAt_some rises found
    by_contra other
    have clash : sharesPosition s.seats = true := by
      refine List.any_eq_true.2 ⟨_, s.mem_of_configured set', List.any_eq_true.2 ⟨_, listed, ?_⟩⟩
      simpa [set, set', row, column] using other
    rw [apart] at clash
    cases clash

theorem mem_rowPositions (r : Rect) (fill : Fill) (j x y : Nat) :
    (x, y) ∈ rowPositions r fill j ↔ x = r.r0 + j ∧ r.c0 ≤ y ∧ y ≤ r.c1 := by
  have row : (x, y) ∈ (List.range (r.c1 + 1 - r.c0)).map (fun n => (r.r0 + j, r.c0 + n)) ↔
      x = r.r0 + j ∧ r.c0 ≤ y ∧ y ≤ r.c1 := by
    rw [List.mem_map]
    constructor
    · rintro ⟨n, small, same⟩
      rw [List.mem_range] at small
      cases same
      exact ⟨rfl, by omega, by omega⟩
    · rintro ⟨rfl, low, high⟩
      exact ⟨y - r.c0, List.mem_range.2 (by omega), by rw [Nat.add_sub_cancel' low]⟩
  unfold rowPositions
  dsimp only
  split
  · rw [List.mem_reverse, row]
  · exact row

theorem mem_zonePositions (r : Rect) (fill : Fill) (x y : Nat) :
    (x, y) ∈ zonePositions r fill ↔ r.r0 ≤ x ∧ x ≤ r.r1 ∧ r.c0 ≤ y ∧ y ≤ r.c1 := by
  rw [zonePositions, List.mem_flatMap]
  constructor
  · rintro ⟨j, small, here⟩
    rw [List.mem_range] at small
    obtain ⟨rfl, low, high⟩ := (mem_rowPositions r fill j x y).1 here
    exact ⟨by omega, by omega, low, high⟩
  · rintro ⟨low, high, column⟩
    exact ⟨x - r.r0, List.mem_range.2 (by omega), (mem_rowPositions r fill _ x y).2 ⟨by omega, column⟩⟩

theorem State.mem_zoneSeats (rises : mapRises 0 s.seats = true) (apart : sharesPosition s.seats = false) (c i : Nat) :
    i ∈ s.zoneSeats c ↔ s.eligible i = true ∧ (s.seat i).accessible = false ∧
      ∃ r ∈ (s.chan c).config.zones, r.r0 ≤ (s.seat i).row ∧ (s.seat i).row ≤ r.r1 ∧
        r.c0 ≤ (s.seat i).column ∧ (s.seat i).column ≤ r.c1 := by
  rw [State.zoneSeats, List.mem_filterMap]
  constructor
  · rintro ⟨⟨x, y⟩, place, here⟩
    obtain ⟨found, test⟩ := Option.filter_eq_some_iff.1 here
    obtain ⟨-, row, column⟩ := State.seatAt_some rises found
    rw [Bool.and_eq_true, Bool.not_eq_true'] at test
    obtain ⟨r, zone, inside⟩ := List.mem_flatMap.1 place
    rw [row, column]
    exact ⟨test.1, test.2, r, zone, (mem_zonePositions r _ x y).1 inside⟩
  · rintro ⟨eligible, plain, r, zone, inside⟩
    refine ⟨_, List.mem_flatMap.2 ⟨r, zone, (mem_zonePositions r _ _ _).2 inside⟩, Option.filter_eq_some_iff.2 ⟨?_, ?_⟩⟩
    · exact State.seatAt_own rises apart (s.configured_of_eligible eligible)
    · rw [eligible, plain]; rfl

theorem filterMap_map_sublist {α β : Type} {f : α → Option β} {g : β → α} (back : ∀ x y, f x = some y → g y = x) (xs : List α) :
    ((xs.filterMap f).map g).Sublist xs := by
  induction xs with
  | nil => exact List.Sublist.refl _
  | cons x xs ih =>
    cases got : f x with
    | none => rw [List.filterMap_cons_none got]; exact ih.cons x
    | some y => rw [List.filterMap_cons_some got, List.map_cons, back x y got]; exact ih.cons_cons x

theorem State.places_zoneSeats (rises : mapRises 0 s.seats = true) (c : Nat) :
    ((s.zoneSeats c).map fun i => ((s.seat i).row, (s.seat i).column)).Sublist
      ((s.chan c).config.zones.flatMap fun r => zonePositions r (s.chan c).config.fill) := by
  refine filterMap_map_sublist (fun p i here => ?_) _
  obtain ⟨-, row, column⟩ := State.seatAt_some rises (Option.filter_eq_some_iff.1 here).1
  rw [row, column]

/-! ## The positions of a rectangle in order (R82) -/

theorem flatMap_range_blocks {α : Type} {f : Nat → List α} {m : Nat} (block : ∀ j, (f j).length = m) (n : Nat) :
    ((List.range n).flatMap f).length = n * m ∧
      ∀ j k, j < n → k < m → ((List.range n).flatMap f)[j * m + k]? = (f j)[k]? := by
  induction n with
  | zero => exact ⟨by simp, fun j k h => absurd h (Nat.not_lt_zero j)⟩
  | succ n ih =>
    obtain ⟨length, get⟩ := ih
    rw [List.range_succ, List.flatMap_append, List.flatMap_singleton]
    refine ⟨by rw [List.length_append, length, block, Nat.succ_mul], fun j k hj hk => ?_⟩
    rcases Nat.lt_succ_iff_lt_or_eq.1 hj with before | rfl
    · have inside : j * m + k < ((List.range n).flatMap f).length := by
        rw [length]
        calc j * m + k < (j + 1) * m := by rw [Nat.succ_mul]; omega
          _ ≤ n * m := Nat.mul_le_mul_right m before
      rw [List.getElem?_append_left inside, get j k before hk]
    · rw [List.getElem?_append_right (by rw [length]; omega), length, Nat.add_sub_cancel_left]

theorem length_rowPositions (r : Rect) (fill : Fill) (j : Nat) : (rowPositions r fill j).length = r.c1 + 1 - r.c0 := by
  unfold rowPositions
  dsimp only
  split <;> simp

theorem rowPositions_get (r : Rect) (fill : Fill) (j n : Nat) (hn : n < r.c1 + 1 - r.c0) :
    (rowPositions r fill j)[n]? =
      some (r.r0 + j, if fill = .serpentine ∧ j % 2 = 1 then r.c1 - n else r.c0 + n) := by
  unfold rowPositions
  dsimp only
  split
  · rw [List.getElem?_reverse (by simpa using hn), List.getElem?_map, List.length_map, List.length_range,
      List.getElem?_range (by omega), Option.map_some]
    congr 2
    omega
  · rw [List.getElem?_map, List.getElem?_range hn, Option.map_some]

/-! ## The seat found (R80, R83, R84) -/

theorem State.search_fixed (s : State) {i : Nat} (fixed : e.fixed = some i) (eligible : s.eligible i = true) :
    s.search e = some ⟨i, s.crowded i e.channel none, false⟩ := by
  unfold State.search
  rw [fixed]
  exact if_pos eligible

/-- The order of search of an entry whose fixed seat is not to be had (R80). -/
def State.searchOrder (s : State) (e : Entry) : List Nat :=
  if (s.cls e.cls).accessible then s.accessibleSeats else s.zoneSeats e.channel

theorem State.search_order (s : State) (moved : ∀ i, e.fixed = some i → s.eligible i = false) :
    s.search e = s.pick e.channel e.fixed.isSome (s.searchOrder e) := by
  unfold State.search State.searchOrder
  cases fixed : e.fixed with
  | none => rfl
  | some i => dsimp only; rw [if_neg (by rw [moved i fixed]; exact Bool.false_ne_true)]; rfl

theorem State.pick_first (s : State) {c i : Nat} {pre post : List Nat} (moved : Bool)
    (before : ∀ j ∈ pre, s.crowded j c none = true) (here : s.crowded i c none = false) :
    s.pick c moved (pre ++ i :: post) = some ⟨i, false, moved⟩ := by
  have found : (pre ++ i :: post).find? (fun i => !s.crowded i c none) = some i :=
    List.find?_eq_some_iff_append.2 ⟨by rw [here]; rfl, pre, post, rfl, fun j listed => by rw [before j listed]; rfl⟩
  rw [State.pick, found]

theorem State.pick_crowded (s : State) {c : Nat} {order : List Nat} (moved : Bool)
    (all : ∀ j ∈ order, s.crowded j c none = true) :
    s.pick c moved order = if (s.chan c).config.relax then order.head?.map fun i => ⟨i, true, moved⟩ else none := by
  have none_ : order.find? (fun i => !s.crowded i c none) = none :=
    List.find?_eq_none.2 fun j listed => by rw [all j listed]; exact Bool.false_ne_true
  rw [State.pick, none_]

/-! ## What the search reads -/

section
variable (seats : t.seats = s.seats) (roster : t.roster = s.roster) (channels : t.channels = s.channels)
  (classes : t.classes = s.classes) (presence : ∀ m b, t.presence m b = s.presence m b)
  (states : ∀ m, (t.line m).state = (s.line m).state)
include seats

theorem State.seat_congr (i : Nat) : t.seat i = s.seat i := by rw [State.seat, State.seat, seats]

theorem State.seatAt_congr (x y : Nat) : t.seatAt x y = s.seatAt x y := by rw [State.seatAt, State.seatAt, seats]

include presence states in
theorem State.eligible_congr (i : Nat) : t.eligible i = s.eligible i := by
  rw [State.eligible, State.eligible, State.seat_congr seats, State.deskPresent, State.deskPresent, presence, states]

include roster channels

theorem State.crowded_congr (i c : Nat) (self : Option Nat) : t.crowded i c self = s.crowded i c self := by
  have chan : ∀ c, t.chan c = s.chan c := fun c => by rw [State.chan, State.chan, channels]
  have entry : ∀ k, t.entry k = s.entry k := fun k => by rw [State.entry, State.entry, roster]
  simp only [State.crowded, seats, State.seat_congr seats, chan, entry]

include classes presence states

theorem State.search_congr (e : Entry) : t.search e = s.search e := by
  have chan : ∀ c, t.chan c = s.chan c := fun c => by rw [State.chan, State.chan, channels]
  have cls : ∀ n, t.cls n = s.cls n := fun n => by rw [State.cls, State.cls, classes]
  have eligible := State.eligible_congr seats presence states
  have crowded := State.crowded_congr seats roster channels
  have order : t.searchOrder e = s.searchOrder e := by
    simp only [State.searchOrder, State.accessibleSeats, State.seatKeys, State.zoneSeats, cls, chan, seats,
      State.seat_congr seats, State.seatAt_congr seats, eligible]
  have pick : ∀ c moved list, t.pick c moved list = s.pick c moved list := fun c moved list => by
    simp only [State.pick, crowded, chan]
  cases fixed : e.fixed with
  | none => exact (State.search_order t (by simp [fixed])).trans ((congrArg _ order).trans
      ((pick _ _ _).trans (State.search_order s (by simp [fixed])).symm))
  | some i =>
    cases good : s.eligible i with
    | true => rw [s.search_fixed fixed good, t.search_fixed fixed ((eligible i).trans good), crowded]
    | false =>
      have moved : ∀ j, e.fixed = some j → s.eligible j = false := fun j same => by
        rw [fixed, Option.some.injEq] at same; rw [← same, good]
      rw [s.search_order moved, t.search_order fun j same => (eligible j).trans (moved j same), order, pick]

end

end Sys2Proof.Machine
end

section
/-! PROOF. Check-in at an entrance (O23). -/

namespace Sys2Proof.Machine

set_option Elab.async false

variable {s t u v w : State} {l a k b id : Nat} {e : Entry}

/-! ## What a check-in asks, test by test (R76) -/

theorem State.inLoaded_iff (rises : mapRises 0 s.roster = true) (id : Nat) : s.inLoaded id = true ↔ s.awaitsAdmission id := by
  unfold State.inLoaded State.awaitsAdmission State.channelLookup
  simp only [List.any_eq_true, channelNumbers, List.mem_range, Bool.and_eq_true, decide_eq_true_eq, List.find?_isSome]
  constructor
  · rintro ⟨c, small, loaded, p, listed, own, rfl⟩
    exact ⟨p.1, p.2, mapGet_of_mem rises listed, own, small, loaded⟩
  · rintro ⟨k, e, found, own, small, loaded⟩
    exact ⟨e.channel, small, loaded, (k, e), mapGet_mem found, own, rfl⟩

theorem State.inLoaded_congr (h : Unchanged [.presence] s t) (id : Nat) : t.inLoaded id = s.inLoaded id := by
  have roster : t.roster = s.roster := h.2 .roster (by decide)
  simp only [State.inLoaded, State.channelLookup, roster, h.chan]

theorem State.notExpected_congr (h : Unchanged [.presence] s t) (e : Entry) : t.notExpected e = s.notExpected e := by
  simp only [State.notExpected, h.chan, h.seat]

section
variable (ready : w.office.ready = true) (free : w.time.held = false)
include ready free

theorem State.takeCheckin_unknown (none_ : w.activeLookup id = none) :
    w.takeCheckin a id b = w.queueNote 6 a (if w.inLoaded id then .notAdmitting else .unknownCandidate) := by
  unfold State.takeCheckin
  rw [ready, free, if_neg (by decide), if_neg (by decide), none_]
  rfl

variable (found : w.activeLookup id = some (k, e))
include found

theorem State.takeCheckin_notExpected (other : e.state ≠ .expected) :
    w.takeCheckin a id b = w.queueNote 6 a (w.notExpected e) := by
  unfold State.takeCheckin
  rw [ready, free, if_neg (by decide), if_neg (by decide), found]
  dsimp only
  rw [if_pos other]
  rfl

variable (expected : e.state = .expected)
include expected

theorem State.takeCheckin_late (shut : (w.chan e.channel).admitting = false) :
    w.takeCheckin a id b = w.queueNote 6 a .late := by
  unfold State.takeCheckin
  rw [ready, free, if_neg (by decide), if_neg (by decide), found]
  dsimp only
  rw [if_neg (not_not.2 expected), if_pos shut]
  rfl

variable (admits : (w.chan e.channel).admitting = true)
include admits

theorem State.takeCheckin_refused {note : NoteContent} (named : b ≠ 0) (refused : w.bookletRefusal k e b = some note) :
    w.takeCheckin a id b = w.queueNote 6 a note := by
  unfold State.takeCheckin
  rw [ready, free, if_neg (by decide), if_neg (by decide), found]
  dsimp only
  rw [if_neg (not_not.2 expected), admits, if_neg (by decide), if_neg named, refused]
  rfl

theorem State.takeCheckin_searched (passes : b = 0 ∨ w.passesBooklet k e b) :
    w.takeCheckin a id b = ((w.search e).map (w.admitCandidate a k e b)).getD (w.queueNote 6 a .noSeat) := by
  have passed : (if b = 0 then none else w.bookletRefusal k e b) = none := by
    rcases passes with zero | passes
    · rw [if_pos zero]
    · rw [w.bookletRefusal_none passes, ite_self]
  unfold State.takeCheckin
  rw [ready, free, if_neg (by decide), if_neg (by decide), found]
  dsimp only
  rw [if_neg (not_not.2 expected), admits, if_neg (by decide), passed]
  dsimp only
  cases w.search e <;> rfl

end

/-! ## The candidate admitted (R78) -/

/-- The entry of a candidate admitted: that of R78, with serial `b` on its list. -/
def Entry.admitted (e : Entry) (k : AllowanceClass) (w : Nat) (f : Found) (b : Nat) : Entry :=
  { e.checkIn k w f with booklets := e.given b }

/-- Serial `b` issued unless it is 000000 (R77). -/
def State.withSerial (s : State) (k : Nat) (e : Entry) (b : Nat) : State := if b = 0 then s else s.issueNew k e b

theorem State.withSerial_congr {e e' : Entry} (same : e'.booklets = e.booklets) (s : State) (k b : Nat) :
    s.withSerial k e' b = s.withSerial k e b := by
  unfold State.withSerial State.issueNew
  rw [same]

theorem State.lines_withSerial (s : State) (k : Nat) (e : Entry) (b : Nat) : (s.withSerial k e b).lines = s.lines := by
  unfold State.withSerial
  split
  · rfl
  · exact State.issueNew_lines s k e b

theorem Entry.given_zero (e : Entry) : e.given 0 = e.booklets := if_pos (.inl rfl)

theorem State.entry_withSerial (s : State) (found : s.entry k = some e) (j : Nat) :
    (s.withSerial k e b).entry j = if k = j then some { e with booklets := e.given b } else s.entry j := by
  unfold State.withSerial
  by_cases zero : b = 0
  · rw [if_pos zero, zero, Entry.given_zero]
    by_cases same : k = j
    · rw [if_pos same, ← same, found]
    · rw [if_neg same]
  · rw [if_neg zero, State.entry_issueNew s found zero]

theorem bookletIssued_withSerial (s : State) (k : Nat) (e : Entry) (b : Nat) : BookletIssued s (s.withSerial k e b) k e b := by
  unfold State.withSerial
  by_cases zero : b = 0
  · rw [if_pos zero]
    unfold BookletIssued
    rw [if_pos (.inl zero)]
    exact ⟨rfl, rfl⟩
  · rw [if_neg zero]
    exact bookletIssued_issueNew s zero k e

theorem Moves.withSerial (s : State) (k : Nat) (e : Entry) (b : Nat) : Moves [.roster, .booklets] s (s.withSerial k e b) :=
  .ite (fun _ => .refl s) fun _ => .issueNew s k e b

/-- Slot `k` with the entry of its admission (R78), its warning dropped. -/
def State.enrol (w : State) (k : Nat) (e : Entry) (f : Found) : State :=
  (w.putEntry k (e.checkIn (w.cls e.cls) (w.chan e.channel).length f)).dropWarning k

theorem State.entry_enrol (w : State) (k : Nat) (e : Entry) (f : Found) (j : Nat) : (w.enrol k e f).entry j =
    if k = j then some (e.checkIn (w.cls e.cls) (w.chan e.channel).length f) else w.entry j := State.entry_putEntry ..

theorem Moves.enrol (w : State) (k : Nat) (e : Entry) (f : Found) : Moves [.roster] w (w.enrol k e f) :=
  (Moves.putEntry w k _).next (Moves.dropWarning _ k)

theorem State.lines_enrol (w : State) (k : Nat) (e : Entry) (f : Found) : (w.enrol k e f).lines = w.lines := rfl

/-- The part of an admission before the notes: entry, serial, seat. -/
theorem State.admitCandidate_eq (w : State) (a k : Nat) (e : Entry) (b : Nat) (f : Found) : ∃ v : State,
    w.admitCandidate a k e b f = (v.queueNote 6 a (.seatGiven (w.seat f.seat).row (w.seat f.seat).column)).queueNote
      (seatLine f.seat) (seatAddr f.seat) (.reserved (e.id % 10000)) ∧ v.lines = w.lines ∧
      (∀ j, v.seat j = if f.seat = j then { w.seat j with occ := .held k w.hall.seatingLimit, closing := .none } else w.seat j) ∧
      (∀ j, v.entry j = if k = j then some (e.admitted (w.cls e.cls) (w.chan e.channel).length f b) else w.entry j) ∧
      BookletIssued w v k e b ∧ Moves [.seats, .roster, .booklets] w v := by
  have eq : w.admitCandidate a k e b f = ((((w.enrol k e f).withSerial k e b).holdSeat f.seat k).queueNote 6 a
      (.seatGiven (w.seat f.seat).row (w.seat f.seat).column)).queueNote
      (seatLine f.seat) (seatAddr f.seat) (.reserved (e.id % 10000)) := rfl
  have listed : (e.checkIn (w.cls e.cls) (w.chan e.channel).length f).booklets = e.booklets := rfl
  have entry := State.entry_withSerial (b := b) (w.enrol k e f) ((w.entry_enrol k e f k).trans (if_pos rfl))
  rw [State.withSerial_congr listed] at entry
  have issued := (bookletIssued_withSerial (w.enrol k e f) k e b).congr ((Moves.enrol w k e f).frame.2 .booklets (by decide))
    (Part.same_refl _ _)
  have lines := (State.lines_withSerial (w.enrol k e f) k e b).trans (w.lines_enrol k e f)
  have m : Moves [.roster, .booklets] w ((w.enrol k e f).withSerial k e b) :=
    (Moves.enrol w k e f).widen.next (.withSerial _ k e b)
  refine ⟨_, eq, ?_⟩
  generalize (w.enrol k e f).withSerial k e b = y at entry issued lines m
  have limit : y.hall = w.hall := m.frame.2 .hall (by decide)
  refine ⟨lines, fun j => ?_, fun j => ?_, issued.congr (Part.same_refl _ _) ⟨rfl, rfl⟩, m.widen.next (.holdSeat y _ k)⟩
  · rw [State.holdSeat, State.seat_onSeat, limit]
    split
    · next same => rw [same, m.frame.seat]
    · exact m.frame.seat j
  · rw [State.holdSeat, State.entry_onSeat, entry, State.entry_enrol]
    split <;> rfl

/-! ## The events of a check-in -/

section
variable {bytes : List Byte} (ha : 1 ≤ a) (hears : s.hears 6 a bytes (.checkin id b)) (role : (s.station a).role = .entrance)
include role

theorem State.stationEvent_checkin : (s.atEvent 6 a (.checkin id b)).stationEvent a (.checkin id b) =
    (s.atEvent 6 a (.checkin id b)).takeCheckin a id b := by
  unfold State.stationEvent
  rw [State.atEvent_station, role]

include ha hears

theorem checkin_turned {note : NoteContent} (answer : (s.atEvent 6 a (.checkin id b)).takeCheckin a id b =
    (s.atEvent 6 a (.checkin id b)).queueNote 6 a note) : Turned s 6 a bytes note :=
  turned_of (l := 6) hears rfl ha ((State.stationEvent_checkin role).trans answer)

end

/-- What an admission leaves, in the words of the obligation. -/
structure CheckedIn (s t : State) (a k : Nat) (e : Entry) (b : Nat) (f : Found) : Prop where
  seat : t.seat f.seat = { s.seat f.seat with occ := .held k s.hall.seatingLimit, closing := .none }
  seats : ∀ m, m ≠ f.seat → t.seat m = s.seat m
  entry : t.entry k = some (e.admitted (s.cls e.cls) (s.chan e.channel).length f b)
  entries : ∀ m, m ≠ k → t.entry m = s.entry m
  issued : BookletIssued s t k e b
  desks : PresencesStand s t 6 a
  told : f.seat < 384 → Told s t 6 a (.seatGiven (s.seat f.seat).row (s.seat f.seat).column) ∧
    (s.reaches (seatLine f.seat) (seatAddr f.seat) →
      t.noted (seatLine f.seat) (seatAddr f.seat) (.reserved (e.id % 10000)))
  frame : Unchanged [.seats, .roster, .booklets, .presence] s t

/-- Two notes queued at once, one to the station heard and one to a desk. -/
theorem Told.station_desk {x : DeskEvent} {m c : Nat} {note other : NoteContent} (ha : 1 ≤ a) (hm : m < 6) (hc : c ≠ 0)
    (posted : Marked (s.atEvent 6 a x) v) (known : ∀ m b, v.configured m b = s.configured m b) :
    Told s (((v.queueNote 6 a note).queueNote m c other).afterEvent 6) 6 a note ∧
      (s.reaches m c → (((v.queueNote 6 a note).queueNote m c other).afterEvent 6).noted m c other) := by
  have apart : ¬(6 = m) := by omega
  have takes : ∀ n, (v.line n).takesNote = (s.line n).takesNote := fun n => by rw [posted.takesNote, State.atEvent_takesNote]
  have known' : ∀ m' b, ((v.queueNote 6 a note).queueNote m c other).configured m' b = s.configured m' b := fun m' b => by
    rw [State.configured_queueNote, State.configured_queueNote, known]
  have first : (s.line 6).takesNote = true →
      (((v.queueNote 6 a note).queueNote m c other).line 6).fifo.getLast? = some ⟨a, note⟩ := fun room => by
    rw [State.line_queueNote, if_neg (Ne.symm apart), State.line_queueNote, if_pos rfl]
    exact Line.last_queueNote (by rw [takes]; exact room) a note
  have second : (s.line m).takesNote = true →
      (((v.queueNote 6 a note).queueNote m c other).line m).fifo.getLast? = some ⟨c, other⟩ := fun room => by
    rw [State.line_queueNote, if_pos rfl, State.line_queueNote, if_neg apart]
    exact Line.last_queueNote (by rw [takes]; exact room) c other
  have all := (posted.posted.trans (.queueNote v 6 a note)).trans (.queueNote _ m c other)
  generalize (v.queueNote 6 a note).queueNote m c other = y at known' first second all
  refine ⟨.after (by decide) ha all (known' 6 a) first, fun ⟨room, configured, sound⟩ => ?_⟩
  obtain ⟨loud, -⟩ := (s.line m).takesNote_iff'.1 room
  exact State.noted_after (by omega) hc (by rw [known']; exact configured)
    (by rw [all.presence, State.atEvent_presence]; exact sound)
    (by rw [all.state, (s.atEvent_fields 6 a x m).1]; exact loud) (second room)

theorem seatLine_lt {i : Nat} (h : i < 384) : seatLine i < 6 := by
  unfold seatLine
  omega

theorem seatAddr_ne (i : Nat) : seatAddr i ≠ 0 := by
  unfold seatAddr
  omega

theorem checkin_admitted {bytes : List Byte} (ha : 1 ≤ a) (hears : s.hears 6 a bytes (.checkin id b))
    (role : (s.station a).role = .entrance) (ready : s.office.ready = true) (free : s.time.held = false)
    (found : s.activeLookup id = some (k, e)) (expected : e.state = .expected)
    (admits : (s.chan e.channel).admitting = true) (passes : b = 0 ∨ s.passesBooklet k e b) {f : Found}
    (given : s.search e = some f) : ∃ t, exec (.lineReplyReceived 6 bytes) s = .next t ∧ CheckedIn s t a k e b f := by
  have frame := s.atEvent_unchanged 6 a (.checkin id b)
  have run := exec_station hears rfl
  have answer := State.takeCheckin_searched (w := s.atEvent 6 a (.checkin id b)) (a := a) (b := b)
    (by rw [State.office_atEvent]; exact ready) (by rw [frame.time]; exact free)
    ((s.atEvent_activeLookup 6 a _ id).trans found) expected (by rw [State.atEvent_chan]; exact admits)
    (by rw [State.passesBooklet, (frame.2 .booklets (by decide)).1]; exact passes)
  have seats : (s.atEvent 6 a (.checkin id b)).seats = s.seats := frame.2 .seats (by decide)
  have search : (s.atEvent 6 a (.checkin id b)).search e = s.search e :=
    State.search_congr seats (frame.2 .roster (by decide)) (frame.2 .channels (by decide)) (frame.2 .classes (by decide))
      (s.atEvent_presence 6 a _) (fun m => (s.atEvent_fields 6 a _ m).1) e
  rw [search, given, Option.map_some, Option.getD_some] at answer
  obtain ⟨v, eq, lines, seat, entry, issued, moves⟩ := (s.atEvent 6 a (.checkin id b)).admitCandidate_eq a k e b f
  rw [State.stationEvent_checkin role, answer, eq, State.atEvent_seat] at run
  have hall : (s.atEvent 6 a (.checkin id b)).hall = s.hall := frame.2 .hall (by decide)
  have classes : (s.atEvent 6 a (.checkin id b)).classes = s.classes := frame.2 .classes (by decide)
  have cls : (s.atEvent 6 a (.checkin id b)).cls e.cls = s.cls e.cls := by rw [State.cls, State.cls, classes]
  have known : ∀ m c, v.configured m c = s.configured m c := fun m c =>
    (State.configured_of_seats (moves.frame.2 .stations (by decide)) (fun i => by rw [seat]; split <;> rfl) m c).trans
      (s.atEvent_configured 6 a _ m c)
  have marked : Marked (s.atEvent 6 a (.checkin id b)) v :=
    .of_lines lines fun j => by rw [seat]; split <;> rfl
  have told := fun small : f.seat < 384 => Told.station_desk (other := .reserved (e.id % 10000))
    (note := .seatGiven (s.seat f.seat).row (s.seat f.seat).column) ha (seatLine_lt small) (seatAddr_ne f.seat) marked known
  have posted := (marked.posted.trans (.queueNote v 6 a (.seatGiven (s.seat f.seat).row (s.seat f.seat).column))).trans
    (.queueNote _ (seatLine f.seat) (seatAddr f.seat) (.reserved (e.id % 10000)))
  have tail := (Moves.queueNote v 6 a (.seatGiven (s.seat f.seat).row (s.seat f.seat).column)).next
    (.queueNote _ (seatLine f.seat) (seatAddr f.seat) (.reserved (e.id % 10000)))
  generalize (v.queueNote 6 a (.seatGiven (s.seat f.seat).row (s.seat f.seat).column)).queueNote (seatLine f.seat)
    (seatAddr f.seat) (.reserved (e.id % 10000)) = x at run told posted tail
  have after : Moves [.presence] v (x.afterEvent 6) := tail.widen.next (.afterEvent x 6)
  refine ⟨_, run, ?_, fun m other => ?_, ?_, fun m other => ?_, ?_, .after posted, told, ?_⟩
  · rw [after.frame.seat, seat, if_pos rfl, State.atEvent_seat, hall]
  · rw [after.frame.seat, seat, if_neg (Ne.symm other), State.atEvent_seat]
  · rw [after.frame.entry, entry, if_pos rfl, cls, State.atEvent_chan]
  · rw [after.frame.entry, entry, if_neg (Ne.symm other), State.atEvent_entry]
  · exact issued.congr (frame.2 .booklets (by decide)) (after.frame.2 .booklets (by decide))
  · exact ((frame.weaken (by decide)).trans (moves.frame.weaken (by decide))).trans (after.frame.weaken (by decide))

/-- The clause of `Obligations.CheckInAllocatesTheSeatFound` on the event. -/
theorem checkin_taken {bytes : List Byte} (ha : 1 ≤ a) (hears : s.hears 6 a bytes (.checkin id b))
    (role : (s.station a).role = .entrance) (ready : s.office.ready = true) (free : s.time.held = false) :
    (s.canonical = true → s.activeLookup id = none →
        (s.awaitsAdmission id → Turned s 6 a bytes .notAdmitting) ∧
        (¬s.awaitsAdmission id → Turned s 6 a bytes .unknownCandidate)) ∧
      ∀ k e, s.activeLookup id = some (k, e) →
        (e.state ≠ .expected → Turned s 6 a bytes (s.notExpected e)) ∧
        (e.state = .expected → (s.chan e.channel).admitting = false → Turned s 6 a bytes .late) ∧
        (e.state = .expected → (s.chan e.channel).admitting = true →
          (b ≠ 0 → BookletTurned s k e b (Turned s 6 a bytes)) ∧
          (b = 0 ∨ s.passesBooklet k e b → s.search e = none → Turned s 6 a bytes .noSeat)) := by
  have frame := s.atEvent_unchanged 6 a (.checkin id b)
  have turned := fun note => checkin_turned (note := note) ha hears role
  have ready' : (s.atEvent 6 a (.checkin id b)).office.ready = true := by rw [State.office_atEvent]; exact ready
  have free' : (s.atEvent 6 a (.checkin id b)).time.held = false := by rw [frame.time]; exact free
  have booklets := (frame.2 .booklets (by decide)).1
  have search : (s.atEvent 6 a (.checkin id b)).search = s.search := funext <|
    State.search_congr (frame.2 .seats (by decide)) (frame.2 .roster (by decide)) (frame.2 .channels (by decide))
      (frame.2 .classes (by decide)) (s.atEvent_presence 6 a _) (fun m => (s.atEvent_fields 6 a _ m).1)
  refine ⟨fun canonical none_ => ?_, fun k e found => ?_⟩
  · have answer := State.takeCheckin_unknown (a := a) (b := b) ready' free' ((s.atEvent_activeLookup 6 a _ id).trans none_)
    rw [State.inLoaded_congr frame] at answer
    have loaded := State.inLoaded_iff (State.roster_rises canonical) id
    refine ⟨fun awaits => turned _ ?_, fun no => turned _ ?_⟩
    · rw [answer, if_pos (loaded.2 awaits)]
    · rw [answer, if_neg fun h => no (loaded.1 h)]
  · have found' := (s.atEvent_activeLookup 6 a (.checkin id b) id).trans found
    have chan := s.atEvent_chan 6 a (.checkin id b) e.channel
    refine ⟨fun other => turned _ ?_, fun expected shut => turned _ ?_, fun expected admits =>
      ⟨fun named => bookletTurned_of fun note refused => turned _ ?_, fun passes full => turned _ ?_⟩⟩
    · rw [State.takeCheckin_notExpected ready' free' found' other, State.notExpected_congr frame]
    · exact State.takeCheckin_late ready' free' found' expected (by rw [chan]; exact shut)
    · exact State.takeCheckin_refused ready' free' found' expected (by rw [chan]; exact admits) named
        ((State.bookletRefusal_congr booklets k e b).trans refused)
    · rw [State.takeCheckin_searched ready' free' found' expected (by rw [chan]; exact admits)
        (by rw [State.passesBooklet, booklets]; exact passes), search, full]
      rfl

theorem State.search_moved (s : State) (moved : ∀ i, e.fixed = some i → s.eligible i = false) :
    (∀ pre i post, s.searchOrder e = pre ++ i :: post → (∀ j ∈ pre, s.crowded j e.channel none = true) →
      s.crowded i e.channel none = false → s.search e = some ⟨i, false, e.fixed.isSome⟩) ∧
    ((∀ j ∈ s.searchOrder e, s.crowded j e.channel none = true) →
      s.search e = if (s.chan e.channel).config.relax then (s.searchOrder e).head?.map fun i => ⟨i, true, e.fixed.isSome⟩
        else none) := by
  refine ⟨fun pre i post order before here => ?_, fun all => ?_⟩
  · rw [s.search_order moved, order, s.pick_first _ before here]
  · rw [s.search_order moved, s.pick_crowded _ all]

/-- Settles O23. -/
theorem checkInAllocatesTheSeatFound : Obligations.CheckInAllocatesTheSeatFound := by
  refine ⟨fun a id b bytes s ha hears role => ?_, fun s e => ⟨fun i fixed eligible => s.search_fixed fixed eligible,
    fun moved => s.search_moved moved⟩, fun s canonical => ?_, fun r fill => ?_⟩
  · have turned := fun note => checkin_turned (note := note) ha hears role
    refine ⟨fun idle => turned _ ?_, fun ready held => turned _ ?_, fun ready free => ?_⟩
    · rw [State.takeCheckin, if_pos (by rw [State.office_atEvent]; exact idle)]; rfl
    · rw [State.takeCheckin, if_neg (by rw [State.office_atEvent, ready]; decide),
        if_pos (by rw [(s.atEvent_unchanged 6 a (.checkin id b)).time]; exact held)]; rfl
    · obtain ⟨unknown, known⟩ := checkin_taken ha hears role ready free
      refine ⟨unknown, fun k e found _ => ?_⟩
      obtain ⟨other, late, expected⟩ := known k e found
      refine ⟨fun notExpected open_ => ?_, fun ⟨absent, shut⟩ => ?_, late, fun isExpected admits => ?_⟩
      · have answer := other notExpected
        rw [State.notExpected, if_neg open_] at answer
        exact answer
      · have answer := other (by rw [absent]; decide)
        rw [State.notExpected, if_pos ⟨absent, shut⟩] at answer
        exact answer
      · obtain ⟨serial, full⟩ := expected isExpected admits
        refine ⟨serial, full, fun f passes given => ?_⟩
        obtain ⟨t, run, h⟩ := checkin_admitted ha hears role ready free found isExpected admits passes given
        exact ⟨t, run, h.seat, h.seats, h.entry, h.entries, h.issued, h.desks, h.told, h.frame⟩
  · have rises := State.seats_rises canonical
    exact ⟨State.crowded_iff rises, (mapKeys_pairwise rises).1.filter _, s.mem_accessibleSeats, fun c =>
      ⟨State.places_zoneSeats rises c, fun apart => State.mem_zoneSeats rises apart c⟩⟩
  · obtain ⟨length, get⟩ := flatMap_range_blocks (length_rowPositions r fill) (r.r1 + 1 - r.r0)
    exact ⟨length, fun j n hj hn => (get j n hj hn).trans (rowPositions_get r fill j n hn)⟩

end Sys2Proof.Machine
end

section
/-! PROOF. RESEAT (O21). -/

namespace Sys2Proof.Machine

set_option Elab.async false

variable {s t : State} {i j k : Nat} {e : Entry}

/-! ## The old seat given up (R93) -/

/-- The record of a seat given up by slot `k`, with clearing time `n` (R93). -/
def Seat.left (r : Seat) (k n : Nat) : Seat :=
  let free := match r.occ with
    | .held _ _ => { r with occ := .free, closing := .none }
    | .occupied _ => r.vacated n .none
    | _ => r
  if free.lost = some k then { free with lost := none } else free

theorem State.seat_leaveSeat (s : State) (k j i : Nat) :
    (s.leaveSeat k j).seat i = if j = i then (s.seat j).left k s.hall.clearingTime else s.seat i := by
  unfold State.leaveSeat Seat.left
  dsimp only
  rw [State.seat_onSeat]
  cases (s.seat j).occ <;> simp only [State.seat_releaseHold, State.seat_clearSeat, if_true] <;> split <;> rfl

theorem Seat.occ_left_held {r : Seat} {n : Nat} (h : ∃ n, r.occ = .held k n) : (r.left k n).occ = .free := by
  obtain ⟨m, held⟩ := h
  unfold Seat.left
  rw [held]
  dsimp only
  split <;> rfl

theorem Seat.occ_left_occupied {r : Seat} {n : Nat} (h : r.occ = .occupied k) :
    (r.left k n).occ = if n = 0 then .free else .clearing n := by
  unfold Seat.left
  rw [h]
  dsimp only
  split <;> rfl

/-! ## The move (R93) -/

/-- The record of the target of a reseat of slot `k` with entry `e`, the seating limit being `n`. -/
def Seat.target (r : Seat) (k : Nat) (e : Entry) (n : Nat) : Seat :=
  { r with occ := if e.state = .allocated then .held k n else .occupied k, closing := .none }

/-- The target taken: HELD for an ALLOCATED candidate, else OCCUPIED. -/
def State.takeSeat (s : State) (k i : Nat) (e : Entry) : State :=
  if e.state = .allocated then s.holdSeat i k else s.occupySeat i k

theorem State.seat_takeSeat (s : State) (k i : Nat) (e : Entry) (j : Nat) :
    (s.takeSeat k i e).seat j = if i = j then (s.seat i).target k e s.hall.seatingLimit else s.seat j := by
  unfold State.takeSeat Seat.target
  by_cases allocated : e.state = .allocated
  · rw [if_pos allocated, if_pos allocated, State.holdSeat, State.seat_onSeat]
  · rw [if_neg allocated, if_neg allocated, State.occupySeat, State.seat_onSeat]

theorem Moves.takeSeat (s : State) (k i : Nat) (e : Entry) : Moves [.seats] s (s.takeSeat k i e) :=
  .ite (fun _ => .holdSeat s i k) fun _ => .occupySeat s i k

/-- The entry of a candidate reseated. -/
def Entry.reseated (e : Entry) (i : Nat) (crowded : Bool) : Entry :=
  { e.seatAt i with relaxed := e.relaxed || crowded, deskLost := false }

theorem State.moveTo_eq (s : State) (own : e.seat = some j) : s.moveTo k i e =
    ((((s.leaveSeat k j).takeSeat k i e).onEntry k fun e => e.reseated i (s.crowded i e.channel (some k)))).setMark i := by
  unfold State.moveTo
  rw [own]
  rfl

theorem State.seat_moveTo (s : State) (own : e.seat = some j) (apart : i ≠ j) (m : Nat) : (s.moveTo k i e).seat m =
    if i = m then (s.seat i).target k e s.hall.seatingLimit
    else if j = m then (s.seat j).left k s.hall.clearingTime else s.seat m := by
  have hall : (s.leaveSeat k j).hall = s.hall := (Moves.leaveSeat s k j).frame.2 .hall (by decide)
  rw [State.moveTo_eq s own, (Moves.setMark _ i).frame.seat, (Moves.onEntry _ k _).frame.seat, State.seat_takeSeat, hall,
    State.seat_leaveSeat, State.seat_leaveSeat, if_neg (Ne.symm apart)]

theorem State.entry_moveTo (s : State) (found : s.entry k = some e) (own : e.seat = some j) (m : Nat) :
    (s.moveTo k i e).entry m = if k = m then some (e.reseated i (s.crowded i e.channel (some k))) else s.entry m := by
  rw [State.moveTo_eq s own, (Moves.setMark _ i).frame.entry, State.entry_onEntry, (Moves.takeSeat _ k i e).frame.entry,
    (Moves.leaveSeat s k j).frame.entry, (Moves.takeSeat _ k i e).frame.entry, (Moves.leaveSeat s k j).frame.entry, found]
  rfl

/-! ## The command -/

/-- What an accepted RESEAT leaves, in the words of the obligation. -/
structure Reseated (s t : State) (k i : Nat) (e : Entry) (j : Nat) : Prop where
  target : (t.seat i).occ = if e.state = .allocated then .held k s.hall.seatingLimit else .occupied k
  held : (∃ n, (s.seat j).occ = .held k n) → (t.seat j).occ = .free
  occupied : (s.seat j).occ = .occupied k →
    (t.seat j).occ = if s.hall.clearingTime = 0 then .free else .clearing s.hall.clearingTime
  entry : t.entry k = some (e.reseated i (s.crowded i e.channel (some k)))
  entries : ∀ m, m ≠ k → t.entry m = s.entry m
  seats : ∀ m, m ≠ i → m ≠ j → t.seat m = s.seat m

theorem Reseated.moveTo (found : s.entry k = some e) (own : e.seat = some j) (apart : i ≠ j) :
    Reseated s (s.moveTo k i e) k i e j where
  target := by rw [s.seat_moveTo own apart, if_pos rfl]; rfl
  held h := by rw [s.seat_moveTo own apart, if_neg apart, if_pos rfl]; exact Seat.occ_left_held h
  occupied h := by rw [s.seat_moveTo own apart, if_neg apart, if_pos rfl]; exact Seat.occ_left_occupied h
  entry := by rw [s.entry_moveTo found own, if_pos rfl]
  entries m other := by rw [s.entry_moveTo found own, if_neg (Ne.symm other)]
  seats m away other := by rw [s.seat_moveTo own apart, if_neg (Ne.symm away), if_neg (Ne.symm other)]

theorem State.reseatRefusal_refused {c : Code} (refusal : s.reseatRefusal k i = some c) : s.reseat k i = s.refuse c := by
  unfold State.reseat
  rw [refusal]

/-- Settles O21. -/
theorem reseatMovesTheCandidate : Obligations.ReseatMovesTheCandidate := by
  intro tag k i s takes
  have refused : ∀ c, s.countFrame.reseatRefusal k i = some c → Refuses s (.reseat tag k i) tag 0x03#8 c := fun c refusal =>
    State.refused (f := (·.reseat k i)) rfl takes (State.reseatRefusal_refused refusal)
  have inside : k ≤ 511 → i ≤ 383 → ¬(511 < k ∨ 383 < i) := fun hk hi => by omega
  refine ⟨fun out => refused _ (by rw [State.reseatRefusal, if_pos out]), fun hk hi none_ => refused _ ?_, fun e hk hi found => ?_⟩
  · have none' : s.countFrame.entry k = none := none_
    rw [State.reseatRefusal, if_neg (inside hk hi), none']
  · have found' : s.countFrame.entry k = some e := found
    have refusal : s.countFrame.reseatRefusal k i = if e.state = .allocated ∨ e.state.isSeated = true then
        if s.eligible i then none else some .inUse else some .wrongPhase := by
      rw [State.reseatRefusal, if_neg (inside hk hi), found']
      rfl
    by_cases movable : e.state = .allocated ∨ e.state.isSeated = true
    · rw [if_neg (not_not.2 movable)]
      rw [if_pos movable] at refusal
      cases eligible : s.eligible i with
      | false =>
        rw [if_pos rfl]
        exact refused _ (by rw [refusal, eligible, if_neg Bool.false_ne_true])
      | true =>
        rw [if_neg nofun]
        intro j own apart
        have answer : s.countFrame.reseat k i = (s.countFrame.moveTo k i e).done := by
          rw [State.reseat, refusal, eligible, if_pos rfl, found']
        obtain ⟨t, run, served⟩ := State.served (k := [.seats, .roster]) (i := .reseat tag k i) rfl takes answer
          (.moveTo s.countFrame k i e)
        have moved := Reseated.moveTo (s := s.countFrame) found' own apart
        refine ⟨t, run, served.answered, ?_, fun held => ?_, fun occupied => ?_, ?_, fun m other => ?_, fun m away other => ?_,
          served.unchanged.weaken (by decide)⟩
        · rw [served.seat]; exact moved.target
        · rw [served.seat]; exact moved.held held
        · rw [served.seat]; exact moved.occupied occupied
        · rw [served.entry]; exact moved.entry
        · rw [served.entry]; exact moved.entries m other
        · rw [served.seat]; exact moved.seats m away other
    · rw [if_pos movable]
      exact refused _ (refusal.trans (if_neg movable))

end Sys2Proof.Machine
end

section
/-! PROOF. READY and the outputs (O56). -/

namespace Sys2Proof.Machine

set_option Elab.async false

/-! ## What the part's work leaves of READY -/

@[simp] theorem State.ready_notify (s : State) (x : Subject) : (s.notify x).office.ready = s.office.ready := (s.notify_link x).2.2.1

/-! ### Phases, seats and candidates -/

@[simp] theorem State.ready_restartInterval (s : State) (l : Nat) :
    (s.restartInterval l).office.ready = s.office.ready := rfl

@[simp] theorem State.ready_enterPhase (s : State) (c : Nat) (x : ChanState) :
    (s.enterPhase c x).office.ready = s.office.ready := by simp [State.enterPhase]

@[simp] theorem State.ready_markOccupied (s : State) :
    s.markOccupied.office.ready = s.office.ready := foldl_keeps (fun t : State => t.office.ready) _ (fun t p => by split <;> rfl) _ _

@[simp] theorem State.ready_changeHold (s : State) (x : HoldInput) (f : TimeBase → TimeBase) : (s.changeHold x f).office.ready = s.office.ready := by
  unfold State.changeHold; dsimp only; split <;> simp

@[simp] theorem State.ready_reconcile (s : State) (c : Nat) : (s.reconcile c).office.ready = s.office.ready := by
  unfold State.reconcile; split <;> simp

@[simp] theorem State.ready_enterCollecting (s : State) (c : Nat) :
    (s.enterCollecting c).office.ready = s.office.ready := by simp [State.enterCollecting]

@[simp] theorem State.ready_overtimeTest (s : State) (c : Nat) : (s.overtimeTest c).office.ready = s.office.ready := by
  unfold State.overtimeTest; split <;> simp

@[simp] theorem State.ready_collectTest (s : State) (k : Nat) : (s.collectTest k).office.ready = s.office.ready := by
  unfold State.collectTest; (repeat' split) <;> simp

@[simp] theorem State.ready_issue (s : State) (k b : Nat) :
    (s.issue k b).office.ready = s.office.ready := by simp [State.issue]

@[simp] theorem State.ready_issueNew (s : State) (k : Nat) (e : Entry) (b : Nat) : (s.issueNew k e b).office.ready = s.office.ready := by
  unfold State.issueNew; split <;> simp

@[simp] theorem State.ready_takeIssue (s : State) (a id b : Nat) : (s.takeIssue a id b).office.ready = s.office.ready := by
  unfold State.takeIssue; (repeat' split) <;> simp

@[simp] theorem State.ready_acceptReturn (s : State) (k b : Nat) : (s.acceptReturn k b).office.ready = s.office.ready := by simp [State.acceptReturn]

@[simp] theorem State.ready_takeReturn (s : State) (a b : Nat) : (s.takeReturn a b).office.ready = s.office.ready := by
  unfold State.takeReturn; dsimp only; (repeat' split) <;> simp [State.ready_acceptReturn]

@[simp] theorem State.ready_settleMark (s : State) (i : Nat) : (s.settleMark i).office.ready = s.office.ready := by
  unfold State.settleMark; split <;> simp

@[simp] theorem State.ready_freeSeat (s : State) (i : Nat) :
    (s.freeSeat i).office.ready = s.office.ready := by simp [State.freeSeat]

@[simp] theorem State.ready_holdSeat (s : State) (i k : Nat) : (s.holdSeat i k).office.ready = s.office.ready := rfl

@[simp] theorem State.ready_occupySeat (s : State) (i k : Nat) : (s.occupySeat i k).office.ready = s.office.ready := rfl

@[simp] theorem State.ready_clearSeat (s : State) (i : Nat) (w : ClosingWord) : (s.clearSeat i w).office.ready = s.office.ready := by
  unfold State.clearSeat; split <;> simp

@[simp] theorem State.ready_releaseHold (s : State) (i : Nat) :
    (s.releaseHold i).office.ready = s.office.ready := by simp [State.releaseHold]

@[simp] theorem State.ready_warnTest (s : State) (k : Nat) : (s.warnTest k).office.ready = s.office.ready := by
  unfold State.warnTest; dsimp only; (repeat' split) <;> simp

@[simp] theorem State.ready_depart (s : State) (k : Nat) (w : ClosingWord) : (s.depart k w).office.ready = s.office.ready := by
  unfold State.depart; dsimp only; (repeat' split) <;> simp

@[simp] theorem State.ready_exhaust (s : State) (k : Nat) : (s.exhaust k).office.ready = s.office.ready := by
  unfold State.exhaust; split <;> simp

@[simp] theorem State.ready_countEntry (s : State) (k : Nat) : (s.countEntry k).office.ready = s.office.ready := by
  unfold State.countEntry; (repeat' split) <;> simp

@[simp] theorem State.ready_countChannel (s : State) (c : Nat) :
    (s.countChannel c).office.ready = s.office.ready := foldl_keeps (fun t : State => t.office.ready) _ (by simp) _ _

@[simp] theorem State.ready_markEntries (s : State) (c : Nat) (p : EntryState → Bool) :
    (s.markEntries c p).office.ready = s.office.ready := foldl_keeps (fun t : State => t.office.ready) _ (by simp) _ _

@[simp] theorem State.ready_readingMarks (s : State) (c : Nat) : (s.readingMarks c).office.ready = s.office.ready := by
  unfold State.readingMarks; dsimp only; (repeat' split) <;> simp [foldl_keeps (fun t : State => t.office.ready)]

@[simp] theorem State.ready_startWriter (s : State) (k : Nat) :
    (s.startWriter k).office.ready = s.office.ready := by simp [State.startWriter]

@[simp] theorem State.ready_startWriters (s : State) (c : Nat) :
    (s.startWriters c).office.ready = s.office.ready := foldl_keeps (fun t : State => t.office.ready) _ (by simp) _ _

@[simp] theorem State.ready_recompute (s : State) (w k : Nat) : (s.recompute w k).office.ready = s.office.ready := by
  unfold State.recompute; split <;> simp

@[simp] theorem State.ready_recomputeAll (s : State) (c w : Nat) :
    (s.recomputeAll c w).office.ready = s.office.ready := foldl_keeps (fun t : State => t.office.ready) _ (by simp) _ _

@[simp] theorem State.ready_closingNote (s : State) (i : Nat) : (s.closingNote i).office.ready = s.office.ready := by
  unfold State.closingNote; split <;> simp

@[simp] theorem State.ready_pressFinish (s : State) (i : Nat) : (s.pressFinish i).office.ready = s.office.ready := by
  unfold State.pressFinish; (repeat' split) <;> simp

@[simp] theorem State.ready_takeBreak (s : State) (i k : Nat) (e : Entry) : (s.takeBreak i k e).office.ready = s.office.ready := by
  unfold State.takeBreak; (repeat' split) <;> simp

@[simp] theorem State.ready_pressBreak (s : State) (i : Nat) : (s.pressBreak i).office.ready = s.office.ready := by
  unfold State.pressBreak; (repeat' split) <;> simp

@[simp] theorem State.ready_admitCandidate (s : State) (a k : Nat) (e : Entry) (b : Nat) (f : Found) : (s.admitCandidate a k e b f).office.ready = s.office.ready := by
  unfold State.admitCandidate; split <;> simp

@[simp] theorem State.ready_takeCheckin (s : State) (a id b : Nat) : (s.takeCheckin a id b).office.ready = s.office.ready := by
  unfold State.takeCheckin; (repeat' split) <;> simp

@[simp] theorem State.ready_seatCandidate (s : State) (i k : Nat) (e : Entry) :
    (s.seatCandidate i k e).office.ready = s.office.ready := by simp [State.seatCandidate]

@[simp] theorem State.ready_wrongSeat (s : State) (d i : Nat) : (s.wrongSeat d i).office.ready = s.office.ready := rfl

@[simp] theorem State.ready_takeTap (s : State) (d id : Nat) : (s.takeTap d id).office.ready = s.office.ready := by
  unfold State.takeTap; (repeat' split) <;> simp

@[simp] theorem State.ready_expire (s : State) (i k : Nat) :
    (s.expire i k).office.ready = s.office.ready := by simp [State.expire]

@[simp] theorem State.ready_endClearing (s : State) (i : Nat) :
    (s.endClearing i).office.ready = s.office.ready := by simp [State.endClearing]

@[simp] theorem State.ready_tickSeat (s : State) (i : Nat) : (s.tickSeat i).office.ready = s.office.ready := by
  unfold State.tickSeat; (repeat' split) <;> simp

@[simp] theorem State.ready_tickSeats (s : State) :
    s.tickSeats.office.ready = s.office.ready := foldl_keeps (fun t : State => t.office.ready) _ (by simp) _ _

@[simp] theorem State.ready_shutOut (s : State) (k : Nat) : (s.shutOut k).office.ready = s.office.ready := by
  unfold State.shutOut; (repeat' split) <;> simp

@[simp] theorem State.ready_deskGone (s : State) (i : Nat) : (s.deskGone i).office.ready = s.office.ready := by
  unfold State.deskGone; split <;> simp

@[simp] theorem State.ready_deskFound (s : State) (i : Nat) : (s.deskFound i).office.ready = s.office.ready := by
  unfold State.deskFound; dsimp only; (repeat' split) <;> simp

@[simp] theorem State.ready_leaveSeat (s : State) (k j : Nat) : (s.leaveSeat k j).office.ready = s.office.ready := by
  unfold State.leaveSeat; split <;> simp

@[simp] theorem State.ready_moveTo (s : State) (k i : Nat) (e : Entry) : (s.moveTo k i e).office.ready = s.office.ready := by
  unfold State.moveTo; (repeat' split) <;> simp

/-! ### Sittings -/

@[simp] theorem State.ready_timedAttempt (s : State) (c : Nat) : (s.timedAttempt c).office.ready = s.office.ready := by
  unfold State.timedAttempt; split <;> simp

@[simp] theorem State.ready_amend (s : State) (c v e : Nat) :
    (s.amend c v e).office.ready = s.office.ready := by simp [State.amend]

@[simp] theorem State.ready_dropAmendment (s : State) (c : Nat) : (s.dropAmendment c).office.ready = s.office.ready := by
  unfold State.dropAmendment; split <;> simp

@[simp] theorem State.ready_applyPending (s : State) (c : Nat) : (s.applyPending c).office.ready = s.office.ready := by
  unfold State.applyPending; (repeat' split) <;> simp

@[simp] theorem State.ready_startWriting (s : State) (c : Nat) :
    (s.startWriting c).office.ready = s.office.ready := by simp [State.startWriting]

@[simp] theorem State.ready_startChannel (s : State) (c : Nat) : (s.startChannel c).office.ready = s.office.ready := by
  unfold State.startChannel; split <;> simp

@[simp] theorem State.ready_closeAdmission (s : State) (c : Nat) :
    (s.closeAdmission c).office.ready = s.office.ready := by simp [State.closeAdmission, foldl_keeps (fun t : State => t.office.ready)]

@[simp] theorem State.ready_closeOnce (s : State) (c : Nat) : (s.closeOnce c).office.ready = s.office.ready := by
  unfold State.closeOnce; split <;> simp

@[simp] theorem State.ready_endBase (s : State) (c : Nat) : (s.endBase c).office.ready = s.office.ready := by
  unfold State.endBase; dsimp only; split <;> simp

@[simp] theorem State.ready_secondBase (s : State) (c : Nat) : (s.secondBase c).office.ready = s.office.ready := by
  unfold State.secondBase; split <;> simp

@[simp] theorem State.ready_secondAmendment (s : State) (c : Nat) : (s.secondAmendment c).office.ready = s.office.ready := by
  unfold State.secondAmendment; split <;> simp

@[simp] theorem State.ready_secondClose (s : State) (c : Nat) : (s.secondClose c).office.ready = s.office.ready := by
  unfold State.secondClose; split <;> simp

@[simp] theorem State.ready_writingSecond (s : State) (c : Nat) :
    (s.writingSecond c).office.ready = s.office.ready := by simp [State.writingSecond]

@[simp] theorem State.ready_readingSecond (s : State) (c : Nat) : (s.readingSecond c).office.ready = s.office.ready := by
  unfold State.readingSecond; dsimp only; split <;> simp

@[simp] theorem State.ready_heldSecond (s : State) (c : Nat) : (s.heldSecond c).office.ready = s.office.ready := rfl

@[simp] theorem State.ready_tickChannel (s : State) (c : Nat) : (s.tickChannel c).office.ready = s.office.ready := by
  unfold State.tickChannel; (repeat' split) <;> simp

@[simp] theorem State.ready_giveTick (s : State) (c : Option Nat) : (s.giveTick c).office.ready = s.office.ready := rfl

@[simp] theorem State.ready_passTick (s : State) (c : Nat) :
    (s.passTick c).office.ready = s.office.ready := by simp [State.passTick]

@[simp] theorem State.ready_tickSittings (s : State) :
    s.tickSittings.office.ready = s.office.ready := foldl_keeps (fun t : State => t.office.ready) _ (by simp) _ _

@[simp] theorem State.ready_freeSlot (s : State) (k : Nat) : (s.freeSlot k).office.ready = s.office.ready := rfl

@[simp] theorem State.ready_freeChannel (s : State) (c : Nat) : (s.freeChannel c).office.ready = s.office.ready := by
  simp [State.freeChannel, foldl_keeps (fun t : State => t.office.ready) State.freeSlot fun _ _ => rfl]

@[simp] theorem State.ready_testGate (s : State) (c : Nat) : (s.testGate c).office.ready = s.office.ready := by
  unfold State.testGate; split <;> simp

@[simp] theorem State.ready_testGates (s : State) :
    s.testGates.office.ready = s.office.ready := by simp [State.testGates, foldl_keeps (fun t : State => t.office.ready)]

@[simp] theorem State.ready_closeChannel (s : State) (c : Nat) :
    (s.closeChannel c).office.ready = s.office.ready := by simp [State.closeChannel, foldl_keeps (fun t : State => t.office.ready)]

@[simp] theorem State.ready_setHold (s : State) (c : Nat) (h : Bool) : (s.setHold c h).office.ready = s.office.ready := by
  unfold State.setHold; split <;> simp

/-! ### Results, marking and the sheet port -/

@[simp] theorem State.ready_countBand (s : State) (r : ResultRecord) : (s.countBand r).office.ready = s.office.ready := by
  unfold State.countBand; split <;> simp

@[simp] theorem State.ready_highTest (s : State) : s.highTest.office.ready = s.office.ready := by
  unfold State.highTest; split <;> simp

@[simp] theorem State.ready_placeRecord (s : State) (r : ResultRecord) :
    (s.placeRecord r).office.ready = s.office.ready := by simp [State.placeRecord]

@[simp] theorem State.ready_fullReject (s : State) (sheet : Nat) : (s.fullReject sheet).office.ready = s.office.ready := by
  unfold State.fullReject; split <;> simp

@[simp] theorem State.ready_advance (s : State) (reach : Nat) : (s.advance reach).office.ready = s.office.ready := by
  unfold State.advance; split <;> simp

@[simp] theorem State.ready_setResult (s : State) (m : Marking) (x : Status) : (s.setResult m x).office.ready = s.office.ready := by
  unfold State.setResult; split <;> simp

@[simp] theorem State.ready_logSheet (s : State) (r : ResultRecord) : (s.logSheet r).office.ready = s.office.ready := by
  unfold State.logSheet; split <;> simp

@[simp] theorem State.ready_beginCommit (s : State) (c : Nat) : (s.beginCommit c).office.ready = s.office.ready := by
  unfold State.beginCommit; split <;> simp

@[simp] theorem State.ready_completeSheet (s : State) (m : Marking) : (s.completeSheet m).office.ready = s.office.ready := by
  unfold State.completeSheet State.takeSheet; dsimp only; split <;> simp

@[simp] theorem State.ready_complete (s : State) : s.complete.office.ready = s.office.ready := by
  unfold State.complete; dsimp only; (repeat' split) <;> simp

@[simp] theorem State.ready_resumeSheet (s : State) (c : Nat) : (s.resumeSheet c).office.ready = s.office.ready := by
  unfold State.resumeSheet; (repeat' split) <;> simp

@[simp] theorem State.ready_endCommit (s : State) (c : Nat) :
    (s.endCommit c).office.ready = s.office.ready := by simp [State.endCommit]

@[simp] theorem State.ready_tickCommit (s : State) (c : Nat) : (s.tickCommit c).office.ready = s.office.ready := by
  unfold State.tickCommit; (repeat' split) <;> simp

@[simp] theorem State.ready_tickCommits (s : State) :
    s.tickCommits.office.ready = s.office.ready := by simp [State.tickCommits, foldl_keeps (fun t : State => t.office.ready)]

@[simp] theorem State.ready_sheetStart (s : State) : s.sheetStart.office.ready = s.office.ready := by
  unfold State.sheetStart; (repeat' split) <;> simp

@[simp] theorem State.ready_endFrame (s : State) (n : Nat) (bytes : List Byte) (good : Bool) : (s.endFrame n bytes good).office.ready = s.office.ready := by
  unfold State.endFrame State.takeSheet; dsimp only; split <;> simp

@[simp] theorem State.ready_endOverrun (s : State) (bytes : List Byte) : (s.endOverrun bytes).office.ready = s.office.ready := by
  unfold State.endOverrun; split <;> simp

@[simp] theorem State.ready_endAbandoned (s : State) : s.endAbandoned.office.ready = s.office.ready := by
  unfold State.endAbandoned; split <;> simp

@[simp] theorem State.ready_sheetEnd (s : State) (bytes : List Byte) : (s.sheetEnd bytes).office.ready = s.office.ready := by
  unfold State.sheetEnd; (repeat' split) <;> simp

@[simp] theorem State.ready_sheetGap (s : State) (bytes : List Byte) : (s.sheetGap bytes).office.ready = s.office.ready := by
  unfold State.sheetGap; split <;> simp

@[simp] theorem State.ready_sheetQuiet (s : State) : s.sheetQuiet.office.ready = s.office.ready := by
  unfold State.sheetQuiet; split <;> simp

/-! ### The time base -/

@[simp] theorem State.ready_tickSignals (s : State) : s.tickSignals.office.ready = s.office.ready := rfl

@[simp] theorem State.ready_consume (s : State) (x : Consumer) : (s.consume x).office.ready = s.office.ready := by
  unfold State.consume; split <;> simp

@[simp] theorem State.ready_secondTick (s : State) (o : TickOrder) :
    (s.secondTick o).office.ready = s.office.ready := foldl_keeps (fun t : State => t.office.ready) _ (by simp) _ _

@[simp] theorem State.ready_changePin (s : State) :
    s.changePin.office.ready = s.office.ready := by simp [State.changePin]

@[simp] theorem State.ready_tickTail (s : State) (n : Nat) (o : TickOrder) : (s.tickTail n o).office.ready = s.office.ready := by
  unfold State.tickTail State.secondTickWith
  dsimp only
  split
  · simp only [foldl_keeps (fun t : State => t.office.ready) State.consume State.ready_consume]
    split <;> simp [foldl_keeps (fun t : State => t.office.ready) State.consume State.ready_consume]
  · split <;> simp

@[simp] theorem State.ready_loseReference (s : State) (o : TickOrder) : (s.loseReference o).office.ready = s.office.ready := by
  unfold State.loseReference; split <;> simp

@[simp] theorem State.ready_judgeBad (s : State) (o : TickOrder) : (s.judgeBad o).office.ready = s.office.ready := by
  unfold State.judgeBad; dsimp only; (repeat' split) <;> simp

@[simp] theorem State.ready_goodEdge (s : State) (o : TickOrder) : (s.goodEdge o).office.ready = s.office.ready := by
  unfold State.goodEdge; split <;> simp

@[simp] theorem State.ready_judgeGood (s : State) (o : TickOrder) : (s.judgeGood o).office.ready = s.office.ready := by
  unfold State.judgeGood; dsimp only; (repeat' split) <;> simp

@[simp] theorem State.ready_judgeMissing (s : State) (o : TickOrder) :
    (s.judgeMissing o).office.ready = s.office.ready := by simp [State.judgeMissing]

@[simp] theorem State.ready_missingTest (s : State) (o : TickOrder) : (s.missingTest o).office.ready = s.office.ready := by
  unfold State.missingTest; split <;> simp

@[simp] theorem State.ready_edge (s : State) (o : TickOrder) : (s.edge o).office.ready = s.office.ready := by
  unfold State.edge; (repeat' split) <;> simp

@[simp] theorem State.ready_edgeAt (s : State) (phase : Nat) (o : TickOrder) :
    (s.edgeAt phase o).office.ready = s.office.ready := by simp [State.edgeAt]

@[simp] theorem State.missingFirst_ready (s : State) (o : TickOrder) : (s.missingFirst o).office.ready = s.office.ready := by
  unfold State.missingFirst; split <;> simp

/-! ### Lines -/

@[simp] theorem State.ready_setPresence (s : State) (l a : Nat) (p : Presence) : (s.setPresence l a p).office.ready = s.office.ready := by
  unfold State.setPresence; dsimp only; (repeat' split) <;> simp

@[simp] theorem State.ready_raiseLost (s : State) (l a : Nat) (p : Presence) :
    (s.raiseLost l a p).office.ready = s.office.ready := by simp [State.raiseLost]

@[simp] theorem State.ready_raiseLossBy (s : State) (l : Nat) (x : Exchange) : (s.raiseLossBy l x).office.ready = s.office.ready := by
  unfold State.raiseLossBy; split <;> simp

@[simp] theorem State.ready_loseDesk (s : State) (l : Nat) (x : Exchange) :
    (s.loseDesk l x).office.ready = s.office.ready := by simp [State.loseDesk]

@[simp] theorem State.ready_countMiss (s : State) (l : Nat) (x : Exchange) (h : Heard) : (s.countMiss l x h).office.ready = s.office.ready := by
  unfold State.countMiss; (repeat' split) <;> simp

@[simp] theorem State.ready_takeDiscovery (s : State) (l a : Nat) (h : Heard) : (s.takeDiscovery l a h).office.ready = s.office.ready := by
  unfold State.takeDiscovery; split <;> simp

@[simp] theorem State.ready_takeSweep (s : State) (l a : Nat) (h : Heard) : (s.takeSweep l a h).office.ready = s.office.ready := by
  unfold State.takeSweep; (repeat' split) <;> simp

@[simp] theorem State.ready_stationEvent (s : State) (a : Nat) (e : DeskEvent) : (s.stationEvent a e).office.ready = s.office.ready := by
  unfold State.stationEvent; split <;> simp

@[simp] theorem State.ready_deskEvent (s : State) (i : Nat) (e : DeskEvent) : (s.deskEvent i e).office.ready = s.office.ready := by
  unfold State.deskEvent State.pressHelp; split <;> simp

@[simp] theorem State.ready_handOn (s : State) (l a : Nat) (h : Heard) : (s.handOn l a h).office.ready = s.office.ready := by
  unfold State.handOn; (repeat' split) <;> simp

@[simp] theorem State.ready_takeTest (s : State) (l a i : Nat) (h : Heard) : (s.takeTest l a i h).office.ready = s.office.ready := by
  unfold State.takeTest; dsimp only; (repeat' split) <;> simp

@[simp] theorem State.ready_takeOutcome (s : State) (l : Nat) (x : Exchange) (h : Heard) : (s.takeOutcome l x h).office.ready = s.office.ready := by
  unfold State.takeOutcome; (repeat' split) <;> simp

@[simp] theorem State.ready_endExchange (s : State) (l : Nat) (x : Exchange) (h : Heard) :
    (s.endExchange l x h).office.ready = s.office.ready := by simp [State.endExchange]

@[simp] theorem State.ready_lineReply (s : State) (l : Nat) (bytes : List Byte) : (s.lineReply l bytes).office.ready = s.office.ready := by
  unfold State.lineReply; (repeat' split) <;> simp

@[simp] theorem State.ready_windowClose (s : State) (l : Nat) : (s.windowClose l).office.ready = s.office.ready := by
  unfold State.windowClose; (repeat' split) <;> simp

@[simp] theorem State.ready_broadcastEnd (s : State) (l : Nat) : (s.broadcastEnd l).office.ready = s.office.ready := by
  unfold State.broadcastEnd; (repeat' split) <;> simp

@[simp] theorem State.ready_discoveryRound (s : State) (l : Nat) :
    (s.discoveryRound l).office.ready = s.office.ready := foldl_keeps (fun t : State => t.office.ready) _ (fun t a => by split <;> rfl) _ _

@[simp] theorem State.ready_advanceDiscovery (s : State) (l : Nat) : (s.advanceDiscovery l).office.ready = s.office.ready := by
  unfold State.advanceDiscovery; split <;> simp

@[simp] theorem State.ready_endInterval (s : State) (l : Nat) : (s.endInterval l).office.ready = s.office.ready := by
  unfold State.endInterval; split <;> simp

@[simp] theorem State.ready_tickLine (s : State) (l : Nat) : (s.tickLine l).office.ready = s.office.ready := by
  unfold State.tickLine; dsimp only; split <;> simp

@[simp] theorem State.ready_tickLines (s : State) :
    s.tickLines.office.ready = s.office.ready := by simp [State.tickLines, foldl_keeps (fun t : State => t.office.ready)]

@[simp] theorem State.ready_newAddress (s : State) (l a : Nat) : (s.newAddress l a).office.ready = s.office.ready := rfl

@[simp] theorem State.ready_blankLine (s : State) (l : Nat) : (s.blankLine l).office.ready = s.office.ready := by
  unfold State.blankLine; split <;> simp

/-! ### Tables -/

@[simp] theorem State.ready_putClass (s : State) (n : Nat) (w : ClassWrite) :
    (s.putClass n w).office.ready = s.office.ready := rfl

@[simp] theorem State.ready_putForm (s : State) (n : Nat) (w : FormWrite) :
    (s.putForm n w).office.ready = s.office.ready := rfl

@[simp] theorem State.ready_putProfile (s : State) (n : Nat) (w : ProfileWrite) :
    (s.putProfile n w).office.ready = s.office.ready := rfl

@[simp] theorem State.ready_putStation (s : State) (a : Nat) (w : StationWrite) : (s.putStation a w).office.ready = s.office.ready := by
  unfold State.putStation; dsimp only; split <;> simp

@[simp] theorem State.ready_putSeat (s : State) (i : Nat) (w : SeatWrite) : (s.putSeat i w).office.ready = s.office.ready := by
  unfold State.putSeat; dsimp only; split <;> simp

@[simp] theorem State.ready_putRoster (s : State) (k : Nat) (w : RosterWrite) : (s.putRoster k w).office.ready = s.office.ready := by
  unfold State.putRoster; split <;> simp

@[simp] theorem State.ready_putChannel (s : State) (c : Nat) (w : ChannelWrite) :
    (s.putChannel c w).office.ready = s.office.ready := rfl

@[simp] theorem State.ready_putSignal (s : State) (n : Nat) (w : SignalWrite) :
    (s.putSignal n w).office.ready = s.office.ready := rfl

/-! ### The office link -/

@[simp] theorem State.ready_countFrame (s : State) : s.countFrame.office.ready = s.office.ready := rfl

@[simp] theorem State.ready_respond (s : State) (r : Response) : (s.respond r).office.ready = s.office.ready := rfl

@[simp] theorem State.ready_discard (s : State) : s.discard.office.ready = s.office.ready := rfl

/-! ### Requests -/

theorem State.ready_unless {s t : State} (x : Option Code) (h : t.office.ready = s.office.ready) :
    (s.unless x t).state.office.ready = s.office.ready := by
  cases x with
  | none => exact h
  | some c => rfl

theorem State.ready_writeAll {α : Type} (s : State) (lo hi first : Nat) (ws : List α) (check : Nat → α → Option Code)
    {put : State → Nat → α → State} (keeps : ∀ t i w, (put t i w).office.ready = t.office.ready) :
    (s.writeAll lo hi first ws check put).state.office.ready = s.office.ready := by
  unfold State.writeAll
  split
  · rfl
  · exact foldl_keeps (fun t : State => t.office.ready) _ (fun t (p : Nat × α) => keeps t p.1 p.2) _ s

theorem State.ready_writeEach {α : Type} (s : State) (lo hi first : Nat) (ws : List α)
    (check : State → Nat → α → Option Code) {put : State → Nat → α → State}
    (keeps : ∀ t i w, (put t i w).office.ready = t.office.ready) :
    (s.writeEach lo hi first ws check put).state.office.ready = s.office.ready := by
  have steps := foldl_keeps (fun acc : State × Option Code => acc.1.office.ready) (stepEntry check put)
    (fun acc p => by unfold stepEntry; (repeat' split) <;> simp [keeps]) (indexed first ws) (s, none)
  unfold State.writeEach
  split
  · rfl
  · split
    · rfl
    · next done => rw [done] at steps; exact steps

theorem State.ready_clearGroup (s : State) (g : Nat) : (s.clearGroup g).office.ready = s.office.ready := by
  unfold State.clearGroup; split <;> rfl

theorem State.ready_deskMessage (s : State) (x : DeskTarget) (m : Nat) :
    (s.deskMessage x m).state.office.ready = s.office.ready := by
  unfold State.deskMessage
  split
  · rfl
  · split
    · rfl
    · exact foldl_keeps (fun acc : State × Nat × Nat => acc.1.office.ready) (queueOne _) (fun _ _ => rfl) _ (s, 0, 0)

theorem State.ready_resetSittings (s : State) : s.resetSittings.state.office.ready = s.office.ready := by
  have ended : s.endSittings.office = s.office := rfl
  unfold State.resetSittings State.done
  dsimp only
  rw [foldl_keeps (fun t : State => t.office.ready) State.blankLine State.ready_blankLine, ended]

theorem State.ready_releaseResults (s : State) (upto : Nat) :
    (s.releaseResults upto).state.office.ready = s.office.ready := by
  unfold State.releaseResults
  dsimp only
  rw [State.ready_testGates]
  rfl

theorem State.ready_resetAll (s : State) : s.resetAll.state.office.ready = s.office.ready := by
  unfold State.resetAll State.done
  rfl

/-- No request touches READY. -/
theorem State.Serves.ready {s : State} {x : Answer} (h : s.Serves x) : x.state.office.ready = s.office.ready := by
  cases h with
  | refuse c => rfl
  | read t first n => unfold State.read; dsimp only; (repeat' split) <;> rfl
  | writeHall first ws => unfold State.writeHall; (repeat' split) <;> rfl
  | writeSeats first ws => exact State.ready_writeAll _ _ _ _ _ _ State.ready_putSeat
  | writeStations first ws => exact State.ready_writeAll _ _ _ _ _ _ State.ready_putStation
  | writeRoster first ws => exact State.ready_writeEach _ _ _ _ _ _ State.ready_putRoster
  | writeChannels first ws => exact State.ready_writeEach _ _ _ _ _ _ State.ready_putChannel
  | writeClasses first ws => exact State.ready_writeAll _ _ _ _ _ _ State.ready_putClass
  | writeForms first ws => exact State.ready_writeAll _ _ _ _ _ _ State.ready_putForm
  | writeProfiles first ws => exact State.ready_writeAll _ _ _ _ _ _ State.ready_putProfile
  | writeKeys first ws => exact State.ready_unless _ rfl
  | writeMessages first ws => exact State.ready_writeAll _ _ _ _ _ _ fun _ _ _ => rfl
  | writeSignals first ws => exact State.ready_writeAll _ _ _ _ _ _ State.ready_putSignal
  | status => rfl
  | readFlags => rfl
  | readStats g clear =>
    unfold State.readStats
    cases clear
    · split <;> rfl
    · split
      · rfl
      · exact s.ready_clearGroup g
  | readResults start most => unfold State.readResults; (repeat' split) <;> rfl
  | releaseResults upto => exact s.ready_releaseResults upto
  | readHistogram c => unfold State.readHistogram; split <;> rfl
  | deskMessage x m => exact s.ready_deskMessage x m
  | channelLoad c => exact State.ready_unless _ (State.ready_enterPhase _ _ _)
  | channelOpen c => unfold State.channelOpen; (repeat' split) <;> simp [State.refuse, State.done]
  | channelStart c => exact State.ready_unless _ (State.ready_startChannel _ _)
  | channelHold c h => exact State.ready_unless _ (State.ready_setHold _ _ _)
  | amendNow c v => unfold State.amendNow; dsimp only; (repeat' split) <;> simp [State.refuse]
  | amendAtMinute c v => unfold State.amendAtMinute; split <;> rfl
  | channelClose c => unfold State.channelClose; (repeat' split) <;> simp [State.refuse]
  | channelTeardown c => unfold State.channelTeardown; (repeat' split) <;> simp [State.refuse, State.done]
  | keyCommit c => exact State.ready_unless _ rfl
  | hallHold h => exact State.ready_changeHold _ _ _
  | hallTimeSet v => exact State.ready_unless _ rfl
  | reseat k i => unfold State.reseat; split <;> simp [State.refuse, State.done]
  | candidateFinish k => exact State.ready_unless _ (State.ready_depart _ _ _)
  | deskClear l a => exact State.ready_unless _ rfl
  | lineQuiet l => exact State.ready_unless _ (by split <;> rfl)
  | lineWake l => exact State.ready_unless _ rfl
  | lineTest l => exact State.ready_unless _ rfl
  | lineReset l => exact State.ready_unless _ rfl
  | statsClear => exact foldl_keeps (fun t : State => t.office.ready) State.clearGroup State.ready_clearGroup statsGroups s
  | resetSittings => exact s.ready_resetSittings
  | resetAll => exact s.ready_resetAll

theorem State.ready_takeRequest (s : State) (tag kind : Byte) {f : State → Answer} (serves : ∀ t : State, t.Serves (f t)) :
    (s.takeRequest tag kind f).office.ready = s.office.ready := by
  unfold State.takeRequest
  split
  · rfl
  · dsimp only
    split
    · rfl
    · exact (serves _).ready

/-! ### Every event -/

theorem State.ready_tick (s : State) (low : Bool) (n : Nat) (o : TickOrder) :
    (s.tick low n o).office.ready = s.office.ready := by
  simp [State.tick, State.tickTime, State.missingFirst_ready]

/-- No work of the part touches READY. -/
theorem State.Work.ready {s u : State} (h : s.Work u) : u.office.ready = s.office.ready := by
  cases h with
  | idle => rfl
  | tick low n o => exact s.ready_tick low n o
  | secondTick o => exact s.ready_secondTick o
  | edgeAt phase o => exact s.ready_edgeAt phase o
  | missingFirst o => exact s.missingFirst_ready o
  | timedAttempt c _ => exact s.ready_timedAttempt c
  | timedStart c _ => exact s.ready_startChannel c
  | writingStart c _ => exact s.ready_startWriting c
  | applyPending c _ => exact s.ready_applyPending c
  | closeOnce c _ => exact s.ready_closeOnce c
  | secondBase c => exact s.ready_secondBase c
  | timeUp k _ => exact s.ready_depart k _
  | exhaust k _ => exact s.ready_exhaust k
  | expire i k _ => exact s.ready_expire i k
  | endClearing i _ => exact s.ready_endClearing i
  | changePin => exact s.ready_changePin
  | endInterval l => exact s.ready_endInterval l
  | lineReply l bytes => exact s.ready_lineReply l bytes
  | windowClose l => exact s.ready_windowClose l
  | broadcastEnd l => exact s.ready_broadcastEnd l
  | sheetStart => exact s.ready_sheetStart
  | sheetEnd bytes => exact s.ready_sheetEnd bytes
  | sheetGap bytes => exact s.ready_sheetGap bytes
  | endOverrun bytes => exact s.ready_endOverrun bytes
  | advance reach => exact s.ready_advance reach
  | complete => exact s.ready_complete
  | endCommit c n _ => exact s.ready_endCommit c
  | verdictSent => rfl
  | discard => rfl
  | request tag kind f serves => exact s.ready_takeRequest tag kind serves
  | sheetQuiet => exact s.ready_sheetQuiet
  | officeQuiet => rfl
  | endAbandoned => exact s.ready_endAbandoned

/-! ## What follows at once -/

/-- The two conditions of READY, as the obligation writes them (R192). -/
theorem State.readyNow_iff (s : State) :
    s.readyNow = true ↔ s.time.refState ≠ .acquiring ∧ ∀ l, l < 7 → (s.line l).swept = true := by
  simp [State.readyNow, lineNumbers]

theorem State.settle_line_runLines (u : State) (l : Nat) : u.settle.line l = u.runLines.line l := by
  unfold State.settle
  generalize u.runLines = v
  rfl

theorem State.ready_settle (u : State) : u.settle.office.ready = (u.office.ready || u.settle.readyNow) := by
  have same : u.settle.readyNow = u.runLines.readyNow := by
    have time : u.runLines.time = u.time := (Moves.runLines u).frame.2 .time (by decide)
    unfold State.readyNow
    simp only [State.settle_time, time, State.settle_line_runLines]
  rw [same, State.settle_office, (Office.startTx_keeps _).2.2.1, (State.quiet_runLines u).ready]

theorem Office.startTx_idle {o : Office} (idle : o.startTx.tx = .idle) : o.startTx.responses = [] ∧ o.startTx.notices = [] := by
  unfold Office.startTx at idle ⊢
  by_cases free : o.tx = .idle
  · rw [if_pos free] at idle ⊢
    by_cases answers : o.responses = []
    · rw [if_neg (not_not.2 answers)] at idle ⊢
      by_cases notices : o.notices = []
      · rw [if_neg (not_not.2 notices)]; exact ⟨answers, notices⟩
      · rw [if_pos notices] at idle; cases idle
    · rw [if_pos answers] at idle; cases idle
  · rw [if_neg free] at idle; exact absurd idle free

theorem Intake.startTx_idle {n : Intake} (idle : n.startTx.tx = .idle) : n.startTx.verdicts = [] := by
  unfold Intake.startTx at idle ⊢
  split at idle
  · cases idle
  · next stays => rw [if_neg stays]; exact (Classical.not_and_iff_not_or_not.1 stays).elim (fun h => absurd idle h) not_not.1

/-- The response to RESET_ALL has left, and it was the last (R195). -/
def State.resets (s : State) : Prop :=
  s.office.tx = .response ∧ s.office.resetPending = true ∧ s.office.responses.tail = []

theorem State.ready_officeSent (s : State) :
    s.officeSent.office.ready = s.office.ready ∨ s.resets ∧ s.officeSent.office.ready = false := by
  unfold State.officeSent
  cases tx : s.office.tx with
  | idle => exact .inl rfl
  | notice => exact .inl rfl
  | response =>
    dsimp only
    split
    · next last => exact .inr ⟨⟨tx, last⟩, rfl⟩
    · exact .inl rfl

theorem State.ready_powerUp (s : State) : s.powerUp.office.ready = false := rfl

/-- A command leaves READY as it was, but for what follows at once, and for the two resets (R192, R195). -/
theorem exec_ready (c : Instr) (s : State) : ∃ u : State, exec c s = .next u.settle ∧
    (u.office.ready = s.office.ready ∨ u.office.ready = false ∧ (c = .powerOn ∨ c = .officeFrameSent ∧ s.resets)) := by
  by_cases up : c = .powerOn
  · subst up; exact ⟨s.powerUp, rfl, .inr ⟨s.ready_powerUp, .inl rfl⟩⟩
  · by_cases sent : c = .officeFrameSent
    · subst sent
      exact ⟨s.officeSent, rfl, s.ready_officeSent.imp_right fun ⟨resets, off⟩ => ⟨off, .inr ⟨rfl, resets⟩⟩⟩
    · obtain ⟨u, work, next⟩ := exec_works c s up sent
      exact ⟨u, next, .inl work.ready⟩

/-- Settles O56: READY by what each command leaves of it, the rest by what follows at once. -/
theorem outputsFollowTheState : Obligations.OutputsFollowTheState := by
  intro c s t run
  obtain ⟨u, next, ready⟩ := exec_ready c s
  obtain rfl : u.settle = t := Host.Outcome.next.inj (next.symm.trans run)
  have empty : u.settle.intake.emptySlot = u.intake.emptySlot := by
    unfold Intake.emptySlot; simp only [State.settle_slot]
  have now := u.settle.readyNow_iff
  have settled := u.ready_settle
  refine ⟨by rw [empty, State.settle_intake], fun idle => ?_, fun idle => ?_, fun was is => ?_, fun not => ?_, fun was up stays => ?_⟩
  · rw [State.settle_intake] at idle ⊢
    exact Intake.startTx_idle idle
  · rw [State.settle_office] at idle ⊢
    exact Office.startTx_idle idle
  · have off : u.office.ready = false := ready.elim (fun h => h.trans was) And.left
    rw [off, Bool.false_or] at settled
    exact now.1 (settled.symm.trans is)
  · have no : ¬u.settle.readyNow = true := fun h => by rw [settled, h, Bool.or_true] at not; cases not
    by_contra both
    simp only [not_or, not_exists, not_and] at both
    exact no (now.2 ⟨both.1, fun l small => by simpa using both.2 l small⟩)
  · rcases ready with same | ⟨-, rfl | ⟨rfl, resets⟩⟩
    · rw [settled, same, was, Bool.true_or]
    · exact absurd rfl up
    · exact absurd ⟨rfl, resets⟩ stays

end Sys2Proof.Machine
end

section
/-! PROOF. What a second tick leaves of the lines: marks set and dropped, notes queued, and nothing else. -/

namespace Sys2Proof.Machine

set_option Elab.async false

variable {s t u v : State} {l a : Nat}

/-! ## Seats and entries -/

theorem Posted.fold {α : Type} (f : State → α → State) (h : ∀ t x, Posted t (f t x)) (xs : List α) (s : State) :
    Posted s (xs.foldl f s) :=
  foldl_invariant (fun t => Posted s t) f (fun t x k => k.trans (h t x)) xs s (.refl s)

theorem Posted.onChan (s : State) (c : Nat) (f : Channel → Channel) : Posted s (s.onChan c f) := .of_lines rfl

theorem Posted.putEntry (s : State) (k : Nat) (e : Entry) : Posted s (s.putEntry k e) := .of_lines rfl

theorem Posted.onTime (s : State) (f : TimeBase → TimeBase) : Posted s (s.onTime f) := .of_lines rfl

theorem Posted.freeSeat (s : State) (i : Nat) : Posted s (s.freeSeat i) := (Posted.onSeat s i _).trans (.settleMark _ i)

theorem Posted.releaseHold (s : State) (i : Nat) : Posted s (s.releaseHold i) := (Posted.freeSeat s i).trans (.noteSeat _ i _)

theorem Posted.warnTest (s : State) (k : Nat) : Posted s (s.warnTest k) := by
  unfold State.warnTest
  cases s.entry k with
  | none => exact .refl s
  | some e =>
    dsimp only
    have warned : Posted s (if e.allowed - e.written ∈ (s.chan e.channel).config.warnings then
        State.markEntry { s with warnings := mapPut s.warnings k (e.allowed - e.written) } k else s) := by
      refine .ite ?_ (.refl s)
      exact (Posted.of_lines rfl : Posted s { s with warnings := mapPut s.warnings k (e.allowed - e.written) }).trans
        (.markEntry _ k)
    generalize (if e.allowed - e.written ∈ (s.chan e.channel).config.warnings then
        State.markEntry { s with warnings := mapPut s.warnings k (e.allowed - e.written) } k else s) = w at warned ⊢
    exact .ite (.ite (warned.trans (.markEntry w k)) warned) (.refl s)

theorem Posted.exhaust (s : State) (k : Nat) : Posted s (s.exhaust k) := by
  unfold State.exhaust
  cases s.entry k with
  | none => exact .refl s
  | some e => exact ((Posted.onEntry s k _).trans (.notify _ _)).trans (.markEntry _ k)

theorem Posted.countEntry (s : State) (k : Nat) : Posted s (s.countEntry k) := by
  unfold State.countEntry
  cases s.entry k with
  | none => exact .refl s
  | some e =>
    dsimp only
    have put := Posted.putEntry s k e.count
    exact .ite (.ite (.ite (put.trans (.exhaust _ k)) put)
      (.ite (put.trans (.depart _ k _)) (put.trans (.warnTest _ k)))) (.refl s)

theorem Posted.shutOut (s : State) (k : Nat) : Posted s (s.shutOut k) := by
  unfold State.shutOut
  cases s.entry k with
  | none => exact .refl s
  | some e =>
    dsimp only
    cases e.seat with
    | none => exact .onEntry s k _
    | some i => exact (Posted.ite (.releaseHold s i) (.refl s)).trans (.onEntry _ k _)

theorem Posted.tickSeat (s : State) (i : Nat) : Posted s (s.tickSeat i) := by
  have held (f : Seat → Seat) (k : Nat) (same : ∀ r, (f r).configured = r.configured) : Posted s ((s.onSeat i f).expire i k) :=
    (Posted.onSeat s i f same).trans (((Posted.releaseHold _ i).trans (.onEntry _ k _)).trans (.notify _ _))
  have clearing (f : Seat → Seat) (same : ∀ r, (f r).configured = r.configured) : Posted s ((s.onSeat i f).endClearing i) :=
    (Posted.onSeat s i f same).trans ((Posted.freeSeat _ i).trans (.noteSeat _ i _))
  unfold State.tickSeat
  split
  · exact .ite (.refl s) (.ite (held _ _ fun _ => rfl) (.onSeat s i _))
  · exact .ite (clearing _ fun _ => rfl) (.onSeat s i _)
  · exact .refl s

/-! ## Channels -/

theorem Posted.recompute (s : State) (w k : Nat) : Posted s (s.recompute w k) := by
  unfold State.recompute
  have entry := Posted.onEntry s k fun e => { e with allowed := allowedSeconds w e.percent }
  exact .ite ((entry.trans (.markEntry _ k)).trans (.warnTest _ k)) entry

theorem Posted.dropAmendment (s : State) (c : Nat) : Posted s (s.dropAmendment c) := by
  unfold State.dropAmendment
  split
  · exact .of_lines rfl
  · exact .refl s

theorem Posted.applyPending (s : State) (c : Nat) : Posted s (s.applyPending c) := by
  unfold State.applyPending
  split
  · exact .ite (.dropAmendment s c) (((Posted.onChan s c _).trans (.fold _ (fun t k => .recompute t _ k) _ _)).trans (.notify _ _))
  · exact .refl s

theorem Posted.startWriting (s : State) (c : Nat) : Posted s (s.startWriting c) := by
  have writer (t : State) (k : Nat) : Posted t (t.startWriter k) :=
    ((Posted.onEntry t k _).trans (.dropWarning _ k)).trans (.markEntry _ k)
  exact (((Posted.onChan s c _).trans (.fold _ writer _ _)).trans (.applyPending _ c)).trans (.notify _ _)

theorem Posted.startChannel (s : State) (c : Nat) : Posted s (s.startChannel c) :=
  .ite (((Posted.onChan s c _).trans (.enterPhase _ c _)).trans (.fold _ Posted.markEntry _ _)) (.startWriting s c)

theorem Posted.closeOnce (s : State) (c : Nat) : Posted s (s.closeOnce c) :=
  .ite (.refl s) (((Posted.onChan s c _).trans (.fold _ Posted.shutOut _ _)).trans (.notify _ _))

theorem Posted.endBase (s : State) (c : Nat) : Posted s (s.endBase c) := by
  have shut : Posted s ((s.closeOnce c).dropAmendment c) := (Posted.closeOnce s c).trans (.dropAmendment _ c)
  exact .ite (shut.trans (.enterPhase _ c _)) (shut.trans ((Posted.enterPhase _ c _).trans (.reconcile _ c)))

theorem Posted.secondAmendment (s : State) (c : Nat) : Posted s (s.secondAmendment c) := .ite (.applyPending s c) (.refl s)

theorem Posted.secondClose (s : State) (c : Nat) : Posted s (s.secondClose c) := .ite (.closeOnce s c) (.refl s)

theorem Posted.secondBase (s : State) (c : Nat) : Posted s (s.secondBase c) := .ite (.endBase s c) (.refl s)

theorem Posted.countChannel (s : State) (c : Nat) : Posted s (s.countChannel c) := .fold _ Posted.countEntry _ s

theorem Posted.writingSecond (s : State) (c : Nat) : Posted s (s.writingSecond c) := by
  unfold State.writingSecond
  have amended := (Posted.onChan s c fun ch => { ch with writeElapsed := ch.writeElapsed + 1 }).trans (.secondAmendment _ c)
  exact ((amended.trans (.countChannel _ c)).trans (.secondClose _ c)).trans (.secondBase _ c)

theorem Posted.readingSecond (s : State) (c : Nat) : Posted s (s.readingSecond c) := by
  unfold State.readingSecond
  have read : Posted s ((s.onChan c fun ch => { ch with readElapsed := ch.readElapsed + 1 }).readingMarks c) :=
    (Posted.onChan s c _).trans (.ite (.fold _ Posted.markEntry _ _) (.refl _))
  exact .ite (read.trans (.startWriting _ c)) read

theorem Posted.timedAttempt (s : State) (c : Nat) : Posted s (s.timedAttempt c) := by
  unfold State.timedAttempt
  split <;> exact .of_lines rfl

theorem Posted.tickChannel (s : State) (c : Nat) : Posted s (s.tickChannel c) := by
  unfold State.tickChannel
  split
  · exact .ite (.timedAttempt s c) (.refl s)
  · exact .ite (.startChannel s c) (.refl s)
  · exact .ite (.onChan s c _) (.readingSecond s c)
  · exact .ite (.onChan s c _) (.writingSecond s c)
  · exact .ite (.onChan s c _) (.writingSecond s c)
  · exact .refl s

theorem Posted.passTick (s : State) (c : Nat) : Posted s (s.passTick c) :=
  ((Posted.of_lines rfl : Posted s (s.giveTick (some c))).trans (.tickChannel _ c)).trans (.of_lines rfl)

/-! ## The second tick and what a 1 ms tick brings besides -/

theorem Posted.consume (s : State) (x : Consumer) : Posted s (s.consume x) := by
  cases x with
  | sitting => exact .fold _ Posted.passTick _ s
  | seats => exact .fold _ Posted.tickSeat _ s
  | signals => exact .fold _ (fun t n => (.of_lines rfl : Posted t (t.onSignal n s.tickSignal))) _ s

theorem Posted.secondTickWith (s : State) (o : TickOrder) (n : Nat) {mid : State → State} (within : ∀ t, Posted t (mid t)) :
    Posted s (s.secondTickWith o n mid) := by
  unfold State.secondTickWith
  exact (((Posted.onTime s _).trans (.fold _ Posted.consume _ _)).trans (within _)).trans (.fold _ Posted.consume _ _)

theorem Posted.secondTick (s : State) (o : TickOrder) : Posted s (s.secondTick o) :=
  (Posted.onTime s _).trans (.fold _ Posted.consume _ _)

theorem Posted.changePin (s : State) : Posted s s.changePin := by
  have marks (t : State) : Posted t t.markOccupied := .fold _ (fun t p => by
    split
    · exact .setMark t _
    · exact .refl t) _ t
  unfold State.changePin State.changeHold
  exact .ite (.onTime s _) (((Posted.onTime s _).trans (.notify _ _)).trans (marks _))

theorem Posted.judgeMissing (s : State) (o : TickOrder) : Posted s (s.judgeMissing o) := by
  have lose (t : State) : Posted t (t.loseReference o) := by
    have lost : Posted t ((t.onTime fun b => { b with refState := .lost, good := 0 }).notify .refLost) := .of_lines rfl
    exact .ite (lost.trans (.secondTick _ o)) lost
  have bad (t : State) : Posted t (t.judgeBad o) := by
    unfold State.judgeBad
    split
    · exact .onTime t _
    · exact .ite ((Posted.onTime t _).trans (lose _)) (.onTime t _)
  exact (Posted.onTime s _).trans (bad _)

theorem Posted.missingFirst (s : State) (o : TickOrder) : Posted s (s.missingFirst o) := by
  unfold State.missingFirst
  split
  · exact (Posted.onTime s _).trans (.judgeMissing _ o)
  · exact .refl s

theorem Posted.missingTest (s : State) (o : TickOrder) : Posted s (s.missingTest o) := .ite (.judgeMissing s o) (.refl s)

theorem Posted.tickTail (s : State) (n : Nat) (o : TickOrder) : Posted s (s.tickTail n o) := by
  have pin (t : State) : Posted t (if s.time.pinDue then t.changePin else t) := .ite (.changePin t) (.refl t)
  exact .ite (.secondTickWith s o n pin) (pin s)

end Sys2Proof.Machine
end

section
/-! PROOF. The arbiter (R108): the order of its steps, and what lines that go on beside a line leave of it (O26). -/

namespace Sys2Proof.Machine

set_option Elab.async false

variable {s t u v : State} {l a : Nat}

/-! ## The least and the foremost of an ascending list -/

theorem State.configuredAddrs_ascend (s : State) (l : Nat) : (s.configuredAddrs l).Pairwise (· < ·) := by
  refine .filter _ ?_
  rw [addrsOf, List.pairwise_map]
  exact List.pairwise_lt_range.imp fun h => by omega

theorem State.presentAddrs_ascend (s : State) (l : Nat) : (s.presentAddrs l).Pairwise (· < ·) :=
  (s.configuredAddrs_ascend l).filter _

theorem State.mem_presentAddrs : a ∈ s.presentAddrs l ↔ a ∈ s.configuredAddrs l ∧ s.presence l a = .present := by
  simp [State.presentAddrs]

theorem find?_least {xs : List Nat} {p : Nat → Bool} (ascend : xs.Pairwise (· < ·)) (listed : a ∈ xs) (passes : p a = true)
    (least : ∀ b ∈ xs, p b = true → a ≤ b) : xs.find? p = some a := by
  induction xs with
  | nil => cases listed
  | cons x xs ih =>
    obtain ⟨below, ascend⟩ := List.pairwise_cons.1 ascend
    by_cases here : p x = true
    · have first := least x List.mem_cons_self here
      have same : x = a := by
        rcases List.mem_cons.1 listed with same | later
        · exact same.symm
        · exact absurd (below a later) (by omega)
      rw [List.find?_cons_of_pos here, same]
    · rw [List.find?_cons_of_neg here]
      refine ih ascend ((List.mem_cons.1 listed).resolve_left fun same => ?_) fun b hb => least b (List.mem_cons_of_mem x hb)
      exact here (same ▸ passes)

/-- The one with the larger key of the best so far and `a`. -/
def ahead (key : Nat → Int) (best : Option Nat) (a : Nat) : Option Nat :=
  match best with
  | some b => if key b < key a then some a else some b
  | none => some a

/-- The address of an ascending list with the largest key, the lowest on ties. -/
def foremost (key : Nat → Int) (xs : List Nat) (best : Option Nat) : Option Nat := xs.foldl (ahead key) best

theorem Line.mostOwed_eq (n : Line) (xs : List Nat) : n.mostOwed xs = foremost (fun a => (n.addr a).owed) xs none := rfl

theorem Line.leastOwed_eq (n : Line) (xs : List Nat) : n.leastOwed xs = foremost (fun a => -(n.addr a).owed) xs none := by
  have same : ∀ best a, ahead (fun a => -(n.addr a).owed) best a =
      match best with
      | some b => if (n.addr a).owed < (n.addr b).owed then some a else some b
      | none => some a := fun best a => by cases best <;> simp only [ahead, Int.neg_lt_neg_iff]
  rw [foremost, funext fun best => funext (same best)]
  rfl

theorem foremost_stays {key : Nat → Int} {xs : List Nat} (none : ∀ b ∈ xs, key b ≤ key a) :
    foremost key xs (some a) = some a := by
  induction xs with
  | nil => rfl
  | cons x xs ih =>
    have first := none x List.mem_cons_self
    show foremost key xs (if key a < key x then some x else some a) = some a
    rw [if_neg (by omega)]
    exact ih fun b hb => none b (List.mem_cons_of_mem x hb)

theorem foremost_eq {key : Nat → Int} {xs : List Nat} {best : Option Nat} (ascend : xs.Pairwise (· < ·))
    (behind : ∀ c, best = some c → key c < key a) (listed : a ∈ xs)
    (most : ∀ b ∈ xs, key b < key a ∨ key b = key a ∧ a ≤ b) : foremost key xs best = some a := by
  induction xs generalizing best with
  | nil => cases listed
  | cons x xs ih =>
    obtain ⟨below, ascend⟩ := List.pairwise_cons.1 ascend
    have more : ∀ b ∈ xs, key b < key a ∨ key b = key a ∧ a ≤ b := fun b hb => most b (List.mem_cons_of_mem x hb)
    rcases List.mem_cons.1 listed with same | later
    · subst same
      have taken : foremost key (a :: xs) best = foremost key xs (some a) := by
        cases best with
        | none => rfl
        | some c =>
          show foremost key xs (if key c < key a then some a else some c) = _
          rw [if_pos (behind c rfl)]
      rw [taken]
      exact foremost_stays fun b hb => by have := more b hb; omega
    · have smaller : key x < key a := by
        have := below a later
        have := most x List.mem_cons_self
        omega
      refine ih (best := ahead key best x) ascend (fun c hc => ?_) later more
      cases best with
      | none => cases hc; exact smaller
      | some b =>
        have behind := behind b rfl
        rw [ahead] at hc
        split at hc <;> cases hc
        · exact smaller
        · exact behind

/-! ## The arbiter's steps -/

theorem State.noteGoes_iff (n : Note) : s.noteGoes l n = true ↔
    n.addr = 0 ∨ (s.configured l n.addr = true ∧ s.presence l n.addr ≠ .faulty) := by
  simp [State.noteGoes]

theorem dropWhile_split {α : Type} {p : α → Bool} {pre post : List α} {x : α} (skips : ∀ y ∈ pre, p y = true)
    (stays : p x = false) : (pre ++ x :: post).dropWhile p = x :: post := by
  rw [List.dropWhile_append_of_pos skips, List.dropWhile_cons_of_neg (by simp [stays])]

/-- Address `a` of line `l` has been sent a POLL, and owes one less. -/
def Polled (s t : State) (l a : Nat) : Prop :=
  (t.line l).exchange = some ⟨a, .poll⟩ ∧ ((t.line l).addr a).owed = ((s.line l).addr a).owed - 1

theorem Polled.sendPoll (s : State) (l a : Nat) : Polled s (s.sendPoll l a) l a := by
  constructor
  · simp [State.sendPoll, State.send, State.onStats, State.onAddr]
  · have addrs : ((s.sendPoll l a).line l).addrs = ((s.line l).onAddr a fun r => { r with owed := r.owed - 1 }).addrs := by
      simp [State.sendPoll, State.send, State.onStats, State.onAddr]
    rw [Line.addr, addrs, ← Line.addr, Line.addr_onAddr, if_pos rfl]

/-- Steps 4 to 6 (R108). -/
theorem State.pollStep_chooses (s : State) (l : Nat) :
    (∀ a ∈ s.presentAddrs l, 0 < ((s.line l).addr a).owed →
      (∀ b ∈ s.presentAddrs l, ((s.line l).addr b).owed < ((s.line l).addr a).owed ∨
        ((s.line l).addr b).owed = ((s.line l).addr a).owed ∧ a ≤ b) → Polled s (s.pollStep l) l a) ∧
    ((∀ b ∈ s.presentAddrs l, ((s.line l).addr b).owed ≤ 0) →
      (∀ a ∈ s.configuredAddrs l, ((s.line l).addr a).due = true →
        (∀ b ∈ s.configuredAddrs l, ((s.line l).addr b).due = true → a ≤ b) →
        ((s.pollStep l).line l).exchange = some ⟨a, .discover false⟩ ∧ (((s.pollStep l).line l).addr a).due = false) ∧
      ((∀ b ∈ s.configuredAddrs l, ((s.line l).addr b).due = false) →
        (∀ a ∈ s.presentAddrs l, -8 < ((s.line l).addr a).owed →
          (∀ b ∈ s.presentAddrs l, ((s.line l).addr b).owed ≤ -8 ∨ ((s.line l).addr a).owed < ((s.line l).addr b).owed ∨
            ((s.line l).addr a).owed = ((s.line l).addr b).owed ∧ a ≤ b) → Polled s (s.pollStep l) l a) ∧
        ((∀ b ∈ s.presentAddrs l, ((s.line l).addr b).owed ≤ -8) → s.pollStep l = s))) := by
  have most (none : ∀ b ∈ s.presentAddrs l, ((s.line l).addr b).owed ≤ 0) :
      (s.line l).mostOwed ((s.presentAddrs l).filter fun a => decide (0 < ((s.line l).addr a).owed)) = Option.none := by
    rw [List.filter_eq_nil_iff.2 fun b hb => by have := none b hb; simp; omega]
    rfl
  refine ⟨fun a here some top => ?_, fun none => ⟨fun a here due least => ?_, fun undue => ⟨fun a here some low => ?_, fun low => ?_⟩⟩⟩
  · have chosen : (s.line l).mostOwed ((s.presentAddrs l).filter fun a => decide (0 < ((s.line l).addr a).owed)) =
        Option.some a := by
      rw [Line.mostOwed_eq]
      refine foremost_eq ((s.presentAddrs_ascend l).filter _) (fun _ h => nomatch h)
        (List.mem_filter.2 ⟨here, decide_eq_true some⟩) fun b hb => top b (List.mem_filter.1 hb).1
    unfold State.pollStep
    dsimp only
    rw [chosen]
    exact .sendPoll s l a
  · have found : (s.configuredAddrs l).find? (fun a => ((s.line l).addr a).due) = some a :=
      find?_least (s.configuredAddrs_ascend l) here due least
    have eq : s.pollStep l = s.sendDiscovery l a := by
      unfold State.pollStep
      dsimp only
      rw [most none]
      dsimp only
      rw [found]
    rw [eq]
    constructor
    · simp [State.sendDiscovery, State.send, State.onStats, State.onAddr]
    · have addrs : ((s.sendDiscovery l a).line l).addrs = ((s.line l).onAddr a fun r => { r with due := false }).addrs := by
        simp [State.sendDiscovery, State.send, State.onStats, State.onAddr]
      rw [Line.addr, addrs, ← Line.addr, Line.addr_onAddr, if_pos rfl]
  · have found : (s.configuredAddrs l).find? (fun a => ((s.line l).addr a).due) = Option.none :=
      List.find?_eq_none.2 fun b hb => by rw [undue b hb]; exact Bool.false_ne_true
    have chosen : (s.line l).leastOwed ((s.presentAddrs l).filter fun a => decide (-8 < ((s.line l).addr a).owed)) =
        Option.some a := by
      rw [Line.leastOwed_eq]
      refine foremost_eq ((s.presentAddrs_ascend l).filter _) (fun _ h => nomatch h)
        (List.mem_filter.2 ⟨here, decide_eq_true some⟩) fun b hb => ?_
      obtain ⟨listed, above⟩ := List.mem_filter.1 hb
      have above := of_decide_eq_true above
      have := low b listed
      omega
    unfold State.pollStep
    dsimp only
    rw [most none]
    dsimp only
    rw [found]
    dsimp only
    rw [chosen]
    exact .sendPoll s l a
  · have found : (s.configuredAddrs l).find? (fun a => ((s.line l).addr a).due) = Option.none :=
      List.find?_eq_none.2 fun b hb => by rw [undue b hb]; exact Bool.false_ne_true
    have chosen : (s.line l).leastOwed ((s.presentAddrs l).filter fun a => decide (-8 < ((s.line l).addr a).owed)) =
        Option.none := by
      rw [List.filter_eq_nil_iff.2 fun b hb => by have := low b hb; simp; omega]
      rfl
    unfold State.pollStep
    dsimp only
    rw [most none]
    dsimp only
    rw [found]
    dsimp only
    rw [chosen]

theorem State.arbitrate_owed (here : a ∈ s.presentAddrs l) (full : ((s.line l).addr a).owed = 9)
    (least : ∀ b ∈ s.presentAddrs l, ((s.line l).addr b).owed = 9 → a ≤ b) : s.arbitrate l = s.sendPoll l a := by
  unfold State.arbitrate
  rw [find?_least (s.presentAddrs_ascend l) here (decide_eq_true full) fun b hb full => least b hb (of_decide_eq_true full)]

section
variable (none : ∀ b ∈ s.presentAddrs l, ((s.line l).addr b).owed ≠ 9)
include none

theorem State.arbitrate_marked (served : s.markServed l = some a) : s.arbitrate l = s.sendClock l a := by
  unfold State.arbitrate
  rw [List.find?_eq_none.2 fun b hb => by simp [none b hb]]
  dsimp only
  rw [served]

theorem State.arbitrate_unmarked (unserved : s.markServed l = Option.none) : s.arbitrate l = s.noteStep l := by
  unfold State.arbitrate
  rw [List.find?_eq_none.2 fun b hb => by simp [none b hb]]
  dsimp only
  rw [unserved]

end

theorem State.markServed_first {pre post : List Nat} (hl : l < 6) (marks : (s.line l).marks = pre ++ a :: post)
    (before : ∀ b ∈ pre, s.presence l b ≠ .present) (present : s.presence l a = .present) : s.markServed l = some a := by
  rw [State.markServed, if_pos (show isSeatLine l = true from decide_eq_true hl), marks,
    List.find?_append, List.find?_eq_none.2 fun b hb => by simp [before b hb], List.find?_cons_of_pos (by simp [present])]
  rfl

theorem State.markServed_none (none : l < 6 → ∀ b ∈ (s.line l).marks, s.presence l b ≠ .present) : s.markServed l = Option.none := by
  rw [State.markServed]
  split
  · next seats => exact List.find?_eq_none.2 fun b hb => by simp [none (of_decide_eq_true seats) b hb]
  · rfl

/-- A CLOCK frame goes out with the content of the seat, and the warning it tells is spent (R72, R110). -/
theorem State.sendClock_sends (s : State) (l a : Nat) :
    ((s.sendClock l a).line l).exchange = some ⟨a, .clock (s.clockContent (seatIndex l a)) false⟩ ∧
      ((s.sendClock l a).line l).marks = (s.line l).marks ∧
      ∀ k, (s.seat (seatIndex l a)).occ = .occupied k → mapGet (s.sendClock l a).warnings k = none := by
  refine ⟨by simp [State.sendClock, State.send, State.onStats], by simp [State.sendClock, State.send, State.onStats], ?_⟩
  intro k occ
  show mapGet (s.spendWarning (seatIndex l a)).warnings k = none
  unfold State.spendWarning
  rw [occ]
  show mapGet (mapErase s.warnings k) k = none
  rw [mapGet_mapErase, if_pos rfl]

/-- The first note that can go is sent (R113). -/
theorem State.noteStep_sends {pre post : List Note} {x : Note} (fifo : (s.line l).fifo = pre ++ x :: post)
    (before : ∀ y ∈ pre, s.noteGoes l y = false) (goes : s.noteGoes l x = true) :
    ((s.noteStep l).line l).exchange = some ⟨x.addr, if x.addr = 0 then .broadcast x.content else .note x.content⟩ ∧
      ((s.noteStep l).line l).fifo = post := by
  unfold State.noteStep
  rw [fifo, dropWhile_split (fun y hy => by simp [before y hy]) (by simp [goes])]
  constructor <;> simp [State.send, State.onStats, Note.exchange]

theorem State.noteStep_none (none : ∀ y ∈ (s.line l).fifo, s.noteGoes l y = false) :
    s.noteStep l = (s.onLine l fun m => { m with fifo := [] }).pollStep l := by
  unfold State.noteStep
  rw [List.dropWhile_eq_nil_iff.2 fun y hy => by simp [none y hy]]

/-- The arbiter chooses by its six steps (R108). -/
theorem State.arbitrate_arbitrated (s : State) (l : Nat) (free : (s.line l).exchange = none) : Arbitrated s (s.arbitrate l) l := by
  have known (b : Nat) : (b ∈ s.configuredAddrs l ∧ s.presence l b = .present) ↔ b ∈ s.presentAddrs l :=
    State.mem_presentAddrs.symm
  have quiet (x : Note) : ¬(x.addr = 0 ∨ (s.configured l x.addr = true ∧ s.presence l x.addr ≠ .faulty)) →
      s.noteGoes l x = false := fun h => Bool.eq_false_iff.2 fun goes => h (State.noteGoes_iff x |>.1 goes)
  unfold Arbitrated
  dsimp only
  simp only [known]
  refine ⟨fun a here full least => ?_, fun none => ⟨fun pre a post hl marks before present => ?_, fun unmarked =>
    ⟨fun pre x post fifo before goes => ?_, fun still => ?_⟩⟩⟩
  · rw [State.arbitrate_owed here full least]
    exact Polled.sendPoll s l a
  · rw [State.arbitrate_marked none (State.markServed_first hl marks before present)]
    exact s.sendClock_sends l a
  · rw [State.arbitrate_unmarked none (State.markServed_none unmarked)]
    exact State.noteStep_sends fifo (fun y hy => quiet y (before y hy)) ((State.noteGoes_iff x).2 goes)
  · rw [State.arbitrate_unmarked none (State.markServed_none unmarked), State.noteStep_none fun y hy => quiet y (still y hy)]
    have line : (s.onLine l fun m => { m with fifo := [] }).line l = { s.line l with fifo := [] } := by
      rw [State.line_onLine, if_pos rfl]
    have present : (s.onLine l fun m => { m with fifo := [] }).presentAddrs l = s.presentAddrs l := by
      simp only [State.presentAddrs, State.presence, line]
      rfl
    obtain ⟨most, rest⟩ := (s.onLine l fun m => { m with fifo := [] }).pollStep_chooses l
    have noted := ((s.onLine l fun m => { m with fifo := [] }).marks_pollStep l).2
    unfold Polled at most rest
    rw [line, present] at most rest
    rw [line] at noted
    refine ⟨noted, most, fun below => ?_⟩
    obtain ⟨due, rest⟩ := rest below
    refine ⟨due, fun undue => ?_⟩
    obtain ⟨low, spent⟩ := rest undue
    refine ⟨low, fun none => ?_⟩
    rw [spent none, line]
    exact free

/-! ## Lines that go on beside a line -/

theorem warned_of {s t : State} {k : Nat} {p : Prop} (same : t.warnings = s.warnings) :
    mapGet t.warnings k = mapGet s.warnings k ∨ p := .inl (by rw [same])

/-- What a line's going on does to the warnings: it spends those of the candidates at its own desks alone. -/
theorem State.warned_arbitrate (lawful : s.linesLawful = true) (k : Nat) :
    mapGet (s.arbitrate l).warnings k = mapGet s.warnings k ∨ ∃ i, seatLine i = l ∧ (s.seat i).occ = .occupied k := by
  have polled (t : State) : (t.pollStep l).warnings = t.warnings := by
    unfold State.pollStep
    dsimp only
    split
    · rfl
    · split
      · rfl
      · split <;> rfl
  unfold State.arbitrate
  split
  · exact warned_of rfl
  · split
    · next a served =>
      have marked : a ∈ (s.line l).marks := by
        unfold State.markServed at served
        split at served
        · exact List.mem_of_find?_eq_some served
        · cases served
      obtain ⟨low, high⟩ := ((Line.lawful_iff _).1 (State.line_lawful lawful l)).2.1 a marked
      show mapGet (s.spendWarning (seatIndex l a)).warnings k = _ ∨ _
      unfold State.spendWarning
      split
      · next j occ =>
        show mapGet (mapErase s.warnings j) k = _ ∨ _
        rw [mapGet_mapErase]
        split
        · next own => exact .inr ⟨_, seatLine_index l low high, own ▸ occ⟩
        · exact .inl rfl
      · exact .inl rfl
    · unfold State.noteStep
      split
      · exact warned_of (by simp [State.send, State.onStats])
      · exact warned_of (polled _)

theorem State.warned_runLine (lawful : s.linesLawful = true) (k : Nat) :
    mapGet (s.runLine l).warnings k = mapGet s.warnings k ∨ ∃ i, seatLine i = l ∧ (s.seat i).occ = .occupied k := by
  unfold State.runLine
  split
  · exact warned_of rfl
  · split
    · exact State.warned_arbitrate lawful k
    · unfold State.quietStep
      split <;> exact warned_of rfl
    · unfold State.sweepStep
      split
      · exact warned_of rfl
      · have warnings : (s.endSweep l).warnings = s.warnings := by
          unfold State.endSweep
          dsimp only
          split
          · exact foldl_keeps State.warnings State.setMark (fun _ _ => rfl) _ _
          · rfl
        have seats : (s.endSweep l).seats = s.seats := (Moves.endSweep s l).frame.2 .seats (by decide)
        have ended := State.warned_arbitrate (l := l) ((Moves.endSweep s l).lawful lawful) k
        rw [warnings] at ended
        simpa only [State.seat, seats] using ended
    · unfold State.testStep
      dsimp only
      split
      · exact warned_of rfl
      · have warnings : (s.endTest l).warnings = s.warnings := by simp [State.endTest, State.restartInterval]
        have seats : (s.endTest l).seats = s.seats := by simp [State.endTest, State.restartInterval]
        have ended := State.warned_arbitrate (l := l) ((Moves.endTest s l).lawful lawful) k
        rw [warnings] at ended
        simpa only [State.seat, seats] using ended

/-- From `s` to `t` lines other than `l` have gone on, and the candidates at the desks of `l` keep their warnings. -/
structure Beyond (l : Nat) (s t : State) : Prop extends Aside l s t where
  lawful : t.linesLawful = true
  warned : ∀ k i, (s.seat i).occ = .occupied k → seatLine i = l → mapGet t.warnings k = mapGet s.warnings k

theorem Aside.seats (h : Aside l s t) : t.seats = s.seats := by rw [← State.still_seats t, h.still, State.still_seats]

theorem SeatsTied.one_seat (tied : SeatsTied s) {i j k : Nat} (occ : (s.seat i).occ = .occupied k)
    (occ' : (s.seat j).occ = .occupied k) : i = j := by
  obtain ⟨e, found, own, -⟩ := tied.entry_of (i := i) (k := k) (x := true) (by rw [occ]; rfl)
  obtain ⟨e', found', own', -⟩ := tied.entry_of (i := j) (k := k) (x := true) (by rw [occ']; rfl)
  cases found.symm.trans found'
  exact Option.some.inj (own.symm.trans own')

theorem Beyond.warned_run {m : Nat} (tied : SeatsTied s) (aside : Aside l s t) (lawful : t.linesLawful = true) (other : m ≠ l)
    {k i : Nat} (occ : (s.seat i).occ = .occupied k) (here : seatLine i = l) :
    mapGet (t.runLine m).warnings k = mapGet t.warnings k := by
  refine (State.warned_runLine lawful k).resolve_right fun ⟨j, there, occ'⟩ => ?_
  rw [State.seat, aside.seats, ← State.seat] at occ'
  exact other (by rw [← there, ← here, tied.one_seat occ occ'])

/-- What follows at once, for line `l`, its candidates' warnings among it. -/
theorem State.settle_beyond_split (s : State) {l : Nat} (hl : l < 7) (tied : SeatsTied s) (lawful : s.linesLawful = true) :
    ∃ u, Beyond l s u ∧ s.settle.line l = (u.runLine l).line l ∧
      ∀ k i, (s.seat i).occ = .occupied k → seatLine i = l → mapGet s.settle.warnings k = mapGet (u.runLine l).warnings k := by
  rw [State.line_settle, State.warnings_settle]
  refine (foldl_split State.runLine l (Beyond l s) (fun t => t.linesLawful = true ∧ t.seats = s.seats ∧
      ∃ u, Beyond l s u ∧ t.line l = (u.runLine l).line l ∧ ∀ k i, (s.seat i).occ = .occupied k → seatLine i = l →
        mapGet t.warnings k = mapGet (u.runLine l).warnings k)
    (fun t m other h => ?_) (fun t h => ?_) (fun t m other h => ?_) _ lineNumbers_nodup
    ((mem_lineNumbers l).2 hl) s ⟨.refl s, lawful, fun _ _ _ _ => rfl⟩).2.2
  · exact ⟨h.toAside.runLine other, (Moves.runLine t m).lawful h.lawful, fun k i occ here =>
      (Beyond.warned_run tied h.toAside h.lawful other occ here).trans (h.warned k i occ here)⟩
  · exact ⟨(Moves.runLine t l).lawful h.lawful, ((Moves.runLine t l).frame.2 .seats (by decide)).trans h.seats, t, h, rfl,
      fun _ _ _ _ => rfl⟩
  · obtain ⟨sound, seats, u, beyond, line, warned⟩ := h
    refine ⟨(Moves.runLine t m).lawful sound, ((Moves.runLine t m).frame.2 .seats (by decide)).trans seats, u, beyond,
      ((LineRun.runLine t m).others l (Ne.symm other)).trans line, fun k i occ here => ?_⟩
    rw [← warned k i occ here]
    refine (State.warned_runLine sound k).resolve_right fun ⟨j, there, occ'⟩ => ?_
    rw [State.seat, seats, ← State.seat] at occ'
    exact other (by rw [← there, ← here, tied.one_seat occ occ'])

/-! ## The arbiter's choice through what follows at once -/

/-- The content of a CLOCK frame for a seat, by what it reads (R72). -/
theorem State.clockContent_congr {i : Nat} (still : u.still = s.still)
    (warned : ∀ k, (s.seat i).occ = .occupied k → mapGet u.warnings k = mapGet s.warnings k) :
    u.clockContent i = s.clockContent i := by
  have seat : u.seat i = s.seat i := by rw [State.seat, ← State.still_seats u, still, State.still_seats, ← State.seat]
  have entry (k : Nat) : u.entry k = s.entry k := by
    rw [State.entry, ← State.still_roster u, still, State.still_roster, ← State.entry]
  have chan (c : Nat) : u.chan c = s.chan c := by
    rw [State.chan, ← State.still_channels u, still, State.still_channels, ← State.chan]
  have time : u.time = s.time := by rw [← State.still_time u, still, State.still_time]
  unfold State.clockContent
  rw [seat]
  cases occ : (s.seat i).occ with
  | free => rfl
  | held k n => dsimp only; rw [entry]
  | clearing n => rfl
  | occupied k =>
    dsimp only
    rw [entry]
    cases s.entry k with
    | none => rfl
    | some e =>
      dsimp only
      rw [chan, time, warned k occ]

theorem Arbitrated.congr {w : State} (marks : (u.line l).marks = (s.line l).marks) (fifo : (u.line l).fifo = (s.line l).fifo)
    (addr : ∀ a, (u.line l).addr a = (s.line l).addr a) (seats : u.seats = s.seats) (stations : u.stations = s.stations)
    (clock : ∀ a ∈ (s.line l).marks, u.clockContent (seatIndex l a) = s.clockContent (seatIndex l a))
    (line : w.line l = t.line l) (told : ∀ a ∈ (s.line l).marks, ∀ k, (s.seat (seatIndex l a)).occ = .occupied k → mapGet t.warnings k = none →
      mapGet w.warnings k = none)
    (h : Arbitrated u t l) : Arbitrated s w l := by
  have presence (a : Nat) : u.presence l a = s.presence l a := by rw [State.presence, State.presence, addr]
  have configured (a : Nat) : u.configured l a = s.configured l a := State.configured_congr seats stations l a
  have known : u.configuredAddrs l = s.configuredAddrs l := by simp only [State.configuredAddrs, configured]
  have seat (i : Nat) : u.seat i = s.seat i := by rw [State.seat, seats, ← State.seat]
  unfold Arbitrated at h ⊢
  dsimp only at h ⊢
  simp only [marks, fifo, addr, presence, configured, known, seat] at h
  rw [line]
  obtain ⟨full, rest⟩ := h
  refine ⟨full, fun none => ⟨fun pre a post hl split before present => ?_, (rest none).2⟩⟩
  obtain ⟨sent, stands, spent⟩ := (rest none).1 pre a post hl split before present
  have marked : a ∈ (s.line l).marks := by rw [split]; simp
  exact ⟨clock a marked ▸ sent, stands, fun k occ => told a marked k occ (spent k occ)⟩

theorem State.onLine_congr {f g : Line → Line} (same : f (s.line l) = g (s.line l)) : s.onLine l f = s.onLine l g := by
  unfold State.onLine
  rw [same]

/-- The last byte of a broadcast leaves a line that is not under test (R99, R102). -/
theorem exec_broadcastEnd {l : Fin 7} {c : NoteContent} (flight : (s.line l).exchange = some ⟨0, .broadcast c⟩)
    (working : (s.line l).state ≠ .testing) :
    exec (.broadcastEnd l) s = .next (s.onLine l fun n => { n with exchange := none }).settle := by
  have ends : s.broadcastEnd l = s.onLine l fun n => { n with exchange := none } := by
    unfold State.broadcastEnd
    rw [flight]
    show s.onLine l (fun n => Line.startTest { n with exchange := none }) = _
    refine State.onLine_congr ?_
    unfold Line.startTest
    rw [if_neg fun h => working h.2.1]
  rw [← ends]
  rfl

/-- A broadcast's end on a line that is not under test changes nothing but the line (R99). -/
theorem Moves.endBroadcast (s : State) (l : Nat) : Moves [] s (s.onLine l fun n => { n with exchange := none }) :=
  .onLine_addrs s l _ rfl fun lawful => by
    rw [Line.lawful_iff] at lawful ⊢
    obtain ⟨nodup, marks, fifo, discovery, addrs, -⟩ := lawful
    exact ⟨nodup, marks, fifo, discovery, addrs, nofun⟩

theorem broadcast_rests (l : Fin 7) (c : NoteContent) (s : State) (flight : (s.line l).exchange = some ⟨0, .broadcast c⟩)
    (quiet : (s.line l).state = .quiet) (flushed : (s.line l).blankDue = false) :
    ∃ t, exec (.broadcastEnd l) s = .next t ∧ t.line l = { s.line l with exchange := none } ∧ Unchanged [] s t := by
  refine ⟨_, exec_broadcastEnd flight (by rw [quiet]; nofun), ?_, (Moves.endBroadcast s l).frame.trans (Moves.settle _).frame⟩
  obtain ⟨u, aside, line, -⟩ := (s.onLine l fun n => { n with exchange := none }).settle_split l.isLt
  have freed : u.line l = { s.line l with exchange := none } := by rw [aside.line, State.line_onLine, if_pos rfl]
  have rests : u.runLine l = u := by
    unfold State.runLine State.quietStep
    rw [freed]
    dsimp only
    rw [quiet, flushed]
    rfl
  rw [line, rests, freed]

theorem broadcast_arbitrated (l : Fin 7) (c : NoteContent) (s : State) (flight : (s.line l).exchange = some ⟨0, .broadcast c⟩)
    (active : (s.line l).state = .active) (tied : SeatsTied s) (lawful : s.linesLawful = true) :
    ∃ t, exec (.broadcastEnd l) s = .next t ∧ Unchanged [] s t ∧ Arbitrated s t l := by
  have moves := Moves.endBroadcast s l
  refine ⟨_, exec_broadcastEnd flight (by rw [active]; nofun), moves.frame.trans (Moves.settle _).frame, ?_⟩
  have line : (s.onLine l fun n => { n with exchange := none }).line l = { s.line l with exchange := none } := by
    rw [State.line_onLine, if_pos rfl]
  have still := State.still_onLine s l fun n => { n with exchange := none }
  have seat : (s.onLine l fun n => { n with exchange := none }).seats = s.seats := rfl
  have told : (s.onLine l fun n => { n with exchange := none }).warnings = s.warnings := rfl
  have tied' : SeatsTied (s.onLine l fun n => { n with exchange := none }) := tied.of_moves moves (by decide) (by decide)
  have lawful' := moves.lawful lawful
  generalize (s.onLine l fun n => { n with exchange := none }) = v at line still seat told tied' lawful' ⊢
  obtain ⟨u, beyond, settled, spent⟩ := v.settle_beyond_split l.isLt tied' lawful'
  have own : u.line l = { s.line l with exchange := none } := beyond.line.trans line
  have runs : u.runLine l = u.arbitrate l := by
    unfold State.runLine
    rw [own]
    dsimp only
    rw [active]
    rfl
  have chosen := u.arbitrate_arbitrated l (by rw [own])
  have same : u.still = s.still := beyond.still.trans still
  have stations : u.stations = s.stations := by rw [← State.still_stations u, same, State.still_stations]
  have seats (i : Nat) : v.seat i = s.seat i := by rw [State.seat, seat, ← State.seat]
  have here : ∀ a ∈ (s.line l).marks, seatLine (seatIndex l a) = l := fun a marked =>
    have ⟨low, high⟩ := ((Line.lawful_iff _).1 (State.line_lawful lawful l)).2.1 a marked
    seatLine_index l low high
  refine .congr (u := u) (t := u.arbitrate l) (by rw [own]) (by rw [own]) (fun a => by rw [own]; rfl) (beyond.seats.trans seat)
    stations (fun a marked => ?_) (by rw [settled, runs]) (fun a marked k occ none => ?_) chosen
  · refine State.clockContent_congr same fun k occ => ?_
    rw [beyond.warned k _ (by rw [seats]; exact occ) (here a marked), told]
  · rw [spent k _ (by rw [seats]; exact occ) (here a marked), runs]
    exact none

end Sys2Proof.Machine
end

section
/-! PROOF. Interval ends (R106, R107), by INTERVAL_END and by the 1 ms tick that reaches one (O26). -/

namespace Sys2Proof.Machine

set_option Elab.async false

variable {s t u v : State} {l a : Nat}

/-! ## Owed polls -/

theorem Line.addr_oweAll {n : Line} {xs : List Nat} (nodup : xs.Nodup) (a : Nat) :
    (n.oweAll xs).addr a = if a ∈ xs then (n.addr a).owe else n.addr a := by
  rw [Line.oweAll_eq]
  induction xs generalizing n with
  | nil => simp
  | cons x xs ih =>
    obtain ⟨fresh, nodup⟩ := List.nodup_cons.1 nodup
    rw [List.foldl_cons, ih nodup, Line.addr_oweOne]
    by_cases own : x = a
    · subst own
      rw [if_neg fresh, if_pos rfl, if_pos List.mem_cons_self]
    · rw [if_neg own]
      simp only [List.mem_cons, Ne.symm own, false_or]

/-- A late poll is counted for each address that stood at 9 (R106). -/
theorem Line.latePolls_oweAll {n : Line} {xs : List Nat} (nodup : xs.Nodup) : (n.oweAll xs).stats.latePolls =
    statUp^[(xs.filter fun a => decide (9 ≤ (n.addr a).owed)).length] n.stats.latePolls := by
  rw [Line.oweAll_eq]
  induction xs generalizing n with
  | nil => rfl
  | cons x xs ih =>
    obtain ⟨fresh, nodup⟩ := List.nodup_cons.1 nodup
    have others : (xs.filter fun a => decide (9 ≤ ((n.oweOne x).addr a).owed)) =
        xs.filter fun a => decide (9 ≤ (n.addr a).owed) := List.filter_congr fun b hb => by
      rw [Line.addr_oweOne, if_neg (ne_of_mem_of_not_mem hb fresh).symm]
    rw [List.foldl_cons, ih nodup, others]
    by_cases late : 9 ≤ (n.addr x).owed
    · rw [List.filter_cons_of_pos (by simp [late]), List.length_cons, Function.iterate_succ_apply]
      unfold Line.oweOne
      dsimp only
      rw [if_pos late]
      rfl
    · rw [List.filter_cons_of_neg (by simp [late])]
      unfold Line.oweOne
      dsimp only
      rw [if_neg late]
      rfl

theorem Line.discovery_oweAll (n : Line) (xs : List Nat) : (n.oweAll xs).discovery = n.discovery :=
  foldl_keeps Line.discovery _ (fun m a => by dsimp only; split <;> rfl) xs n

/-! ## A discovery round -/

theorem State.addr_discoveryRound (s : State) (l a : Nat) : ((s.discoveryRound l).line l).addr a =
    if a ∈ s.configuredAddrs l ∧ (s.presence l a = .absent ∨ s.presence l a = .lost)
    then { (s.line l).addr a with due := true } else (s.line l).addr a := by
  have fold (xs : List Nat) (nodup : xs.Nodup) (t : State) :
      ((xs.foldl (fun t a => if s.presence l a = .absent ∨ s.presence l a = .lost then
        t.onAddr l a fun r => { r with due := true } else t) t).line l).addr a =
      if a ∈ xs ∧ (s.presence l a = .absent ∨ s.presence l a = .lost) then { (t.line l).addr a with due := true }
      else (t.line l).addr a := by
    induction xs generalizing t with
    | nil => simp
    | cons x xs ih =>
      obtain ⟨fresh, nodup⟩ := List.nodup_cons.1 nodup
      rw [List.foldl_cons, ih nodup]
      have one : ((if s.presence l x = .absent ∨ s.presence l x = .lost then
          t.onAddr l x fun r => { r with due := true } else t).line l).addr a =
          if a = x ∧ (s.presence l a = .absent ∨ s.presence l a = .lost) then { (t.line l).addr a with due := true }
          else (t.line l).addr a := by
        by_cases own : a = x
        · subst own
          by_cases gone : s.presence l a = .absent ∨ s.presence l a = .lost
          · rw [if_pos gone, if_pos ⟨rfl, gone⟩, State.onAddr, State.line_onLine, if_pos rfl, Line.addr_onAddr, if_pos rfl]
          · rw [if_neg gone, if_neg fun h => gone h.2]
        · rw [if_neg (show ¬(a = x ∧ (s.presence l a = .absent ∨ s.presence l a = .lost)) from fun h => own h.1)]
          split
          · rw [State.onAddr, State.line_onLine, if_pos rfl, Line.addr_onAddr, if_neg (Ne.symm own)]
          · rfl
      rw [one]
      by_cases own : a = x
      · subst own
        rw [if_neg fun h => fresh h.1]
        simp only [List.mem_cons_self, true_and]
      · simp only [own, false_and, if_false, List.mem_cons, false_or]
  exact fold _ ((s.configuredAddrs_ascend l).imp Nat.ne_of_lt) s

theorem State.bare_discoveryRound (s : State) (l : Nat) : ((s.discoveryRound l).line l).discovery = (s.line l).discovery ∧
    ((s.discoveryRound l).line l).stats = (s.line l).stats :=
  foldl_invariant (fun t : State => (t.line l).discovery = (s.line l).discovery ∧ (t.line l).stats = (s.line l).stats) _
    (fun t a h => by
      split
      · rw [State.onAddr, State.line_onLine, if_pos rfl]
        exact h
      · exact h) (s.configuredAddrs l) s ⟨rfl, rfl⟩

/-! ## The end of an interval -/

/-- An interval has ended on ACTIVE line `l` (R106, R107). -/
def IntervalEnded (s t : State) (l : Nat) : Prop :=
  (t.line l).timer = 0 ∧ (t.line l).interval = s.pollInterval l ∧
    (t.line l).discovery = (if (s.line l).discovery < 15 then (s.line l).discovery + 1 else 0) ∧
    (∀ a, ((t.line l).addr a).owed = if a ∈ s.configuredAddrs l ∧ s.presence l a = .present
      then min 9 (((s.line l).addr a).owed + 1) else ((s.line l).addr a).owed) ∧
    (t.line l).stats.latePolls =
      statUp^[((s.presentAddrs l).filter fun a => decide (9 ≤ ((s.line l).addr a).owed)).length]
        (s.line l).stats.latePolls ∧
    ∀ a, ((t.line l).addr a).due = (((s.line l).addr a).due || (decide (15 ≤ (s.line l).discovery) &&
      decide (a ∈ s.configuredAddrs l) && decide (s.presence l a = .absent ∨ s.presence l a = .lost)))

/-- What the discovery count leaves (R106, R107). -/
theorem State.advanceDiscovery_ends (s : State) (l : Nat) :
    ((s.advanceDiscovery l).line l).discovery = (if (s.line l).discovery < 15 then (s.line l).discovery + 1 else 0) ∧
      ((s.advanceDiscovery l).line l).stats = (s.line l).stats ∧
      ∀ a, ((s.advanceDiscovery l).line l).addr a = if 15 ≤ (s.line l).discovery ∧ a ∈ s.configuredAddrs l ∧
        (s.presence l a = .absent ∨ s.presence l a = .lost) then { (s.line l).addr a with due := true }
        else (s.line l).addr a := by
  have line : (s.onLine l fun n => { n with discovery := 0 }).line l = { s.line l with discovery := 0 } := by
    rw [State.line_onLine, if_pos rfl]
  have presence (a : Nat) : (s.onLine l fun n => { n with discovery := 0 }).presence l a = s.presence l a := by
    rw [State.presence, line]; rfl
  have known : (s.onLine l fun n => { n with discovery := 0 }).configuredAddrs l = s.configuredAddrs l := rfl
  unfold State.advanceDiscovery
  by_cases wraps : 16 ≤ (s.line l).discovery + 1
  · rw [if_pos wraps]
    obtain ⟨count, stats⟩ := (s.onLine l fun n => { n with discovery := 0 }).bare_discoveryRound l
    refine ⟨?_, ?_, fun a => ?_⟩
    · rw [count, line, if_neg (by omega)]
    · rw [stats, line]
    · rw [State.addr_discoveryRound, presence, known, line]
      simp only [show 15 ≤ (s.line l).discovery by omega, true_and]
      rfl
  · rw [if_neg wraps, State.line_onLine, if_pos rfl]
    refine ⟨?_, rfl, fun a => ?_⟩
    · rw [if_pos (by omega)]
    · rw [if_neg fun h => by omega]
      rfl

theorem IntervalEnded.endInterval (active : (s.line l).state = .active) : IntervalEnded s (s.endInterval l) l := by
  have nodup : (s.presentAddrs l).Nodup := (s.presentAddrs_ascend l).imp Nat.ne_of_lt
  obtain ⟨timer, interval, -, -⟩ := s.timer_endInterval l
  have eq : s.endInterval l =
      ((s.restartInterval l).onLine l fun n => n.oweAll (s.presentAddrs l)).advanceDiscovery l := by
    unfold State.endInterval
    rw [if_pos active]
  obtain ⟨v, hv⟩ : ∃ v, (s.restartInterval l).onLine l (fun n => n.oweAll (s.presentAddrs l)) = v := ⟨_, rfl⟩
  have seats : v.seats = s.seats := by rw [← hv]; rfl
  have stations : v.stations = s.stations := by rw [← hv]; rfl
  have line : v.line l = ({ s.line l with timer := 0, interval := s.pollInterval l } : Line).oweAll (s.presentAddrs l) := by
    rw [← hv, State.line_onLine, if_pos rfl, State.restartInterval, State.line_onLine, if_pos rfl]
  have addr (a : Nat) : (v.line l).addr a = if a ∈ s.presentAddrs l then ((s.line l).addr a).owe else (s.line l).addr a := by
    rw [line, Line.addr_oweAll nodup]; rfl
  have presence (a : Nat) : v.presence l a = s.presence l a := by
    rw [State.presence, addr]
    split <;> rfl
  have known : v.configuredAddrs l = s.configuredAddrs l := by
    simp only [State.configuredAddrs, State.configured_congr seats stations]
  have discovery : (v.line l).discovery = (s.line l).discovery := by rw [line, Line.discovery_oweAll]
  rw [hv] at eq
  obtain ⟨count, stats, desks⟩ := v.advanceDiscovery_ends l
  rw [← eq] at count stats desks
  refine ⟨timer, interval, ?_, fun a => ?_, ?_, fun a => ?_⟩
  · rw [count, discovery]
  · have owed : ((v.line l).addr a).owed = if a ∈ s.configuredAddrs l ∧ s.presence l a = .present
        then min 9 (((s.line l).addr a).owed + 1) else ((s.line l).addr a).owed := by
      rw [addr]
      simp only [State.mem_presentAddrs]
      split <;> rfl
    rw [desks, ← owed]
    split <;> rfl
  · rw [stats, line, Line.latePolls_oweAll nodup]
    rfl
  · have due : ((v.line l).addr a).due = ((s.line l).addr a).due := by
      rw [addr]
      split <;> rfl
    rw [desks, discovery, known, presence]
    split
    · next h => obtain ⟨full, listed, gone⟩ := h; simp [full, listed, gone]
    · next h =>
      have round : (decide (15 ≤ (s.line l).discovery) && decide (a ∈ s.configuredAddrs l) &&
          decide (s.presence l a = .absent ∨ s.presence l a = .lost)) = false := by
        rw [Bool.eq_false_iff]
        simpa [and_assoc] using h
      rw [round, Bool.or_false, due]

theorem IntervalEnded.after (h : IntervalEnded s t l) (kept : (u.line l).bare = (t.line l).bare) : IntervalEnded s u l := by
  have addr (a : Nat) : (u.line l).addr a = (t.line l).addr a := (congrArg (fun n : Line => n.addr a) kept :)
  obtain ⟨timer, interval, discovery, owed, late, due⟩ := h
  refine ⟨(congrArg Line.timer kept).trans timer, (congrArg Line.interval kept).trans interval,
    (congrArg Line.discovery kept).trans discovery, fun a => ?_, (congrArg (fun n : Line => n.stats.latePolls) kept).trans late,
    fun a => ?_⟩
  · rw [addr]; exact owed a
  · rw [addr]; exact due a

/-- The interval of a line that has stood so before it ended. -/
theorem IntervalEnded.before (h : IntervalEnded v t l) (addr : ∀ a, (v.line l).addr a = (s.line l).addr a)
    (discovery : (v.line l).discovery = (s.line l).discovery) (late : (v.line l).stats.latePolls = (s.line l).stats.latePolls)
    (configured : ∀ a, v.configured l a = s.configured l a) (hall : v.hall = s.hall) : IntervalEnded s t l := by
  have presence (a : Nat) : v.presence l a = s.presence l a := by rw [State.presence, State.presence, addr]
  have known : v.configuredAddrs l = s.configuredAddrs l := by simp only [State.configuredAddrs, configured]
  have present : v.presentAddrs l = s.presentAddrs l := by simp only [State.presentAddrs, known, presence]
  have interval : v.pollInterval l = s.pollInterval l := by rw [State.pollInterval, State.pollInterval, hall]
  unfold IntervalEnded at h ⊢
  simpa only [addr, discovery, late, known, present, interval, presence] using h

/-! ## An interval end through what follows at once -/

/-- Line `l` stands at the start of an interval (R106). -/
def State.restarted (s : State) (l : Nat) : Prop := (s.line l).timer = 0 ∧ (s.line l).interval = s.pollInterval l

theorem State.restarted_arbitrate (h : s.restarted l) : (s.arbitrate l).restarted l := by
  have core := s.core_arbitrate l
  have hall : (s.arbitrate l).hall = s.hall := (Moves.arbitrate s l).frame.2 .hall (by decide)
  refine ⟨(congrArg Line.timer core :).trans h.1, (congrArg Line.interval core :).trans (h.2.trans ?_)⟩
  rw [State.pollInterval, State.pollInterval, hall]

theorem State.restarted_restartInterval (s : State) (l : Nat) : (s.restartInterval l).restarted l := by
  constructor <;> rw [State.restartInterval, State.line_onLine, if_pos rfl]
  rfl

theorem State.restarted_endSweep (s : State) (l : Nat) : (s.endSweep l).restarted l := by
  unfold State.endSweep
  dsimp only
  generalize s.onLine l _ = v
  have start := v.restarted_restartInterval l
  generalize v.restartInterval l = w at start ⊢
  split
  · have marked := Posted.fold State.setMark Posted.setMark (s.usedSeats l) (w.onLine l fun n => { n with resetSweep := false })
    have hall : (List.foldl State.setMark (w.onLine l fun n => { n with resetSweep := false }) (s.usedSeats l)).hall = w.hall :=
      foldl_keeps State.hall State.setMark (fun _ _ => rfl) _ _
    have line : (w.onLine l fun n => { n with resetSweep := false }).line l = { w.line l with resetSweep := false } := by
      rw [State.line_onLine, if_pos rfl]
    have same := marked.lines l
    rw [line] at same
    refine ⟨(congrArg Line.timer same :).trans start.1, (congrArg Line.interval same :).trans (start.2.trans ?_)⟩
    rw [State.pollInterval, State.pollInterval, hall]
  · exact start

theorem State.restarted_runLine (h : s.restarted l) : (s.runLine l).restarted l := by
  unfold State.runLine
  split
  · exact h
  · split
    · exact State.restarted_arbitrate h
    · unfold State.quietStep
      split
      · constructor
        · simpa [State.send, State.onStats, Line.flush] using h.1
        · simpa [State.send, State.onStats, Line.flush, State.pollInterval] using h.2
      · exact h
    · unfold State.sweepStep
      split
      · constructor
        · simpa [State.send, State.onStats] using h.1
        · simpa [State.send, State.onStats, State.pollInterval] using h.2
      · exact State.restarted_arbitrate (s.restarted_endSweep l)
    · unfold State.testStep
      dsimp only
      split
      · constructor
        · simpa [State.send] using h.1
        · simpa [State.send, State.pollInterval] using h.2
      · refine State.restarted_arbitrate ?_
        unfold State.endTest
        dsimp only
        exact State.restarted_restartInterval _ l

theorem State.restarted_settle (hl : l < 7) (h : s.restarted l) :
    (s.settle.line l).timer = 0 ∧ (s.settle.line l).interval = s.pollInterval l := by
  obtain ⟨u, aside, line, -⟩ := s.settle_split hl
  have start : u.restarted l := by
    refine ⟨by rw [aside.line]; exact h.1, by rw [aside.line, aside.pollInterval]; exact h.2⟩
  obtain ⟨timer, interval⟩ := State.restarted_runLine start
  have hall : (u.runLine l).pollInterval l = u.pollInterval l := by
    rw [State.pollInterval, State.pollInterval, (Moves.runLine u l).frame.2 .hall (by decide)]
  rw [line]
  exact ⟨timer, interval.trans (hall.trans (aside.pollInterval l))⟩

theorem exec_intervalEnd (l : Fin 7) (s : State) (due : s.intervalDue l = true) :
    exec (.intervalEnd l) s = .next (s.endInterval l).settle := by
  show Host.Outcome.next _ = _
  rw [if_pos due]

/-- INTERVAL_END restarts the timer of a line in any state, and counts the discovery of an ACTIVE one (R106). -/
theorem intervalEnd_restarts (l : Fin 7) (s : State) (due : s.intervalDue l = true) :
    ∃ t, exec (.intervalEnd l) s = .next t ∧ (t.line l).timer = 0 ∧ (t.line l).interval = s.pollInterval l ∧
      ((s.line l).state = .active →
        (t.line l).discovery = if (s.line l).discovery < 15 then (s.line l).discovery + 1 else 0) ∧ Unchanged [] s t := by
  obtain ⟨timer, interval, -, state⟩ := s.timer_endInterval l
  have ended := Moves.endInterval s l
  have hall : (s.endInterval l).pollInterval l = s.pollInterval l := by
    rw [State.pollInterval, State.pollInterval, ended.frame.2 .hall (by decide)]
  obtain ⟨timer', interval'⟩ := State.restarted_settle l.isLt (s := s.endInterval l) ⟨timer, interval.trans hall.symm⟩
  refine ⟨_, exec_intervalEnd l s due, timer', interval'.trans hall, fun active => ?_, ended.frame.trans (Moves.settle _).frame⟩
  obtain ⟨-, -, discovery, -⟩ := IntervalEnded.endInterval active
  obtain ⟨u, aside, line, -⟩ := (s.endInterval l).settle_split l.isLt
  rw [line, ← discovery, ← aside.line]
  by_cases busy : (u.line l).exchange = none
  · have runs : u.runLine l = u.arbitrate l := by
      unfold State.runLine
      rw [busy, aside.line, state, active]
      rfl
    rw [runs]
    exact (congrArg Line.discovery (u.core_arbitrate l) :)
  · rw [State.runLine_busy busy]

/-! ## The 1 ms tick that reaches an interval's end -/

theorem IntervalEnded.tickLine (active : (s.line l).state = .active) (due : (s.line l).interval ≤ (s.line l).timer + 1) :
    IntervalEnded s (s.tickLine l) l := by
  have line : (s.onLine l fun n => { n with timer := n.timer + 1 }).line l = { s.line l with timer := (s.line l).timer + 1 } := by
    rw [State.line_onLine, if_pos rfl]
  have reached : (s.onLine l fun n => { n with timer := n.timer + 1 }).intervalDue l = true := by
    rw [State.intervalDue, line]
    exact decide_eq_true due
  have ended := IntervalEnded.endInterval (s := s.onLine l fun n => { n with timer := n.timer + 1 }) (l := l)
    (by rw [line]; exact active)
  have eq : s.tickLine l = (s.onLine l fun n => { n with timer := n.timer + 1 }).endInterval l := by
    unfold State.tickLine
    rw [if_pos reached]
  rw [eq]
  exact ended.before (fun a => by rw [line]; rfl) (by rw [line]) (by rw [line]) (fun _ => rfl) rfl

/-- A 1 ms tick taken by the line controller that reaches an interval's end. -/
theorem IntervalEnded.tickLines (hl : l < 7) (first : Posted s v) (hall : v.hall = s.hall) (stations : v.stations = s.stations)
    (active : (s.line l).state = .active) (due : (s.line l).interval ≤ (s.line l).timer + 1) :
    IntervalEnded s v.tickLines l ∧ (v.tickLines.line l).exchange = (v.line l).exchange := by
  obtain ⟨u, aside, line⟩ := v.tickLines_split hl
  have kept := first.lines l
  rw [← aside.line] at kept
  have timer : (u.line l).timer = (s.line l).timer := (congrArg Line.timer kept :)
  have interval : (u.line l).interval = (s.line l).interval := (congrArg Line.interval kept :)
  have state : (u.line l).state = (s.line l).state := (congrArg Line.state kept :)
  have discovery : (u.line l).discovery = (s.line l).discovery := (congrArg Line.discovery kept :)
  have late : (u.line l).stats.latePolls = (s.line l).stats.latePolls := (congrArg (fun m : Line => m.stats.latePolls) kept :)
  have hall : u.hall = s.hall := by rw [← State.still_hall u, aside.still, State.still_hall, hall]
  have stations : u.stations = s.stations := by rw [← State.still_stations u, aside.still, State.still_stations, stations]
  have sites (i : Nat) : (u.seat i).configured = (s.seat i).configured := by
    rw [State.seat, aside.seats, ← State.seat]
    exact first.sites i
  have ticked : IntervalEnded u (u.tickLine l) l := .tickLine (state.trans active) (by rw [interval, timer]; exact due)
  have here : IntervalEnded s (u.tickLine l) l := ticked.before (fun a => by rw [aside.line]; exact first.addr l a) discovery late
    (fun a => State.configured_of_seats stations sites l a) hall
  exact ⟨here.after (by rw [line]), by rw [line, (u.timer_tickLine l).2.1, aside.line]⟩

/-- A 1 ms tick that reaches an interval's end, on a line with an exchange in flight (R18, R106). -/
theorem IntervalEnded.tick (hl : l < 7) (s : State) (low : Bool) (n : Nat) (o : TickOrder)
    (busy : (s.line l).exchange ≠ none) (active : (s.line l).state = .active)
    (due : (s.line l).interval ≤ (s.line l).timer + 1) : IntervalEnded s (s.tick low n o).settle l := by
  have first : Posted s (s.tickTime low o) := (Posted.missingFirst s o).trans (.onTime _ _)
  have moved : Moves [.time, .signals, .channels, .roster, .seats, .flags, .notices] s (s.tickTime low o) :=
    (Moves.missingFirst s o).next (.onTime _ _)
  have eq := s.tick_eq low n o
  generalize s.tickTime low o = v at first moved eq
  obtain ⟨here, flight⟩ := IntervalEnded.tickLines hl first (moved.frame.2 .hall (by decide))
    (moved.frame.2 .stations (by decide)) active due
  have lines := State.lines_tickCommits (v.tickLines.onIntake Intake.tick)
  rw [State.onIntake_lines] at lines
  generalize v.tickLines = w at here flight lines eq
  generalize (w.onIntake Intake.tick).tickCommits = x at lines eq
  have rest : Posted x ((x.tickTail n o).missingTest o) := (Posted.tickTail x n o).trans (.missingTest _ o)
  rw [← eq] at rest
  generalize s.tick low n o = y at rest ⊢
  have same : x.line l = w.line l := by rw [State.line, lines, ← State.line]
  have sending : (y.line l).exchange ≠ none := rest.busy (by rw [same, flight]; exact first.busy busy)
  exact here.after (by rw [State.settle_busy sending, rest.lines l, same])

/-- Settles O26. -/
theorem broadcastAndIntervalEnds : Obligations.BroadcastAndIntervalEnds := by
  intro l s
  refine ⟨fun c flight quiet flushed => broadcast_rests l c s flight quiet flushed,
    fun c flight active _ agree lawful => broadcast_arbitrated l c s flight active (.of_agree agree) lawful,
    s.clockContent_follows, intervalEnd_restarts l s, fun i reaches busy active => ?_⟩
  rcases reaches with ⟨rfl, due⟩ | ⟨⟨low, n, o, rfl⟩, due⟩
  · have kept := (s.timer_endInterval l).2.2.1
    refine ⟨_, exec_intervalEnd l s due, (IntervalEnded.endInterval active).after ?_⟩
    rw [State.settle_busy (by rw [kept]; exact busy)]
  · exact ⟨_, exec_tick1ms low n o s, IntervalEnded.tick l.isLt s low n o busy active due⟩

end Sys2Proof.Machine
end

section
/-! PROOF. The line commands (R103, R105, R114) and the exchanges of a wiring test (R115, R116): O27. -/

namespace Sys2Proof.Machine

set_option Elab.async false

variable {s t u v : State} {l a : Nat}

/-! ## What a QUIET, a WAKING and a TESTING line does at once -/

theorem Aside.configuredAddrs (h : Aside l s u) (m : Nat) : u.configuredAddrs m = s.configuredAddrs m := by
  have stations : u.stations = s.stations := by rw [← State.still_stations u, h.still, State.still_stations]
  simp only [State.configuredAddrs, State.configured_congr h.seats stations]

theorem Aside.presence (h : Aside l s u) (a : Nat) : u.presence l a = s.presence l a := by
  rw [State.presence, h.line, ← State.presence]

/-- A QUIET line stays QUIET, and once free makes the flush that is due (R103). -/
theorem State.quiet_settle (hl : l < 7) (quiet : (v.line l).state = .quiet) : (v.settle.line l).state = .quiet ∧
    ((v.line l).exchange = none → (v.line l).blankDue = true →
      (v.settle.line l).exchange = some ⟨0, .broadcast .blank⟩ ∧ (v.settle.line l).marks = [] ∧
        (v.settle.line l).fifo = [] ∧ (v.settle.line l).blankDue = false) := by
  obtain ⟨u, aside, line, -⟩ := v.settle_split hl
  rw [← aside.line] at quiet ⊢
  rw [line]
  by_cases free : (u.line l).exchange = none
  · have runs : u.runLine l = u.quietStep l := by rw [State.runLine, free, quiet]; rfl
    rw [runs, State.quietStep]
    split
    · next due =>
      constructor
      · simpa [State.send, State.onStats, Line.flush] using quiet
      · intro _ _
        simp [State.send, State.onStats, Line.flush]
    · next undue => exact ⟨quiet, fun _ due => absurd due undue⟩
  · rw [State.runLine_busy free]
    exact ⟨quiet, fun h => absurd h free⟩

/-- A WAKING line with an address left to try stays WAKING (R104). -/
theorem State.waking_settle (hl : l < 7) (waking : (v.line l).state = .waking)
    (left : ∃ a ∈ v.configuredAddrs l, (v.line l).cursor ≤ a ∧ v.presence l a ≠ .faulty) :
    (v.settle.line l).state = .waking ∧ (v.settle.line l).marks = (v.line l).marks ∧
      (v.settle.line l).fifo = (v.line l).fifo := by
  obtain ⟨u, aside, line, -⟩ := v.settle_split hl
  obtain ⟨a, listed, ahead, sound⟩ := left
  rw [← aside.line] at waking ahead ⊢
  rw [← aside.configuredAddrs] at listed
  rw [← aside.presence] at sound
  rw [line]
  by_cases free : (u.line l).exchange = none
  · have runs : u.runLine l = u.sweepStep l := by rw [State.runLine, free, waking]; rfl
    rw [runs, State.sweepStep]
    split
    · exact ⟨by simpa [State.send, State.onStats] using waking, by simp [State.send, State.onStats],
        by simp [State.send, State.onStats]⟩
    · next none => exact absurd (List.find?_eq_none.1 none a listed) (by simp [ahead, sound])
  · rw [State.runLine_busy free]
    exact ⟨waking, rfl, rfl⟩

/-- The address that a wiring test comes to next (R115). -/
theorem State.nextTested (listed : a ∈ s.configuredAddrs l) {n : Nat} (ahead : n ≤ a)
    (least : ∀ b ∈ s.configuredAddrs l, b < n ∨ a ≤ b) :
    (s.configuredAddrs l).find? (fun b => decide (n ≤ b)) = some a :=
  find?_least (s.configuredAddrs_ascend l) listed (decide_eq_true ahead) fun b hb passes => by
    have := least b hb
    have := of_decide_eq_true passes
    omega

/-- A free TESTING line goes on to the next address (R115). -/
theorem State.testing_settle (hl : l < 7) (testing : (v.line l).state = .testing) (free : (v.line l).exchange = none)
    (next : (v.configuredAddrs l).find? (fun b => decide ((v.line l).cursor ≤ b)) = some a) :
    (v.settle.line l).state = .testing ∧
      (v.settle.line l).exchange = some ⟨a, .test ((v.line l).test.begin a).pattern⟩ := by
  obtain ⟨u, aside, line, -⟩ := v.settle_split hl
  rw [← aside.line, ← aside.configuredAddrs] at next
  rw [← aside.line] at testing free ⊢
  have runs : u.runLine l = u.testStep l := by rw [State.runLine, free, testing]; rfl
  rw [line, runs, State.testStep]
  dsimp only
  rw [next]
  exact ⟨by simpa [State.send] using testing, by simp [State.send]⟩

/-- A TESTING line with an address left to try stays TESTING (R115). -/
theorem State.stillTesting_settle (hl : l < 7) (testing : (v.line l).state = .testing)
    (left : ∃ a ∈ v.configuredAddrs l, (v.line l).cursor ≤ a) : (v.settle.line l).state = .testing := by
  by_cases free : (v.line l).exchange = none
  · obtain ⟨a, listed, ahead⟩ := left
    cases next : (v.configuredAddrs l).find? fun b => decide ((v.line l).cursor ≤ b) with
    | some b => exact (State.testing_settle hl testing free next).1
    | none => exact absurd (List.find?_eq_none.1 next a listed) (by simp [ahead])
  · rw [State.settle_busy free]
    exact testing

/-- A free TESTING line with no address left ends its test (R116). -/
theorem State.tested_settle (hl : l < 7) (testing : (v.line l).state = .testing) (free : (v.line l).exchange = none)
    (none : (v.configuredAddrs l).find? (fun b => decide ((v.line l).cursor ≤ b)) = Option.none) :
    (v.settle.line l).state = .active ∧ (v.settle.line l).timer = 0 ∧ (v.settle.line l).discovery = 0 ∧
      Category.lineTestDone ∈ v.settle.office.flags := by
  have runs {w : State} (aside : Aside l v w) : w.runLine l = (w.endTest l).arbitrate l := by
    have runs : w.runLine l = w.testStep l := by rw [State.runLine, aside.line, free, testing]; rfl
    rw [runs, State.testStep]
    dsimp only
    rw [aside.line, aside.configuredAddrs, none]
  obtain ⟨u, aside, line, -⟩ := v.settle_split hl
  have core := (u.endTest l).core_arbitrate l
  have ended : (u.endTest l).line l = { u.line l with
      state := .active
      discovery := 0
      cursor := 1
      test := TestProgress.blank
      timer := 0
      interval := u.pollInterval l } := by
    unfold State.endTest State.restartInterval
    dsimp only
    rw [State.line, State.notify_lines, ← State.line, State.line_onLine, if_pos rfl, State.line_onLine, if_pos rfl]
    rfl
  rw [ended] at core
  rw [line, runs aside]
  refine ⟨(congrArg Line.state core :), (congrArg Line.timer core :), (congrArg Line.discovery core :), ?_⟩
  have raised : Category.lineTestDone ∈ v.runLines.office.flags := by
    refine foldl_split State.runLine l (Aside l v) (fun t => Category.lineTestDone ∈ t.office.flags)
      (fun t m other h => h.runLine other) (fun t h => ?_) (fun t m _ h => (Moves.runLine t m).raised _ h) _ lineNumbers_nodup
      ((mem_lineNumbers l).2 hl) v (.refl v)
    rw [runs h]
    exact (Moves.arbitrate _ l).raised _ (State.flag_notify _ _)
  rw [State.settle_office, (Office.startTx_keeps _).2.2.2.2.2.1]
  exact raised

/-! ## The commands -/

theorem State.one_le_configured (h : a ∈ s.configuredAddrs l) : 1 ≤ a := by
  obtain ⟨listed, -⟩ := List.mem_filter.1 h
  exact (addrsOf_range listed).1

theorem lineQuiet_quiets (tag : Byte) (s : State) (takes : s.takesRequest) (hl : l ≤ 6) (active : (s.line l).state = .active)
    (unused : s.lineInUse l = false) :
    ∃ t, exec (.lineQuiet tag l) s = .next t ∧ Answered s t tag 0x03#8 .ok [] ∧ (t.line l).state = .quiet ∧
      ((s.line l).exchange = none → (t.line l).exchange = some ⟨0, .broadcast .blank⟩ ∧ (t.line l).marks = [] ∧
        (t.line l).fifo = [] ∧ (t.line l).blankDue = false) ∧ Unchanged [.responses, .framesIn] s t := by
  have passes : s.countFrame.quietRefusal l = none := by
    unfold State.quietRefusal
    rw [if_neg (by omega), State.line_countFrame, active]
    exact if_neg (by rw [show s.countFrame.lineInUse l = s.lineInUse l from rfl, unused]; exact Bool.false_ne_true)
  obtain ⟨t, run, served⟩ := State.served (i := .lineQuiet tag l) (f := (·.lineQuiet l)) rfl takes
    (by rw [State.lineQuiet, passes, State.unless_none, if_neg (by rw [State.line_countFrame, active]; nofun)])
    (.goQuiet s.countFrame l)
  have line : ((s.countFrame.onLine l Line.goQuiet).respond ⟨tag, 0x03#8, .ok, []⟩).line l = (s.line l).goQuiet := by
    rw [State.line_respond, State.line_onLine, if_pos rfl, State.line_countFrame]
  obtain ⟨quiet, flushed⟩ := State.quiet_settle (show l < 7 by omega) (congrArg Line.state line)
  rw [← served.eq] at quiet flushed
  rw [line] at flushed
  exact ⟨t, run, served.answered, quiet, fun free => flushed free rfl, served.unchanged⟩

theorem lineWake_wakes (tag : Byte) (s : State) (takes : s.takesRequest) (hl : l ≤ 6) (quiet : (s.line l).state = .quiet)
    (left : ∃ a ∈ s.configuredAddrs l, s.presence l a ≠ .faulty) :
    ∃ t, exec (.lineWake tag l) s = .next t ∧ Answered s t tag 0x03#8 .ok [] ∧ (t.line l).state = .waking ∧
      Unchanged [.responses, .framesIn] s t := by
  have passes : s.countFrame.wakeRefusal l = none := by
    unfold State.wakeRefusal
    rw [if_neg (by omega), State.line_countFrame, if_pos quiet]
  obtain ⟨t, run, served⟩ := State.served (i := .lineWake tag l) (f := (·.lineWake l)) rfl takes
    (by rw [State.lineWake, passes, State.unless_none]) (.goWaking s.countFrame l)
  have line : ((s.countFrame.onLine l Line.goWaking).respond ⟨tag, 0x03#8, .ok, []⟩).line l = (s.line l).goWaking := by
    rw [State.line_respond, State.line_onLine, if_pos rfl, State.line_countFrame]
  obtain ⟨a, listed, sound⟩ := left
  obtain ⟨waking, -, -⟩ := State.waking_settle (show l < 7 by omega) (congrArg Line.state line)
    ⟨a, listed, by rw [line]; exact State.one_le_configured listed, by rw [State.presence, line]; exact sound⟩
  rw [← served.eq] at waking
  exact ⟨t, run, served.answered, waking, served.unchanged⟩

theorem Line.restart_spec (n : Line) : n.restart.state = .waking ∧ n.restart.cursor = 1 ∧ n.restart.marks = [] ∧
    n.restart.fifo = [] ∧ ∀ a, n.restart.addr a = AddrState.at (n.addr a).presence :=
  ⟨rfl, rfl, rfl, rfl, n.zeroCounts_addr⟩

theorem lineReset_restarts (tag : Byte) (s : State) (takes : s.takesRequest) (hl : l ≤ 6)
    (left : ∃ a ∈ s.configuredAddrs l, s.presence l a ≠ .faulty) :
    ∃ t, exec (.lineReset tag l) s = .next t ∧ Answered s t tag 0x03#8 .ok [] ∧ (t.line l).state = .waking ∧
      (t.line l).marks = [] ∧ (t.line l).fifo = [] ∧ (∀ a, ((t.line l).addr a).missed = 0) ∧
      (∀ m a, t.presence m a = s.presence m a) ∧ Unchanged [.presence, .responses, .framesIn] s t := by
  obtain ⟨t, run, served⟩ := State.served (i := .lineReset tag l) (f := (·.lineReset l)) rfl takes
    (by rw [State.lineReset, if_neg (by omega), State.unless_none]) (.restartLine s.countFrame l)
  have line : ((s.countFrame.onLine l Line.restart).respond ⟨tag, 0x03#8, .ok, []⟩).line l = (s.line l).restart := by
    rw [State.line_respond, State.line_onLine, if_pos rfl, State.line_countFrame]
  obtain ⟨state, cursor, marks, fifo, addr⟩ := (s.line l).restart_spec
  rw [← line] at state cursor marks fifo addr
  have presence (m a : Nat) : (s.countFrame.onLine l Line.restart).presence m a = s.presence m a := by
    rw [State.presence, State.line_onLine]
    split
    · next own =>
      rw [State.line_countFrame, (s.line l).restart_spec.2.2.2.2, ← own]
      rfl
    · rfl
  obtain ⟨a, listed, sound⟩ := left
  obtain ⟨waking, marks', fifo'⟩ := State.waking_settle (show l < 7 by omega) state
    ⟨a, listed, by rw [cursor]; exact State.one_le_configured listed, by rw [State.presence_respond, presence]; exact sound⟩
  rw [← served.eq] at waking marks' fifo'
  refine ⟨t, run, served.answered, waking, marks'.trans marks, fifo'.trans fifo, fun b => ?_, fun m b => ?_,
    served.unchanged.weaken (by decide)⟩
  · rw [served.eq, State.settle_missed, addr]
    rfl
  · rw [served.presence, presence]

/-- A wiring test that starts keeps the line's place in it (R114). -/
theorem Line.startTest_place (n : Line) : n.startTest.cursor = n.cursor ∧ n.startTest.test = n.test := by
  have kept : n.zeroCounts.rest = n.rest := 
    foldl_keeps Line.rest (fun (m : Line) a => m.onAddr a fun r => AddrState.at r.presence) (fun _ _ => rfl) (mapKeys n.addrs) n
  unfold Line.startTest
  split
  · exact ⟨(congrArg Line.cursor kept :), (congrArg Line.test kept :)⟩
  · exact ⟨rfl, rfl⟩

/-- LINE_TEST's effect before the test starts (R114). -/
def Line.tested (n : Line) : Line :=
  { n with state := .testing, blankDue := false, cursor := 1, test := TestProgress.blank, testDue := true }

theorem Line.goTesting_spec (n : Line) : n.goTesting.state = .testing ∧ n.goTesting.cursor = 1 ∧
    n.goTesting.exchange = n.exchange ∧
    ∀ a, n.goTesting.addr a = if n.exchange = none then AddrState.at (n.addr a).presence else n.addr a := by
  have eq : n.goTesting = n.tested.startTest := rfl
  have set : n.tested.testWaits = true := rfl
  obtain ⟨-, state, exchange, -⟩ := n.tested.startTest_spec 0
  refine ⟨eq ▸ state, eq ▸ n.tested.startTest_place.1, eq ▸ exchange, fun a => ?_⟩
  obtain ⟨-, -, -, -, -, addr⟩ := n.tested.startTest_spec a
  rw [eq, addr, set]
  simp only [true_and]
  rfl

theorem lineTest_tests (tag : Byte) (s : State) (takes : s.takesRequest) (hl : l ≤ 6)
    (idle : (s.line l).state = .active ∨ (s.line l).state = .quiet) (unused : s.lineInUse l = false)
    (left : ∃ a, a ∈ s.configuredAddrs l) :
    ∃ t, exec (.lineTest tag l) s = .next t ∧ Answered s t tag 0x03#8 .ok [] ∧ (t.line l).state = .testing ∧
      ((s.line l).exchange = none → ∀ a, ((t.line l).addr a).missed = 0) ∧
      ((s.line l).exchange ≠ none → ∀ a, (t.line l).addr a = (s.line l).addr a) ∧
      (∀ m a, t.presence m a = s.presence m a) ∧ Unchanged [.presence, .responses, .framesIn] s t := by
  have passes : s.countFrame.testRefusal l = none := by
    unfold State.testRefusal
    rw [if_neg (by omega), State.line_countFrame, show s.countFrame.lineInUse l = s.lineInUse l from rfl, unused]
    rcases idle with idle | idle <;> rw [idle] <;> rfl
  obtain ⟨t, run, served⟩ := State.served (i := .lineTest tag l) (f := (·.lineTest l)) rfl takes
    (by rw [State.lineTest, passes, State.unless_none]) (.goTesting s.countFrame l)
  have line : ((s.countFrame.onLine l Line.goTesting).respond ⟨tag, 0x03#8, .ok, []⟩).line l = (s.line l).goTesting := by
    rw [State.line_respond, State.line_onLine, if_pos rfl, State.line_countFrame]
  obtain ⟨state, cursor, exchange, addr⟩ := (s.line l).goTesting_spec
  have presence (m a : Nat) : (s.countFrame.onLine l Line.goTesting).presence m a = s.presence m a := by
    rw [State.presence, State.line_onLine]
    split
    · next own =>
      subst own
      rw [State.line_countFrame, addr]
      split <;> rfl
    · rfl
  obtain ⟨a, listed⟩ := left
  have testing := State.stillTesting_settle (show l < 7 by omega) ((congrArg Line.state line).trans state)
    ⟨a, listed, by rw [line, cursor]; exact State.one_le_configured listed⟩
  rw [← served.eq] at testing
  refine ⟨t, run, served.answered, testing, fun free b => ?_, fun busy b => ?_, fun m b => ?_, served.unchanged.weaken (by decide)⟩
  · rw [served.eq, State.settle_missed, line, addr, if_pos free]
    rfl
  · rw [served.eq, State.settle_busy (by rw [line, exchange]; exact busy), line, addr, if_neg busy]
  · rw [served.presence, presence]

/-! ## A presence set, and what it leaves of the line and of the seats -/

theorem Posted.deskGone (s : State) (i : Nat) : Posted s (s.deskGone i) := by
  unfold State.deskGone
  split
  · exact (Posted.onSeat s i _).trans (.onEntry _ _ _)
  · exact .refl s

theorem Posted.deskFound (s : State) (i : Nat) : Posted s (s.deskFound i) := by
  unfold State.deskFound
  cases (s.seat i).lost with
  | none =>
    dsimp only
    split
    · exact .setMark s i
    · exact .setMark s i
    · exact .dropMark s i
  | some k =>
    dsimp only
    have told : Posted s ((s.onEntry k fun e => { e with deskLost := false }).onSeat i fun r => { r with lost := none }) :=
      (Posted.onEntry s k _).trans (.onSeat _ i _)
    generalize (s.onEntry k fun e => { e with deskLost := false }).onSeat i (fun r => { r with lost := none }) = v at told ⊢
    split
    · exact told.trans (.setMark v i)
    · exact told.trans (.setMark v i)
    · exact told.trans (.dropMark v i)

theorem Posted.setPresence (s : State) (l a : Nat) (p : Presence) :
    Posted (s.onAddr l a fun r => r.become p) (s.setPresence l a p) := by
  unfold State.setPresence
  dsimp only
  split
  · exact .refl _
  · exact .ite (.deskFound _ _) (.ite (.deskGone _ _) (.refl _))

theorem State.configured_setPresence (s : State) (l a : Nat) (p : Presence) (m b : Nat) :
    (s.setPresence l a p).configured m b = s.configured m b :=
  State.configured_of_seats ((Moves.setPresence s l a p).frame.2 .stations (by decide)) (Posted.setPresence s l a p).sites m b

theorem State.configured_countMiss (s : State) (l : Nat) (x : Exchange) (h : Heard) (m b : Nat) :
    (s.countMiss l x h).configured m b = s.configured m b := by
  unfold State.countMiss
  split
  · split
    · rfl
    · split
      · have silent : (s.raiseLossBy l x).configured m b = s.configured m b := by
          unfold State.raiseLossBy State.raiseLost
          split <;> rfl
        rw [State.loseDesk, State.configured_setPresence, silent]
      · rfl
  · rfl

theorem State.configuredAddrs_congr (h : ∀ b, u.configured l b = s.configured l b) :
    u.configuredAddrs l = s.configuredAddrs l := by simp only [State.configuredAddrs, h]

/-! ## The exchanges of a wiring test -/

/-- The part as the outcome `h` of a TEST frame to address `a` finds it: the line free, the outcome counted and taken by
R100 (R99). -/
def State.atEcho (s : State) (l a i : Nat) (h : Heard) : State := (s.landed l h).countMiss l ⟨a, .test i⟩ h

section
variable (s : State) (l a i : Nat) (h : Heard)

theorem State.atEcho_line : ((s.atEcho l a i h).line l).rest =
    { (s.line l).rest with exchange := none, stats := (s.line l).stats.hear h } := by
  rw [State.atEcho, ((s.landed l h).line_countMiss l ⟨a, .test i⟩ h l).2, State.line_landed]
  rfl

theorem State.atEcho_configured (m b : Nat) : (s.atEcho l a i h).configured m b = s.configured m b := by
  rw [State.atEcho, State.configured_countMiss]
  rfl

theorem State.atEcho_unchanged : Unchanged [.presence, .seats, .roster] s (s.atEcho l a i h) := by
  have landed : Unchanged [.presence, .seats, .roster] s (s.landed l h) := (Unchanged.landed s l h).weaken (by decide)
  unfold State.atEcho
  by_cases stands : (s.landed l h).presence l a ≠ .present ∨ h.good = true ∨ (((s.landed l h).line l).addr a).missed < 2
  · exact landed.trans ((Unchanged.countMiss (x := ⟨a, .test i⟩) stands).weaken (by decide))
  · obtain ⟨present, bad, third⟩ : (s.landed l h).presence l a = .present ∧ h.good ≠ true ∧
        2 ≤ (((s.landed l h).line l).addr a).missed := by
      simpa only [not_or, not_not, not_lt] using stands
    rw [State.countMiss_loses (x := ⟨a, .test i⟩) present bad third]
    exact landed.trans (.loseDesk_test rfl)

theorem State.atEcho_presence (m b : Nat) (other : m ≠ l ∨ b ≠ a) : (s.atEcho l a i h).presence m b = s.presence m b := by
  have addr := ((s.landed l h).line_countMiss l ⟨a, .test i⟩ h m).1 b
  rw [if_neg fun own => other.elim (fun h => h own.1.symm) fun h => h own.2.symm] at addr
  rw [State.presence, State.atEcho, addr]
  exact ((Unchanged.landed s l h).2 .presence (by decide) m b).1

end

/-- The test's progress at address `a` with the outcome `h` of its exchange `i` (R115). -/
def State.echoed (s : State) (l a i : Nat) (h : Heard) : TestProgress :=
  (s.line l).test.hear (testEcho a (BitVec.ofNat 16 (testPattern a i))).toNat h

/-- The outcome of a TEST frame taken, while the test goes on (R115). -/
theorem State.takeOutcome_test {i : Nat} (h : Heard) (testing : (s.line l).state = .testing) (here : (s.line l).test.addr = a)
    (known : s.configured l a = true) : s.takeOutcome l ⟨a, .test i⟩ h =
      if (s.echoed l a i h).pattern < 4 then (s.atEcho l a i h).onLine l fun n => { n with test := s.echoed l a i h }
      else ((s.atEcho l a i h).onLine l fun n => { n with test := (s.echoed l a i h).decided, cursor := a + 1 }).setPresence l a
        (s.echoed l a i h).verdict := by
  have rest := s.atEcho_line l a i h
  have state : ((s.atEcho l a i h).line l).state = (s.line l).state := (congrArg Line.state rest :)
  have test : ((s.atEcho l a i h).line l).test = (s.line l).test := (congrArg Line.test rest :)
  show (s.atEcho l a i h).takeTest l a i h = _
  unfold State.takeTest
  have addr : ((s.atEcho l a i h).line l).test.addr = a := (congrArg TestProgress.addr test).trans here
  rw [if_pos ⟨state.trans testing, addr, (s.atEcho_configured l a i h l a).trans known⟩, test]
  rfl

/-- What the start of a wiring test that waited leaves of the line's place (R114). -/
theorem State.started_place (v : State) (l : Nat) : ((v.onLine l Line.startTest).line l).state = (v.line l).state ∧
    ((v.onLine l Line.startTest).line l).exchange = (v.line l).exchange ∧
    ((v.onLine l Line.startTest).line l).cursor = (v.line l).cursor ∧
    ((v.onLine l Line.startTest).line l).test = (v.line l).test ∧
    (v.onLine l Line.startTest).configuredAddrs l = v.configuredAddrs l := by
  obtain ⟨-, state, exchange, -⟩ := (v.line l).startTest_spec 0
  obtain ⟨cursor, test⟩ := (v.line l).startTest_place
  rw [State.line_onLine, if_pos rfl]
  exact ⟨state, exchange, cursor, test, rfl⟩

theorem Line.addr_progress (n : Line) (p : TestProgress) (b : Nat) : ({ n with test := p } : Line).addr b = n.addr b := rfl

/-- After each of its first three exchanges with an address, the next pattern goes out (R115). -/
theorem test_goes_on (l : Fin 7) (a i : Nat) (s : State) (flight : (s.line l).exchange = some ⟨a, .test i⟩)
    (testing : (s.line l).state = .testing) (here : (s.line l).test.addr = a) (pattern : (s.line l).test.pattern = i)
    (cursor : (s.line l).cursor = a) (listed : a ∈ s.configuredAddrs l) (c : Instr) (o : Judged)
    (ends : Exchange.endsBy ⟨a, .test i⟩ l c o) (more : i < 3) :
    ∃ t, exec c s = .next t ∧ (t.line l).exchange = some ⟨a, .test (i + 1)⟩ ∧ OutcomeCounted s t l o ∧
      MissTaken s t l ⟨a, .test i⟩ o := by
  obtain ⟨h, rfl, run⟩ := exec_ends flight rfl ends
  have known : s.configured l a = true := (List.mem_filter.1 listed).2
  have heard : (s.echoed l a i h).pattern = i + 1 ∧ (s.echoed l a i h).addr = a := by
    rw [State.echoed, TestProgress.hear, pattern, here]
    exact ⟨rfl, rfl⟩
  obtain ⟨v, hv⟩ : ∃ v, (s.atEcho l a i h).onLine l (fun n => { n with test := s.echoed l a i h }) = v := ⟨_, rfl⟩
  have took : s.takeOutcome l ⟨a, .test i⟩ h = v := by
    rw [State.takeOutcome_test h testing here known, if_pos (by rw [heard.1]; omega), hv]
  have line : v.line l = { (s.atEcho l a i h).line l with test := s.echoed l a i h } := by
    rw [← hv, State.line_onLine, if_pos rfl]
  have kept : Unchanged [] (s.atEcho l a i h) v := by
    rw [← hv]
    exact (Moves.onLine_state _ _ _ rfl rfl (Nat.le_refl _) rfl rfl).frame
  have rest := s.atEcho_line l a i h
  have state : (v.line l).state = .testing := by
    rw [line]
    exact (congrArg Line.state rest :).trans testing
  have free : (v.line l).exchange = none := by
    rw [line]
    exact (congrArg Line.exchange rest :)
  have place : (v.line l).cursor = a := by
    rw [line]
    exact (congrArg Line.cursor rest :).trans cursor
  have test : (v.line l).test = s.echoed l a i h := by rw [line]
  have addrs : v.configuredAddrs l = s.configuredAddrs l := by
    refine State.configuredAddrs_congr fun b => ?_
    rw [← hv]
    exact s.atEcho_configured l a i h l b
  rw [State.endExchange, took] at run
  obtain ⟨state', free', cursor', test', addrs'⟩ := v.started_place l
  have next := State.testing_settle (v := v.onLine l Line.startTest) l.isLt (state'.trans state) (free'.trans free)
    (a := a) (by
      rw [addrs', addrs, cursor', place]
      exact State.nextTested listed (Nat.le_refl a) fun b _ => by omega)
  have stats : (v.line l).stats = (s.line l).stats.hear h := by
    rw [line]
    exact (congrArg Line.stats rest :)
  have waits : (v.line l).testWaits = (s.line l).testWaits := by
    rw [line]
    exact (congrArg Line.testWaits rest :)
  have addr : (v.line l).addr a = ((s.atEcho l a i h).line l).addr a := by
    rw [line]
    exact Line.addr_progress _ _ a
  have missed : MissTaken s (v.onLine l Line.startTest).settle l ⟨a, .test i⟩ h.judged :=
    .of_countMiss l.isLt (.landed s l h) kept addr free waits
  refine ⟨_, run, ?_, .ended stats, missed⟩
  rw [next.2, test', test, TestProgress.begin, if_pos heard.2, heard.1]

theorem State.place_setPresence (w : State) (l a : Nat) (p : Presence) :
    ((w.setPresence l a p).line l).state = (w.line l).state ∧ ((w.setPresence l a p).line l).cursor = (w.line l).cursor ∧
      ((w.setPresence l a p).line l).test = (w.line l).test ∧
      ((w.line l).exchange = none → ((w.setPresence l a p).line l).exchange = none) := by
  have posted := Posted.setPresence w l a p
  have rest := w.rest_onAddr l a (fun r => r.become p) l
  generalize w.onAddr l a (fun r => r.become p) = v at posted rest
  exact ⟨(congrArg Line.state (posted.lines l) :).trans (congrArg Line.state rest :),
    (congrArg Line.cursor (posted.lines l) :).trans (congrArg Line.cursor rest :),
    (congrArg Line.test (posted.lines l) :).trans (congrArg Line.test rest :),
    fun free => posted.free ((congrArg Line.exchange rest :).trans free)⟩

theorem TestProgress.decided_begin (t : TestProgress) {b : Nat} (hb : 1 ≤ b) : (t.decided.begin b).pattern = 0 := by
  have cleared : t.decided.addr = 0 := by
    unfold TestProgress.decided
    split <;> rfl
  rw [TestProgress.begin, if_neg (by omega)]
  rfl

/-- The fourth exchange with an address decides its presence, and the test goes on to the next or ends (R115, R116). -/
theorem test_decides {l : Fin 7} {h : Heard} {i : Nat} (testing : (s.line l).state = .testing) (here : (s.line l).test.addr = a)
    (listed : a ∈ s.configuredAddrs l) (fourth : (s.line l).test.pattern = 3) {p : Presence}
    (verdict : (s.echoed l a i h).verdict = p) :
    (s.endExchange l ⟨a, .test i⟩ h).settle.presence l a = p ∧
      (((s.endExchange l ⟨a, .test i⟩ h).settle.line l).addr a).missed = 0 ∧
      Unchanged [.presence, .seats, .roster] s (s.endExchange l ⟨a, .test i⟩ h).settle ∧
      (∀ m b, m ≠ l.val ∨ b ≠ a → (s.endExchange l ⟨a, .test i⟩ h).settle.presence m b = s.presence m b) ∧
      ((∀ b ∈ s.configuredAddrs l, b ≤ a) → ((s.endExchange l ⟨a, .test i⟩ h).settle.line l).state = .active ∧
        ((s.endExchange l ⟨a, .test i⟩ h).settle.line l).timer = 0 ∧
        ((s.endExchange l ⟨a, .test i⟩ h).settle.line l).discovery = 0 ∧
        Category.lineTestDone ∈ (s.endExchange l ⟨a, .test i⟩ h).settle.office.flags) ∧
      ∀ b ∈ s.configuredAddrs l, a < b → (∀ d ∈ s.configuredAddrs l, d ≤ a ∨ b ≤ d) →
        ((s.endExchange l ⟨a, .test i⟩ h).settle.line l).exchange = some ⟨b, .test 0⟩ := by
  have known : s.configured l a = true := (List.mem_filter.1 listed).2
  have last : ¬(s.echoed l a i h).pattern < 4 := by
    rw [State.echoed, TestProgress.hear, fourth]
    exact Nat.lt_irrefl 4
  obtain ⟨w, hw⟩ : ∃ w, (s.atEcho l a i h).onLine l (fun n => { n with test := (s.echoed l a i h).decided, cursor := a + 1 }) = w :=
    ⟨_, rfl⟩
  have ended : s.endExchange l ⟨a, .test i⟩ h = (w.setPresence l a p).onLine l Line.startTest := by
    rw [State.endExchange, State.takeOutcome_test h testing here known, if_neg last, hw, verdict]
  have line : w.line l = { (s.atEcho l a i h).line l with test := (s.echoed l a i h).decided, cursor := a + 1 } := by
    rw [← hw, State.line_onLine, if_pos rfl]
  have moved : Unchanged [] (s.atEcho l a i h) w := by
    rw [← hw]
    exact (Moves.onLine_state _ _ _ rfl rfl (Nat.le_refl _) rfl rfl).frame
  have configured (m b : Nat) : w.configured m b = s.configured m b := by
    rw [← hw]
    exact s.atEcho_configured l a i h m b
  have rest := s.atEcho_line l a i h
  obtain ⟨state, cursor, test, free⟩ := w.place_setPresence l a p
  have state : ((w.setPresence l a p).line l).state = .testing := by
    rw [state, line]
    exact (congrArg Line.state rest :).trans testing
  have free : ((w.setPresence l a p).line l).exchange = none := free (by rw [line]; exact (congrArg Line.exchange rest :))
  have cursor : ((w.setPresence l a p).line l).cursor = a + 1 := by rw [cursor, line]
  have test : ((w.setPresence l a p).line l).test = (s.echoed l a i h).decided := by rw [test, line]
  have addrs : (w.setPresence l a p).configuredAddrs l = s.configuredAddrs l :=
    State.configuredAddrs_congr fun b => (w.configured_setPresence l a p l b).trans (configured l b)
  have unchanged : Unchanged [.presence, .seats, .roster] s (w.setPresence l a p) :=
    ((s.atEcho_unchanged l a i h).trans (moved.weaken (by decide))).trans (Moves.setPresence w l a p).frame
  obtain ⟨presence, missed⟩ := w.presence_set l a p
  obtain ⟨state', free', cursor', test', addrs'⟩ := (w.setPresence l a p).started_place l
  have started := unchanged.started l (by decide)
  rw [ended]
  refine ⟨by rw [presence, if_pos ⟨rfl, rfl⟩], missed, started, fun m b other => ?_, fun none => ?_, fun b next above least => ?_⟩
  · rw [presence, if_neg fun own => other.elim (fun h => h own.1.symm) fun h => h own.2.symm]
    exact (moved.2 .presence (by decide) m b).1.trans (s.atEcho_presence l a i h m b other)
  · refine State.tested_settle l.isLt (state'.trans state) (free'.trans free) ?_
    rw [addrs', addrs, cursor', cursor]
    exact List.find?_eq_none.2 fun b hb => by have := none b hb; simp; omega
  · obtain ⟨-, sent⟩ := State.testing_settle l.isLt (state'.trans state) (free'.trans free) (a := b) (by
      rw [addrs', addrs, cursor', cursor]
      exact State.nextTested next above fun d hd => by have := least d hd; omega)
    rw [sent, test', test, TestProgress.decided_begin _ (by omega)]

/-! ## The verdict of the fourth exchange -/

theorem TestProgress.verdict_eq {t : TestProgress} {want : Nat} {h : Heard} {present silent : Bool}
    (right : present = true ↔ h = .echo want ∧ t.correct = 3) (mute : silent = true ↔ h = .silent ∧ t.replies = 0)
    (low : t.correct ≤ 3) :
    (t.hear want h).verdict = if present then .present else if silent then .absent else .faulty := by
  have correct : (t.hear want h).correct = 4 ↔ present = true := by
    rw [right, TestProgress.hear]
    dsimp only
    split
    · next echoed => rw [and_iff_right echoed]; omega
    · next other => exact iff_of_false (by omega) fun both => other both.1
  have replies : (t.hear want h).replies = 0 ↔ silent = true := by
    rw [mute, TestProgress.hear]
    dsimp only
    split
    · next silence => rw [and_iff_right silence]
    · next other => exact iff_of_false (by omega) fun both => other both.1
  unfold TestProgress.verdict
  simp only [correct, replies]

/-- The two bytes of a number, and no others (R196). -/
theorem beVal_two {body : List Byte} {v : Nat} (hv : v < 65536) : body.length = 2 ∧ beVal body = v ↔ body = be 2 v := by
  constructor
  · rintro ⟨len, rfl⟩
    obtain ⟨x, y, rfl⟩ := List.length_eq_two.1 len
    have value : beVal [x, y] = x.toNat * 256 + y.toNat := by simp [beVal]
    have hx := x.isLt
    have hy := y.isLt
    rw [value]
    refine List.cons_eq_cons.2 ⟨BitVec.eq_of_toNat_eq ?_, List.cons_eq_cons.2 ⟨BitVec.eq_of_toNat_eq ?_, rfl⟩⟩
    · rw [BitVec.toNat_ofNat, pow_one]; omega
    · rw [BitVec.toNat_ofNat, pow_zero]; omega
  · rintro rfl
    exact ⟨rfl, beVal_be hv⟩

theorem Exchange.hear_echo {a i v : Nat} {bytes : List Byte} (hv : v < 65536) :
    (Exchange.mk a (.test i)).hear l bytes = .echo v ↔ readReply bytes = some (a, 0x85, be 2 v) := by
  unfold Exchange.hear
  cases readReply bytes with
  | none => exact iff_of_false nofun nofun
  | some reply =>
    obtain ⟨b, kind, body⟩ := reply
    dsimp only
    have split : (some (b, kind, body) = some (a, 0x85, be 2 v)) ↔ b = a ∧ kind = 0x85 ∧ body.length = 2 ∧ beVal body = v := by
      rw [beVal_two hv, Option.some.injEq, Prod.mk.injEq, Prod.mk.injEq]
    rw [split]
    by_cases own : b = a
    · rw [if_pos own, and_iff_right own]
      show (if kind = 0x85 ∧ body.length = 2 then Heard.echo (beVal body) else .bad) = .echo v ↔ _
      by_cases fits : kind = 0x85 ∧ body.length = 2
      · rw [if_pos fits, Heard.echo.injEq, and_iff_right fits.1, and_iff_right fits.2]
      · rw [if_neg fits]
        exact iff_of_false nofun fun all => fits ⟨all.1, all.2.1⟩
    · rw [if_neg own]
      exact iff_of_false nofun fun all => own all.1

theorem Exchange.hear_sounds (x : Exchange) (l : Nat) (bytes : List Byte) : x.hear l bytes ≠ .silent := by
  intro silent
  by_cases answered : x.answeredBy l bytes
  · have judged := (x.hear_judged l bytes).1 answered
    rw [silent] at judged
    cases judged
  · cases silent.symm.trans ((x.hear_judged l bytes).2 answered)

/-- The outcome of the fourth exchange, and the presence it decides (R115). -/
theorem fourth_heard {l : Fin 7} {i : Nat} (flight : (s.line l).exchange = some ⟨a, .test i⟩) (low : (s.line l).test.correct ≤ 3)
    (fourth : i = 3) (c : Instr) (present silent : Bool)
    (ends : (c = .replyWindowClose l ∧ present = false ∧ silent = decide ((s.line l).test.replies = 0)) ∨
      (∃ bytes, c = .lineReplyReceived l bytes ∧ silent = false ∧
        present = (decide (readReply bytes = some (a, 0x85, be 2 (testEcho a (BitVec.ofNat 16 (testPattern a 3))).toNat)) &&
          decide ((s.line l).test.correct = 3)))) :
    ∃ h, exec c s = .next (s.endExchange l ⟨a, .test i⟩ h).settle ∧
      (s.echoed l a i h).verdict = if present then .present else if silent then .absent else .faulty := by
  subst fourth
  rcases ends with ⟨rfl, rfl, rfl⟩ | ⟨bytes, rfl, rfl, rfl⟩
  · exact ⟨.silent, exec_silence flight rfl, TestProgress.verdict_eq (iff_of_false nofun nofun) (by simp) low⟩
  · refine ⟨_, exec_reply flight rfl bytes, TestProgress.verdict_eq ?_ (iff_of_false nofun ?_) low⟩
    · rw [Exchange.hear_echo (BitVec.isLt _)]
      simp
    · exact fun both => Exchange.hear_sounds _ _ _ both.1

/-- Settles O27. -/
theorem lineCommandsSetTheLinesState : Obligations.LineCommandsSetTheLinesState := by
  refine ⟨fun tag l s takes hl => ⟨fun active unused => lineQuiet_quiets tag s takes hl active unused,
    fun quiet left => lineWake_wakes tag s takes hl quiet left, fun left => lineReset_restarts tag s takes hl left,
    fun idle unused left => lineTest_tests tag s takes hl idle unused left⟩, ?_⟩
  intro l a i s flight testing here pattern cursor listed
  refine ⟨fun c o ends more => test_goes_on l a i s flight testing here pattern cursor listed c o ends more,
    fun fourth c present silent ends low => ?_⟩
  obtain ⟨h, run, verdict⟩ := fourth_heard flight low fourth c present silent ends
  exact ⟨_, run, test_decides testing here listed (pattern.trans fourth) verdict⟩

end Sys2Proof.Machine
end

section
/-! PROOF. The laws of the roster as they stand between the steps of an operation (R5, R11, R14, R15): what an operation on one
channel, on one slot, or on neither has to show to keep them. -/

namespace Sys2Proof.Machine

set_option Elab.async false

variable {s t u : State} {c k : Nat}

/-! ## The laws -/

/-- What the laws of the roster read of a channel. -/
def Channel.phase (r : Channel) : ChanState × Bool := (r.state, r.closed)

theorem Channel.phase_eq {r q : Channel} (same : q.phase = r.phase) : q.state = r.state ∧ q.closed = r.closed :=
  Prod.mk.inj same

theorem Channel.allows_congr {r q : Channel} (same : q.phase = r.phase) (x : EntryState) : q.allows x = r.allows x := by
  obtain ⟨state, closed⟩ := Channel.phase_eq same
  unfold Channel.allows
  rw [state, closed]

/-- Admission is closed in no channel before WRITING (R43). -/
def Channel.shutLate (r : Channel) : Prop := r.closed = true → r.state ∉ [.free, .loaded, .opened, .reading]

theorem Channel.shutLate_congr {r q : Channel} (same : q.phase = r.phase) (h : r.shutLate) : q.shutLate := by
  obtain ⟨state, closed⟩ := Channel.phase_eq same
  unfold Channel.shutLate
  rw [state, closed]
  exact h

/-- No candidate id stands twice in one channel, nor in two active ones (R14, R15). -/
def IdsApart (s : State) : Prop := ∀ k e k' e', s.entry k = some e → s.entry k' = some e' → k ≠ k' → e.id = e'.id →
  e.channel ≠ e'.channel ∧ ¬((s.chan e.channel).state.isActive = true ∧ (s.chan e'.channel).state.isActive = true)

/-- The laws of seats, entries, phases and ids, in a state with canonical tables. -/
structure Sits (s : State) : Prop where
  canonical : s.canonical = true
  tied : SeatsTied s
  allows : ∀ k e, s.entry k = some e → (s.chan e.channel).allows e.state = true
  shutLate : ∀ c, (s.chan c).shutLate
  apart : IdsApart s

theorem Sits.rises (h : Sits s) : mapRises 0 s.roster = true := State.roster_rises h.canonical

/-- What the laws read of the sheet intake. -/
def Intake.work (t : Intake) : SheetRx × PMap Slot × List Nat × Option Marking := (t.rx, t.slots, t.arrivals, t.marking)

theorem Intake.work_of_same (h : Part.same s t .intake) : t.intake.work = s.intake.work := by
  obtain ⟨rx, slots, arrivals, -, marking, -⟩ := h
  rw [Intake.work, rx, slots, arrivals, marking]; rfl

/-- An operation has kept the laws, every COLLECTED entry, the sheets taken in and the records. -/
structure Onward (s t : State) : Prop where
  sits : Sits t
  collected : ∀ k c, s.collectedIn k c = true → t.collectedIn k c = true
  work : t.intake.work = s.intake.work
  records : t.log.records = s.log.records

theorem Onward.refl (h : Sits s) : Onward s s := ⟨h, fun _ _ x => x, rfl, rfl⟩

theorem Onward.trans (h : Onward s t) (g : Onward t u) : Onward s u where
  sits := g.sits
  collected k c x := g.collected k c (h.collected k c x)
  work := g.work.trans h.work
  records := g.records.trans h.records

theorem Sits.ite {p : Prop} [Decidable p] (h : p → Onward s t) (g : ¬p → Onward s u) :
    Onward s (if p then t else u) := by
  split <;> rename_i x
  · exact h x
  · exact g x

/-- An operation that keeps the laws, made for each of a list in turn. -/
theorem Sits.fold {α : Type} {f : State → α → State} (each : ∀ t a, Sits t → Onward t (f t a)) (h : Sits s) (xs : List α) :
    Onward s (xs.foldl f s) :=
  foldl_invariant (fun t => Onward s t) f (fun t a x => x.trans (each t a x.sits)) xs s (.refl h)

theorem State.collectedIn_iff (s : State) (k c : Nat) :
    s.collectedIn k c = true ↔ ∃ e, s.entry k = some e ∧ e.channel = c ∧ e.state = .collected := by
  simp [State.collectedIn, Option.any_eq_true]

/-! ## What an operation has to show -/

/-- Ids stay apart where at most channel `c` becomes active, and it does so only where no id of it stood in another active
channel (R15, R37). -/
theorem IdsApart.onward (h : IdsApart s) (rises : mapRises 0 s.roster = true) (ids : SameIds s t)
    (elsewhere : ∀ d, d ≠ c → (t.chan d).phase = (s.chan d).phase)
    (opens : (t.chan c).state.isActive = true → (s.chan c).state.isActive = true ∨ s.conflictSlot c = none) :
    IdsApart t := fun k e k' e' found found' other same => by
  obtain ⟨f, at_, id, channel⟩ := ids.back found
  obtain ⟨f', at', id', channel'⟩ := ids.back found'
  have equal : f.id = f'.id := id.trans (same.trans id'.symm)
  obtain ⟨differ, was⟩ := h k f k' f' at_ at' other equal
  have active : ∀ d, (t.chan d).state.isActive = true → (s.chan d).state.isActive = true ∨
      (d = c ∧ s.conflictSlot c = none) := fun d now => by
    by_cases own : d = c
    · rw [own] at now ⊢
      exact (opens now).imp_right fun x => ⟨rfl, x⟩
    · rw [(Channel.phase_eq (elsewhere d own)).1] at now
      exact .inl now
  rw [← channel, ← channel']
  refine ⟨differ, fun both => ?_⟩
  rcases active _ both.1 with one | ⟨own, clear⟩ <;> rcases active _ both.2 with two | ⟨own', clear'⟩
  · exact was ⟨one, two⟩
  · have idle := (State.conflictSlot_none_iff rises c).mp clear' k' f' k f at' own' at_ (fun x => differ (x.trans own'.symm))
      equal
    exact absurd one (by rw [idle]; decide)
  · have idle := (State.conflictSlot_none_iff rises c).mp clear k f k' f' at_ own at' (fun x => differ (own.trans x.symm))
      equal.symm
    exact absurd two (by rw [idle]; decide)
  · exact differ (own.trans own'.symm)

/-- The general form: at most channel `c` has changed its phase, and it became active only where no id of it stood in another
active channel. -/
theorem Sits.onward {l : List Part} (h : Sits s) (m : Moves l s t) (c : Nat) (tied : SeatsTied t) (ids : SameIds s t)
    (collected : ∀ k e e', s.entry k = some e → t.entry k = some e' → e.state = .collected → e'.state = .collected)
    (elsewhere : ∀ d, d ≠ c → (t.chan d).phase = (s.chan d).phase)
    (allows : ∀ k e', t.entry k = some e' → (t.chan e'.channel).allows e'.state = true)
    (shutLate : (t.chan c).shutLate)
    (opens : (t.chan c).state.isActive = true → (s.chan c).state.isActive = true ∨ s.conflictSlot c = none)
    (h1 : .intake ∉ l := by decide) (h2 : .log ∉ l := by decide) : Onward s t where
  sits :=
    { canonical := m.canonical h.canonical
      tied := tied
      allows := allows
      shutLate := fun d => by
        by_cases own : d = c
        · rw [own]; exact shutLate
        · exact Channel.shutLate_congr (elsewhere d own) (h.shutLate d)
      apart := h.apart.onward h.rises ids elsewhere opens }
  collected k d x := by
    obtain ⟨e, found, own, state⟩ := (s.collectedIn_iff k d).mp x
    obtain ⟨e', found', id, channel⟩ := ids.symm.back found
    exact (t.collectedIn_iff k d).mpr ⟨e', found', channel.trans own, collected k e e' found found' state⟩
  work := Intake.work_of_same (m.frame.2 _ h1)
  records := congrArg ResultLog.records (m.frame.2 _ h2)

/-- An operation that changes the entries of channel `c` alone. -/
theorem Sits.confined {l : List Part} (h : Sits s) (m : Moves l s t) (conf : Confined c s t) (tied : SeatsTied t)
    (elsewhere : ∀ d, d ≠ c → (t.chan d).phase = (s.chan d).phase)
    (here : ∀ k e', t.entry k = some e' → e'.channel = c → (t.chan c).allows e'.state = true)
    (shutLate : (t.chan c).shutLate)
    (opens : (t.chan c).state.isActive = true → (s.chan c).state.isActive = true ∨ s.conflictSlot c = none)
    (h1 : .intake ∉ l := by decide) (h2 : .log ∉ l := by decide) : Onward s t := by
  refine h.onward m c tied conf.ids (fun k e e' found found' state => ?_) elsewhere (fun k e' found' => ?_) shutLate opens
    h1 h2
  · obtain ⟨f, at_, follows, -⟩ := conf.entry k e found
    obtain rfl : f = e' := Option.some.inj (at_.symm.trans found')
    exact follows.collected state
  · by_cases own : e'.channel = c
    · rw [own]; exact here k e' found' own
    · obtain ⟨e, found, follows, stays⟩ := conf.back found'
      have apart : e.channel ≠ c := fun x => own (follows.channel.trans x)
      rw [stays apart, Channel.allows_congr (elsewhere _ apart)]
      exact h.allows k e found

/-- An operation that changes the entry of slot `k` and no channel's phase. -/
theorem Sits.slot {l : List Part} {e e' : Entry} (h : Sits s) (m : Moves l s t) (tied : SeatsTied t)
    (found : s.entry k = some e) (entry : ∀ j, t.entry j = if k = j then some e' else s.entry j) (id : e'.id = e.id)
    (channel : e'.channel = e.channel) (collected : e.state = .collected → e'.state = .collected)
    (allows : (s.chan e.channel).allows e'.state = true) (phase : ∀ d, (t.chan d).phase = (s.chan d).phase)
    (h1 : .intake ∉ l := by decide) (h2 : .log ∉ l := by decide) : Onward s t := by
  refine h.onward m 0 tied (fun j => ?_) (fun j f f' at_ at' state => ?_) (fun d _ => phase d) (fun j f' at' => ?_)
    (Channel.shutLate_congr (phase 0) (h.shutLate 0)) (fun x => .inl ?_) h1 h2
  · rw [entry]
    split
    · subst_vars; rw [found]; exact congrArg some (Prod.ext id channel)
    · rfl
  · rw [entry] at at'
    split at at' <;> rename_i own
    · subst own
      obtain rfl := Option.some.inj (at_.symm.trans found)
      obtain rfl := Option.some.inj at'
      exact collected state
    · obtain rfl := Option.some.inj (at_.symm.trans at')
      exact state
  · rw [entry] at at'
    rw [Channel.allows_congr (phase _)]
    split at at'
    · obtain rfl := Option.some.inj at'
      rw [channel]; exact allows
    · exact h.allows j f' at'
  · rw [(Channel.phase_eq (phase 0)).1] at x
    exact x

/-- An operation that leaves every entry and every channel's phase. -/
theorem Sits.entries {l : List Part} (h : Sits s) (m : Moves l s t) (tied : SeatsTied t) (entry : ∀ j, t.entry j = s.entry j)
    (phase : ∀ d, (t.chan d).phase = (s.chan d).phase) (h1 : .intake ∉ l := by decide) (h2 : .log ∉ l := by decide) :
    Onward s t := by
  refine h.onward m 0 tied (fun j => by rw [entry]) (fun j f f' at_ at' state => ?_) (fun d _ => phase d)
    (fun j f' at' => ?_) (Channel.shutLate_congr (phase 0) (h.shutLate 0)) (fun x => .inl ?_) h1 h2
  · rw [entry] at at'
    obtain rfl := Option.some.inj (at_.symm.trans at')
    exact state
  · rw [entry] at at'
    rw [Channel.allows_congr (phase _)]
    exact h.allows j f' at'
  · rw [(Channel.phase_eq (phase 0)).1] at x
    exact x

/-! ## Operations that the laws do not see -/

/-- What the laws read of an entry. -/
def Entry.standing (e : Entry) : Nat × Nat × EntryState × Option Nat := (e.id, e.channel, e.state, e.seat)

/-- Nothing that the laws of the roster read has changed. -/
structure Quiet (s t : State) : Prop where
  entry : ∀ k, (t.entry k).map Entry.standing = (s.entry k).map Entry.standing
  seat : ∀ i, (t.seat i).occ.taken = (s.seat i).occ.taken
  phase : ∀ c, (t.chan c).phase = (s.chan c).phase

theorem Quiet.refl (s : State) : Quiet s s := ⟨fun _ => rfl, fun _ => rfl, fun _ => rfl⟩

theorem Quiet.trans (h : Quiet s t) (g : Quiet t u) : Quiet s u :=
  ⟨fun k => (g.entry k).trans (h.entry k), fun i => (g.seat i).trans (h.seat i), fun c => (g.phase c).trans (h.phase c)⟩

theorem Quiet.ite {p : Prop} [Decidable p] (h : p → Quiet s t) (g : ¬p → Quiet s u) : Quiet s (if p then t else u) := by
  split <;> rename_i x
  · exact h x
  · exact g x

theorem Quiet.fold {α : Type} {f : State → α → State} (each : ∀ t a, Quiet t (f t a)) (xs : List α) (s : State) :
    Quiet s (xs.foldl f s) := foldl_invariant (fun t => Quiet s t) f (fun t a x => x.trans (each t a)) xs s (.refl s)

/-- Roster, seats and channels stand. -/
theorem Quiet.of_moves {l : List Part} (m : Moves l s t) (h1 : Part.roster ∉ l := by decide)
    (h2 : Part.seats ∉ l := by decide) (h3 : Part.channels ∉ l := by decide) : Quiet s t :=
  ⟨fun k => by rw [m.frame.entry k h1], fun i => by rw [m.frame.seat i h2], fun c => by rw [m.frame.chan c h3]⟩

theorem Quiet.onEntry (s : State) (k : Nat) {f : Entry → Entry} (same : ∀ e, (f e).standing = e.standing) :
    Quiet s (s.onEntry k f) :=
  ⟨fun j => by
    rw [State.entry_changed]
    split
    · rw [Option.map_map]; exact congrArg (fun g => (s.entry j).map g) (funext same)
    · rfl, fun _ => by rw [(Moves.onEntry s k f).frame.seat], fun _ => by rw [(Moves.onEntry s k f).frame.chan]⟩

theorem Quiet.onSeat (s : State) (i : Nat) {f : Seat → Seat} (same : ∀ r, (f r).occ.taken = r.occ.taken) :
    Quiet s (s.onSeat i f) :=
  ⟨fun _ => by rw [(Moves.onSeat s i f).frame.entry], fun j => by
    rw [State.seat_onSeat]
    split
    · subst_vars; exact same _
    · rfl, fun _ => by rw [(Moves.onSeat s i f).frame.chan]⟩

theorem Quiet.onChan (s : State) (c : Nat) {f : Channel → Channel} (same : ∀ r, (f r).phase = r.phase) :
    Quiet s (s.onChan c f) :=
  ⟨fun _ => rfl, fun _ => rfl, fun d => by
    rw [State.chan_onChan]
    split
    · subst_vars; exact same _
    · rfl⟩

theorem Sits.quiet {l : List Part} (h : Sits s) (m : Moves l s t) (q : Quiet s t) (h1 : .intake ∉ l := by decide)
    (h2 : .log ∉ l := by decide) : Onward s t := by
  have back : ∀ {k e'}, t.entry k = some e' → ∃ e, s.entry k = some e ∧ e'.standing = e.standing := fun {k e'} found => by
    have := q.entry k
    rw [found] at this
    obtain ⟨e, at_, same⟩ := Option.map_eq_some_iff.mp this.symm
    exact ⟨e, at_, same.symm⟩
  refine h.onward m 0 (h.tied.same (fun k => ?_) q.seat) (fun k => ?_) (fun k e e' found found' state => ?_)
    (fun d _ => q.phase d) (fun k e' found' => ?_) (Channel.shutLate_congr (q.phase 0) (h.shutLate 0)) (fun x => .inl ?_)
    h1 h2
  · have := congrArg (Option.map fun x : Nat × Nat × EntryState × Option Nat => (x.2.2.2, x.2.2.1.sits)) (q.entry k)
    rw [Option.map_map, Option.map_map] at this
    exact this
  · have := congrArg (Option.map fun x : Nat × Nat × EntryState × Option Nat => (x.1, x.2.1)) (q.entry k)
    rw [Option.map_map, Option.map_map] at this
    exact this
  · obtain ⟨f, at_, same⟩ := back found'
    obtain rfl := Option.some.inj (at_.symm.trans found)
    simp only [Entry.standing, Prod.mk.injEq] at same
    exact same.2.2.1.trans state
  · obtain ⟨f, at_, same⟩ := back found'
    simp only [Entry.standing, Prod.mk.injEq] at same
    rw [Channel.allows_congr (q.phase _), same.2.1, same.2.2.1]
    exact h.allows k f at_
  · rw [(Channel.phase_eq (q.phase 0)).1] at x
    exact x

end Sys2Proof.Machine
end

section
/-! PROOF. The operations of the sitting unit and the candidate clock unit keep the laws of the roster (3.2, R42 to R45, R61). -/

namespace Sys2Proof.Machine

set_option Elab.async false

variable {s t u : State} {c k : Nat} {e e' : Entry}

/-! ## What the laws do not see -/

theorem Quiet.notify (s : State) (x : Subject) : Quiet s (s.notify x) := .of_moves (.notify s x)

theorem Quiet.recompute (s : State) (w k : Nat) : Quiet s (s.recompute w k) where
  entry j := by
    rw [State.entry_recompute]
    split
    · rw [Option.map_map]; rfl
    · rfl
  seat i := by rw [(Moves.recompute s w k).frame.seat]
  phase c := by rw [(Moves.recompute s w k).frame.chan]

theorem Quiet.dropAmendment (s : State) (c : Nat) : Quiet s (s.dropAmendment c) := by
  unfold State.dropAmendment
  split
  · exact (Quiet.onChan s c (f := fun ch => { ch with amendment := none }) fun _ => rfl).trans (.notify _ _)
  · exact .refl s

theorem Quiet.amend (s : State) (c v n : Nat) : Quiet s (s.amend c v n) :=
  ((Quiet.onChan s c (f := fun ch => { ch with length := amended v n, amendment := none }) fun _ => rfl).trans
    (.fold (fun t k => .recompute t _ k) _ _)).trans (.notify _ _)

theorem Quiet.applyPending (s : State) (c : Nat) : Quiet s (s.applyPending c) := by
  unfold State.applyPending
  split
  · split
    · exact .dropAmendment s c
    · exact .amend s c _ _
  · exact .refl s

theorem Quiet.secondAmendment (s : State) (c : Nat) : Quiet s (s.secondAmendment c) :=
  .ite (fun _ => .applyPending s c) fun _ => .refl s

theorem Quiet.exhaust (s : State) (k : Nat) : Quiet s (s.exhaust k) where
  entry j := by
    rw [State.entry_exhaust]
    split
    · rw [Option.map_map]; rfl
    · rfl
  seat i := by rw [(Moves.exhaust s k).frame.seat]
  phase c := by rw [(Moves.exhaust s k).frame.chan]

theorem Quiet.heldSecond (s : State) (c : Nat) : Quiet s (s.heldSecond c) := .onChan s c fun _ => rfl

theorem Sits.dropAmendment (h : Sits s) (c : Nat) : Onward s (s.dropAmendment c) :=
  h.quiet (.dropAmendment s c) (.dropAmendment s c)

theorem Sits.applyPending (h : Sits s) (c : Nat) : Onward s (s.applyPending c) :=
  h.quiet (.applyPending s c) (.applyPending s c)

theorem Sits.secondAmendment (h : Sits s) (c : Nat) : Onward s (s.secondAmendment c) :=
  h.quiet (.secondAmendment s c) (.secondAmendment s c)

theorem Sits.exhaust (h : Sits s) (k : Nat) : Onward s (s.exhaust k) := h.quiet (.exhaust s k) (.exhaust s k)

theorem Sits.heldSecond (h : Sits s) (c : Nat) : Onward s (s.heldSecond c) := h.quiet (.heldSecond s c) (.heldSecond s c)

/-- An operation that leaves roster, seats, channels, intake and log. -/
theorem Sits.aside {l : List Part} (h : Sits s) (m : Moves l s t) (h1 : .intake ∉ l := by decide)
    (h2 : .log ∉ l := by decide) (h3 : Part.roster ∉ l := by decide) (h4 : Part.seats ∉ l := by decide)
    (h5 : Part.channels ∉ l := by decide) : Onward s t := h.quiet m (.of_moves m h3 h4 h5) h1 h2

/-- The entry of slot `k` changes, its seat apart. -/
theorem Sits.onEntry (h : Sits s) (found : s.entry k = some e) {f : Entry → Entry}
    (keeps : (f e).id = e.id ∧ (f e).channel = e.channel ∧ (f e).seat = e.seat) (sits : (f e).state.sits = e.state.sits)
    (collected : e.state = .collected → (f e).state = .collected) (allows : (s.chan e.channel).allows (f e).state = true) :
    Onward s (s.onEntry k f) := by
  have entry := fun j => State.entry_changed s k j f
  refine h.slot (.onEntry s k f) (h.tied.entry entry (fun e' found' => ?_) fun i => ?_) found (e' := f e) (fun j => ?_) keeps.1
    keeps.2.1 collected allows fun d => ?_
  · obtain rfl := Option.some.inj (found'.symm.trans found)
    exact ⟨keeps.2.2, sits⟩
  · rw [(Moves.onEntry s k f).frame.seat]
  · rw [entry]
    split
    · subst_vars; rw [found]; rfl
    · rfl
  · rw [(Moves.onEntry s k f).frame.chan]

/-! ## Phases -/

/-- Channel `c` enters a phase that its entries may stand in. -/
theorem Sits.enterPhase (h : Sits s) (c : Nat) (x : ChanState)
    (here : ∀ k e, s.entry k = some e → e.channel = c → ({ s.chan c with state := x } : Channel).allows e.state = true)
    (shut : ({ s.chan c with state := x } : Channel).shutLate)
    (opens : x.isActive = true → (s.chan c).state.isActive = true ∨ s.conflictSlot c = none) :
    Onward s (s.enterPhase c x) := by
  have own : ((s.enterPhase c x).chan c).phase = ({ s.chan c with state := x } : Channel).phase := by
    rw [State.chan_enterPhase, if_pos rfl]; rfl
  refine h.confined (.enterPhase s c x) (.enterPhase s c x) (h.tied.of_moves (.enterPhase s c x)) (fun d other => ?_)
    (fun k e found at_ => ?_) (Channel.shutLate_congr own shut) fun active => opens ?_
  · rw [State.chan_enterPhase, if_neg fun x => other x.symm]
  · rw [(Moves.enterPhase s c x).frame.entry] at found
    rw [Channel.allows_congr own]
    exact here k e found at_
  · rw [(Channel.phase_eq own).1] at active
    exact active

/-- An entry that has left its seat, or was never admitted, may stand in a COLLECTING channel, and in a RECONCILED one when it
is COLLECTED or ABSENT. -/
theorem Channel.allows_collect (r : Channel) {x : EntryState} (idle : x ∈ [.finished, .timeUp, .collected, .absent])
    {b : Bool} (all : b = true → x = .collected ∨ x = .absent) : (r.collect b).allows x = true := by
  cases b with
  | false => simpa [Channel.collect, Channel.allows] using idle
  | true =>
    rcases all rfl with eq | eq <;> rw [eq] <;> rfl

theorem Channel.shutLate_collect (r : Channel) (b : Bool) : (r.collect b).shutLate := by
  cases b <;> simp [Channel.shutLate, Channel.collect]

theorem Channel.isActive_collect (r : Channel) (b : Bool) : (r.collect b).state.isActive = false := by cases b <;> rfl

theorem Sits.reconcile (h : Sits s) (c : Nat) : Onward s (s.reconcile c) := by
  refine Sits.ite (fun ⟨_, all⟩ => h.enterPhase c .reconciled (fun k e found own => ?_) (by simp [Channel.shutLate]) nofun)
    fun _ => .refl h
  rcases (State.reconciles_iff h.rises c).mp all k e found own with eq | eq <;> rw [eq] <;> rfl

/-- A channel none of whose candidates sits or waits becomes COLLECTING. -/
theorem Sits.enterCollecting (h : Sits s) (c : Nat)
    (idle : ∀ k e, s.entry k = some e → e.channel = c → e.state ∈ [.finished, .timeUp, .collected, .absent]) :
    Onward s (s.enterCollecting c) := by
  have entered := h.enterPhase c .collecting (fun k e found own => by
    simpa [Channel.allows] using idle k e found own) (by simp [Channel.shutLate]) nofun
  exact entered.trans (entered.sits.reconcile c)

/-! ## The COLLECTED test and departures -/

theorem EntryState.isWriting_cases {x : EntryState} (h : x.isWriting = true) : x = .writing ∨ x = .onBreak := by
  cases x <;> simp_all [EntryState.isWriting]

/-- A candidate WRITING or ON_BREAK stands in a WRITING or OVERTIME channel. -/
theorem Channel.writes_of_allows {r : Channel} {x : EntryState} (h : r.allows x = true) (writes : x.isWriting = true) :
    r.state = .writing ∨ r.state = .overtime := by
  cases state : r.state <;> rcases EntryState.isWriting_cases writes with eq | eq <;> subst eq <;>
    simp_all [Channel.allows]

theorem Channel.allows_left {r : Channel} (running : r.state = .writing ∨ r.state = .overtime) {x : EntryState}
    (left : x ∈ [.finished, .timeUp, .collected]) : r.allows x = true := by
  simp only [List.mem_cons, List.not_mem_nil, or_false] at left
  rcases running with state | state <;> unfold Channel.allows <;> rw [state] <;> dsimp only <;>
    rcases left with eq | eq | eq <;> subst eq <;> simp

theorem State.departed_left (s : State) (e : Entry) (w : ClosingWord) :
    (s.departed e w).state ∈ [EntryState.finished, .timeUp, .collected] := by
  unfold State.departed ClosingWord.leaves
  dsimp only
  split
  · simp
  · split <;> simp

/-- A candidate WRITING or ON_BREAK departs (R70, R130, R45). -/
theorem Sits.depart (h : Sits s) (found : s.entry k = some e) (writes : e.state.isWriting = true) (w : ClosingWord) :
    Onward s (s.depart k w) := by
  have running := Channel.writes_of_allows (h.allows k e found) writes
  have chan := State.chan_depart found w (by rcases running with x | x <;> rw [x] <;> decide)
  have rises : mapRises 0 (s.depart k w).roster = true := State.rises_next (.depart s k w) h.canonical
  have active : (s.chan e.channel).state.isActive = true := by rcases running with x | x <;> rw [x] <;> rfl
  have stands : ∀ j f, (s.depart k w).entry j = some f → f.channel = e.channel →
      (s.chan e.channel).allows f.state = true := fun j f after own => by
    rw [State.entry_depart found] at after
    split at after
    · obtain rfl := Option.some.inj after
      exact Channel.allows_left running (s.departed_left e w)
    · rw [← own]; exact h.allows j f after
  refine h.confined (.depart s k w) (.depart found rfl (fun x => by rw [x] at writes; cases writes) w) (h.tied.depart k w)
    (fun d other => by rw [chan, if_neg fun x => other x.1.symm]) (fun j f after own => ?_) ?_ fun _ => .inl active
  · rw [chan]
    split
    · rename_i ends
      have idle : f.state.isWriting = false := by
        by_contra x
        have := (State.hasWriter_iff rises e.channel).mpr ⟨j, f, after, own, by simpa using x⟩
        rw [ends.2.2] at this
        cases this
      refine Channel.allows_collect _ ?_ fun all => (State.reconciles_iff rises e.channel).mp all j f after own
      have overtime := stands j f after own
      unfold Channel.allows at overtime
      rw [ends.2.1] at overtime
      revert idle overtime
      cases f.state <;> simp [EntryState.isWriting]
    · exact stands j f after own
  · rw [chan]
    split
    · exact Channel.shutLate_collect _ _
    · exact h.shutLate _

/-- Where the COLLECTED test passes, the channel's phase allows a COLLECTED entry (R130). -/
theorem State.collects_allows (collects : s.collects e = true) (allowed : (s.chan e.channel).allows e.state = true) :
    e.state.sits = none ∧ (s.chan e.channel).allows .collected = true := by
  simp only [State.collects, Bool.and_eq_true, Bool.or_eq_true, decide_eq_true_eq] at collects
  obtain ⟨⟨stopped, -⟩, -⟩ := collects
  revert allowed
  unfold Channel.allows
  rcases stopped with (state | state) | ⟨state, reconciled⟩
  · rw [state]; cases (s.chan e.channel).state <;> simp [EntryState.sits]
  · rw [state]; cases (s.chan e.channel).state <;> simp [EntryState.sits]
  · rw [state, reconciled]; simp [EntryState.sits]

/-- The COLLECTED test, with what it hands to the sitting unit (R130, R132). -/
theorem Sits.collectTest (h : Sits s) (k : Nat) : Onward s (s.collectTest k) := by
  unfold State.collectTest
  split
  · rename_i e found
    refine Sits.ite (fun collects => ?_) fun _ => .refl h
    obtain ⟨left, allowed⟩ := State.collects_allows collects (h.allows k e found)
    have collected : Onward s (s.onEntry k fun e => { e with state := .collected }) :=
      h.onEntry found (f := fun e => { e with state := .collected }) ⟨rfl, rfl, rfl⟩ left.symm (fun _ => rfl) allowed
    exact collected.trans (collected.sits.reconcile _)
  · exact .refl h

/-! ## The channel second -/

theorem Quiet.putEntry (found : s.entry k = some e) (same : e'.standing = e.standing) : Quiet s (s.putEntry k e') where
  entry j := by
    rw [State.entry_putEntry]
    split
    · subst_vars; rw [found]; exact congrArg some same
    · rfl
  seat _ := rfl
  phase _ := rfl

/-- A writing second for one entry (R61). -/
theorem Sits.countEntry (h : Sits s) (k : Nat) : Onward s (s.countEntry k) := by
  unfold State.countEntry
  split
  · exact .refl h
  · rename_i e found
    obtain ⟨state, seat, id, -⟩ := Entry.count_keeps e
    have channel : e.count.channel = e.channel := by unfold Entry.count; split <;> rfl
    refine Sits.ite (fun writes => ?_) fun _ => .refl h
    have counted := h.quiet (.putEntry s k e.count) (.putEntry found (e' := e.count) (by simp only [Entry.standing, state, seat, id, channel]))
    have at_ : (s.putEntry k e.count).entry k = some e.count := by rw [State.entry_putEntry, if_pos rfl]
    refine counted.trans (Sits.ite (fun _ => Sits.ite (fun _ => counted.sits.exhaust k) fun _ => .refl counted.sits) fun _ =>
      Sits.ite (fun _ => counted.sits.depart at_ (by rw [state]; exact writes) _) fun _ => counted.sits.aside (.warnTest _ k))

theorem Sits.countChannel (h : Sits s) (c : Nat) : Onward s (s.countChannel c) := h.fold (fun _ k g => g.countEntry k) _

/-- The closing of admission leaves every entry in a state that the phase allows (R43). -/
theorem Channel.allows_closing {r : Channel} (late : r.state ∉ [.free, .loaded, .opened, .reading]) {x : EntryState}
    (h : r.allows x = true) :
    ({ r with closed := true } : Channel).allows (if x.isOut then .absent else x) = true := by
  revert h late
  unfold Channel.allows
  dsimp only
  cases r.state <;> cases r.closed <;> cases x <;> simp [EntryState.isOut]

/-- Admission closes once the channel has come to WRITING (R43). -/
theorem Sits.closeAdmission (h : Sits s) (late : (s.chan c).state ∉ [.free, .loaded, .opened, .reading]) :
    Onward s (s.closeAdmission c) := by
  have chan := State.chan_closeAdmission s c
  refine h.confined (.closeAdmission s c) (.closeAdmission h.rises) (h.tied.closeAdmission h.rises)
    (fun d other => by rw [chan, if_neg fun x => other x.symm]) (fun k e' found own => ?_) ?_ fun active => .inl ?_
  · rw [State.entry_closeAdmission h.rises] at found
    obtain ⟨e, at_, eq⟩ := Option.map_eq_some_iff.mp found
    have here : e.channel = c := by rw [← eq] at own; revert own; split <;> exact id
    have state : e'.state = if e.state.isOut then .absent else e.state := by
      rw [← eq]
      simp only [here, true_and]
      split <;> rfl
    rw [chan, if_pos rfl, state]
    exact Channel.allows_closing late (here ▸ h.allows k e at_)
  · rw [chan, if_pos rfl]
    exact fun _ => late
  · rw [chan, if_pos rfl] at active
    exact active

theorem Sits.closeOnce (h : Sits s) (late : (s.chan c).state ∉ [.free, .loaded, .opened, .reading]) :
    Onward s (s.closeOnce c) := Sits.ite (fun _ => .refl h) fun _ => h.closeAdmission late

/-- In a WRITING channel whose admission is closed no candidate waits (R43). -/
theorem Channel.allows_shut {r : Channel} (writing : r.state = .writing) (closed : r.closed = true) {x : EntryState}
    (h : r.allows x = true) : x ∈ [.writing, .onBreak, .finished, .timeUp, .collected, .absent] := by
  unfold Channel.allows at h
  rw [writing, closed] at h
  simpa using h

/-- Base end of a WRITING channel (R44). -/
theorem Sits.endBase (h : Sits s) (writing : (s.chan c).state = .writing) : Onward s (s.endBase c) := by
  have closed := h.closeOnce (c := c) (by rw [writing]; decide)
  have dropped := closed.trans (closed.sits.dropAmendment c)
  unfold State.endBase
  dsimp only
  have chan : ((s.closeOnce c).dropAmendment c).chan c = { s.chan c with closed := true, amendment := none } := by
    rw [State.chan_dropAmendment, if_pos rfl, State.chan_closeOnce, if_pos rfl]
  generalize (s.closeOnce c).dropAmendment c = v at dropped chan
  have here : ∀ k e, v.entry k = some e → e.channel = c →
      e.state ∈ [.writing, .onBreak, .finished, .timeUp, .collected, .absent] := fun k e found own =>
    Channel.allows_shut (r := v.chan c) (by rw [chan]; exact writing) (by rw [chan]) (own ▸ dropped.sits.allows k e found)
  refine dropped.trans (Sits.ite (fun _ => dropped.sits.enterPhase c .overtime (fun k e found own => ?_)
    (by simp [Channel.shutLate]) fun _ => .inl (by rw [chan, writing]; rfl)) fun idle =>
      dropped.sits.enterCollecting c fun k e found own => ?_)
  · simpa [Channel.allows] using here k e found own
  · have stopped : e.state.isWriting = false := by
      by_contra x
      exact idle ((State.hasWriter_iff dropped.sits.rises c).mpr ⟨k, e, found, own, by simpa using x⟩)
    revert stopped
    have := here k e found own
    revert this
    cases e.state <;> simp [EntryState.isWriting]

theorem Sits.secondClose (h : Sits s) (late : (s.chan c).state ∉ [.free, .loaded, .opened, .reading]) :
    Onward s (s.secondClose c) := Sits.ite (fun _ => h.closeOnce late) fun _ => .refl h

theorem Sits.secondBase (h : Sits s) (c : Nat) : Onward s (s.secondBase c) :=
  Sits.ite (fun x => h.endBase x.1) fun _ => .refl h

/-- The phases of a channel whose second has been counted: WRITING and later (R43). -/
theorem Sits.countChannel_late (h : Sits s) (c : Nat) (running : (s.chan c).state = .writing ∨ (s.chan c).state = .overtime) :
    ((s.countChannel c).chan c).state ∉ [.free, .loaded, .opened, .reading] := by
  rw [State.chan_countChannel h.canonical c (by rcases running with x | x <;> rw [x] <;> decide)]
  split
  · unfold Channel.collect; dsimp only; split <;> decide
  · rcases running with x | x <;> rw [x] <;> decide

/-- A writing second (R43). -/
theorem Sits.writingSecond (h : Sits s) (running : (s.chan c).state = .writing ∨ (s.chan c).state = .overtime) :
    Onward s (s.writingSecond c) := by
  have counts := h.quiet (.onChan s c fun ch => { ch with writeElapsed := ch.writeElapsed + 1 }) (.onChan s c fun _ => rfl)
  have amends := counts.trans (counts.sits.secondAmendment c)
  have same : ((((s.onChan c fun ch => { ch with writeElapsed := ch.writeElapsed + 1 })).secondAmendment c).chan c).state =
      (s.chan c).state := by
    rw [(Channel.phase_eq ((Quiet.secondAmendment _ c).phase c)).1, State.chan_onChan, if_pos rfl]
  unfold State.writingSecond
  generalize (s.onChan c fun ch => { ch with writeElapsed := ch.writeElapsed + 1 }).secondAmendment c = v at amends same
  have ticks := amends.sits.countChannel c
  have closes := ticks.sits.secondClose (amends.sits.countChannel_late c (by rw [same]; exact running))
  exact ((amends.trans ticks).trans closes).trans (closes.sits.secondBase c)

end Sys2Proof.Machine
end

section
/-! PROOF. Starts, timed attempts and second ticks keep the laws of the roster (R24, R37 to R42, R85, R91). -/

namespace Sys2Proof.Machine

set_option Elab.async false

variable {s t u : State} {c k : Nat} {e e' : Entry}

/-! ## Starts -/

theorem State.writers_startWriting (canonical : s.canonical = true) (c : Nat) (found : (s.startWriting c).entry k = some e') :
    ∃ e, s.entry k = some e ∧ e'.channel = e.channel ∧
      e'.state = if e.channel = c ∧ e.state = .seated then .writing else e.state := by
  unfold State.startWriting at found
  rw [State.entry_notify] at found
  have rises : mapRises 0 (s.onChan c fun ch => { ch with state := .writing, writeElapsed := 0 }).roster = true :=
    State.rises_next (Moves.onChan s c _) canonical
  have quiet := (Quiet.applyPending ((s.onChan c fun ch => { ch with state := .writing, writeElapsed := 0 }).startWriters c) c).entry k
  rw [found, State.entry_startWriters rises, State.entry_onChan] at quiet
  cases at_ : s.entry k with
  | none => rw [at_] at quiet; cases quiet
  | some e =>
    rw [at_] at quiet
    simp only [Option.map_some, Option.some.injEq, Entry.standing, Prod.mk.injEq] at quiet
    obtain ⟨-, channel, state, -⟩ := quiet
    refine ⟨e, rfl, channel.trans ?_, state.trans ?_⟩ <;> split <;> rfl

/-- Before WRITING admission stands open. -/
theorem Channel.open_of_shutLate {r : Channel} (h : r.shutLate) (early : r.state = .opened ∨ r.state = .reading) :
    r.closed = false := by
  by_contra x
  have := h (by simpa using x)
  rcases early with y | y <;> rw [y] at this <;> exact this (by decide)

theorem Channel.phase_begun (r : Channel) : r.begun.phase = (.writing, r.closed) := by
  unfold Channel.begun Channel.applied
  dsimp only
  split
  · split <;> rfl
  · rfl

/-- The writing start of an OPEN or READING channel (R41, R62). -/
theorem Sits.startWriting (h : Sits s) (early : (s.chan c).state = .opened ∨ (s.chan c).state = .reading) :
    Onward s (s.startWriting c) := by
  have chan := State.chan_startWriting s c
  have open_ := Channel.open_of_shutLate (h.shutLate c) early
  have own : ((s.startWriting c).chan c).phase = (.writing, false) := by
    rw [chan, if_pos rfl, Channel.phase_begun, open_]
  have begun : ((s.startWriting c).chan c).state = .writing ∧ ((s.startWriting c).chan c).closed = false := Prod.mk.inj own
  refine h.confined (.startWriting s c) (.startWriting h.canonical) (h.tied.startWriting h.rises)
    (fun d other => by rw [chan, if_neg fun x => other x.symm]) (fun k e' found own => ?_)
    (fun x => by rw [begun.2] at x; cases x) fun _ => .inl (by rcases early with x | x <;> rw [x] <;> rfl)
  obtain ⟨e, at_, channel, state⟩ := State.writers_startWriting h.canonical c found
  have allowed := h.allows k e at_
  rw [state, show e.channel = c from channel.symm.trans own] at *
  revert allowed
  unfold Channel.allows
  rw [begun.1, begun.2]
  rcases early with x | x <;> rw [x] <;> cases e.state <;> simp

/-- A start of an OPEN channel (R39). -/
theorem Sits.startChannel (h : Sits s) (opened : (s.chan c).state = .opened) : Onward s (s.startChannel c) := by
  refine Sits.ite (fun _ => ?_) fun _ => h.startWriting (.inl opened)
  have resets := h.quiet (.onChan s c fun ch => { ch with readElapsed := 0 }) (.onChan s c fun _ => rfl)
  have phase : ((s.onChan c fun ch => { ch with readElapsed := 0 }).chan c).state = .opened := by
    rw [State.chan_onChan, if_pos rfl]; exact opened
  generalize (s.onChan c fun ch => { ch with readElapsed := 0 }) = v at resets phase
  have reads := resets.sits.enterPhase c .reading (fun k e found own => by
    have := resets.sits.allows k e found
    rw [own] at this
    unfold Channel.allows at this ⊢
    rw [phase] at this
    exact this) (fun x => by
      have := Channel.open_of_shutLate (resets.sits.shutLate c) (.inl phase)
      rw [show (v.chan c).closed = true from x] at this; cases this) fun _ => .inl (by rw [phase]; rfl)
  exact (resets.trans reads).trans (reads.sits.aside (.markEntries _ c _))

/-- A reading second (R42, R41). -/
theorem Sits.readingSecond (h : Sits s) (reading : (s.chan c).state = .reading) : Onward s (s.readingSecond c) := by
  have counts := h.quiet (.onChan s c fun ch => { ch with readElapsed := ch.readElapsed + 1 }) (.onChan s c fun _ => rfl)
  have marks := counts.trans (counts.sits.aside (.readingMarks _ c))
  have same : (((s.onChan c fun ch => { ch with readElapsed := ch.readElapsed + 1 }).readingMarks c).chan c).state = .reading := by
    rw [(Moves.readingMarks _ c).frame.chan, State.chan_onChan, if_pos rfl]; exact reading
  unfold State.readingSecond
  dsimp only
  generalize (s.onChan c fun ch => { ch with readElapsed := ch.readElapsed + 1 }).readingMarks c = v at marks same
  exact marks.trans (Sits.ite (fun _ => marks.sits.startWriting (.inr same)) fun _ => .refl marks.sits)

/-- A LOADED channel is opened, which no conflict bars (R37). -/
theorem Sits.open_ (h : Sits s) (loaded : (s.chan c).state = .loaded) (clear : s.conflictSlot c = none) :
    Onward s (s.enterPhase c .opened) :=
  h.enterPhase c .opened (fun k e found own => by
    have := h.allows k e found
    rw [own] at this
    unfold Channel.allows at this ⊢
    rw [loaded] at this
    simp only [decide_eq_true_eq] at this
    rw [this]; rfl) (fun x => absurd (h.shutLate c x) (by rw [loaded]; decide)) fun _ => .inr clear

/-- A timed admission attempt of a LOADED channel (R38). -/
theorem Sits.timedAttempt (h : Sits s) (loaded : (s.chan c).state = .loaded) : Onward s (s.timedAttempt c) := by
  unfold State.timedAttempt
  split
  · rename_i clear
    exact h.open_ loaded clear
  · have spent := h.quiet (.onChan s c fun ch => { ch with spent := true }) (.onChan s c fun _ => rfl)
    exact spent.trans (spent.sits.aside (.notify _ _))

/-! ## The second tick -/

theorem State.admissionDue_loaded (due : s.admissionDue c = true) : (s.chan c).state = .loaded := by
  simp only [State.admissionDue, Bool.and_eq_true, decide_eq_true_eq] at due
  exact due.1.1.2

theorem State.startDue_opened (due : s.startDue c = true) : (s.chan c).state = .opened := by
  simp only [State.startDue, Bool.and_eq_true, decide_eq_true_eq] at due
  exact due.1.2

theorem Sits.tickChannel (h : Sits s) (c : Nat) : Onward s (s.tickChannel c) := by
  unfold State.tickChannel
  split
  · rename_i state
    exact Sits.ite (fun _ => h.timedAttempt state) fun _ => .refl h
  · rename_i state
    exact Sits.ite (fun _ => h.startChannel state) fun _ => .refl h
  · rename_i state
    exact Sits.ite (fun _ => h.heldSecond c) fun _ => h.readingSecond state
  · rename_i state
    exact Sits.ite (fun _ => h.heldSecond c) fun _ => h.writingSecond (.inl state)
  · rename_i state
    exact Sits.ite (fun _ => h.heldSecond c) fun _ => h.writingSecond (.inr state)
  · exact .refl h

theorem Sits.giveTick (h : Sits s) (x : Option Nat) : Onward s (s.giveTick x) := h.aside (.giveTick s x)

theorem Sits.passTick (h : Sits s) (c : Nat) : Onward s (s.passTick c) := by
  have given := h.giveTick (some c)
  have ticked := given.trans (given.sits.tickChannel c)
  exact ticked.trans (ticked.sits.giveTick none)

/-- The seat allocator's second for one seat (R85, R86, R91). -/
theorem Sits.tickSeat (h : Sits s) (i : Nat) : Onward s (s.tickSeat i) := by
  have phase : ∀ d, ((s.tickSeat i).chan d).phase = (s.chan d).phase := fun d => by rw [(Moves.tickSeat s i).frame.chan]
  by_cases out : ∃ k, s.time.held = false ∧ (s.seat i).runsOut k
  · obtain ⟨k, free, out⟩ := out
    obtain ⟨e, found, -, state⟩ := h.tied.runsOut out
    have allowed := h.allows k e found
    refine h.slot (.tickSeat s i) (h.tied.tickSeat i) found (e' := e.expired) (fun j => ?_) rfl rfl
      (fun x => by rw [state] at x; cases x) ?_ phase
    · rcases State.entry_tickSeat s i j with ⟨same, stays⟩ | ⟨expires, -, own⟩
      · rw [same, if_neg fun x : k = j => stays ⟨free, x ▸ out⟩]
      · obtain ⟨n, occ, -⟩ := out
        obtain ⟨n', occ', -⟩ := own
        obtain ⟨rfl, -⟩ : k = j ∧ n = n' := by simpa using occ.symm.trans occ'
        rw [expires, if_pos rfl, found]; rfl
    · rw [state] at allowed
      revert allowed
      unfold Channel.allows Entry.expired
      cases (s.chan e.channel).state <;> cases (s.chan e.channel).closed <;> simp
  · refine h.entries (.tickSeat s i) (h.tied.tickSeat i) (fun j => ?_) phase
    rcases State.entry_tickSeat s i j with ⟨same, -⟩ | ⟨-, expires⟩
    · exact same
    · exact absurd ⟨j, expires⟩ out

theorem Sits.tickSeats (h : Sits s) : Onward s s.tickSeats := h.fold (fun _ i g => g.tickSeat i) _

theorem Sits.consume (h : Sits s) (x : Consumer) : Onward s (s.consume x) := by
  cases x with
  | sitting => exact h.fold (fun _ c g => g.passTick c) _
  | seats => exact h.tickSeats
  | signals => exact h.aside (.tickSignals s)

theorem Sits.onTime (h : Sits s) (f : TimeBase → TimeBase) : Onward s (s.onTime f) := h.aside (.onTime s f)

/-- A second tick with a change in its midst that keeps the laws (R24, R28). -/
theorem Sits.secondTickWith (h : Sits s) (o : TickOrder) (n : Nat) {mid : State → State} (keeps : ∀ t, Sits t → Onward t (mid t)) :
    Onward s (s.secondTickWith o n mid) := by
  have time := h.onTime TimeBase.second
  have before := time.trans (time.sits.fold (fun _ x g => g.consume x) ((consumersOf o).take n))
  have middle := before.trans (keeps _ before.sits)
  exact middle.trans (middle.sits.fold (fun _ x g => g.consume x) ((consumersOf o).drop n))

theorem Sits.secondTick (h : Sits s) (o : TickOrder) : Onward s (s.secondTick o) := by
  have time := h.onTime TimeBase.second
  exact time.trans (time.sits.fold (fun _ x g => g.consume x) (consumersOf o))

/-! ## The reference and the hold input -/

theorem Sits.judgeBad (h : Sits s) (o : TickOrder) : Onward s (s.judgeBad o) := by
  unfold State.judgeBad
  split
  · exact h.onTime _
  · have counts := h.onTime fun b => { b with bad := b.bad + 1, good := 0 }
    dsimp only
    refine counts.trans (Sits.ite (fun _ => ?_) fun _ => .refl counts.sits)
    have time := counts.sits.onTime fun b => { b with refState := .lost, good := 0 }
    have lost := time.trans (time.sits.aside (.notify _ .refLost))
    exact lost.trans (Sits.ite (fun _ => lost.sits.secondTick o) fun _ => .refl lost.sits)

theorem Sits.goodEdge (h : Sits s) (o : TickOrder) : Onward s (s.goodEdge o) :=
  Sits.ite (fun _ => h.secondTick o) fun _ => h.onTime _

theorem Sits.judgeGood (h : Sits s) (o : TickOrder) : Onward s (s.judgeGood o) := by
  unfold State.judgeGood
  split
  · have time := h.onTime fun b => { b with refState := .good, bad := 0, good := b.good + 1 }
    exact time.trans (time.sits.goodEdge o)
  · have time := h.onTime fun b => { b with bad := 0 }
    exact time.trans (time.sits.goodEdge o)
  · have counts := h.onTime fun b => { b with good := b.good + 1 }
    dsimp only
    refine counts.trans (Sits.ite (fun _ => ?_) fun _ => .refl counts.sits)
    have time := counts.sits.onTime fun b => { b with refState := .good, bad := 0 }
    have back := time.trans (time.sits.aside (.notify _ .refBack))
    exact back.trans (back.sits.goodEdge o)

theorem Sits.judgeMissing (h : Sits s) (o : TickOrder) : Onward s (s.judgeMissing o) := by
  have time := h.onTime fun b => { b with openPeriod := none, missingTimer := b.missingTimer - Config.missingEdgeClocks }
  exact time.trans (time.sits.judgeBad o)

theorem Sits.missingTest (h : Sits s) (o : TickOrder) : Onward s (s.missingTest o) :=
  Sits.ite (fun _ => h.judgeMissing o) fun _ => .refl h

theorem Sits.missingFirst (h : Sits s) (o : TickOrder) : Onward s (s.missingFirst o) := by
  unfold State.missingFirst
  split
  · rename_i n _
    have time := h.onTime fun b => b.pass n
    exact time.trans (time.sits.judgeMissing o)
  · exact .refl h

theorem Sits.edge (h : Sits s) (o : TickOrder) : Onward s (s.edge o) := by
  have time := h.onTime fun b => { b with openPeriod := some 0, missingTimer := 0, lastPeriod := b.openPeriod.or b.lastPeriod }
  unfold State.edge
  dsimp only
  split
  · exact time
  · exact time.trans (Sits.ite (fun _ => time.sits.judgeGood o) fun _ => time.sits.judgeBad o)

theorem Sits.edgeAt (h : Sits s) (phase : Nat) (o : TickOrder) : Onward s (s.edgeAt phase o) := by
  have time := h.onTime fun b => b.pass (min phase (Config.clocksPerTick - 1) - b.prescaler)
  have missed := time.trans (time.sits.missingTest o)
  exact missed.trans (missed.sits.edge o)

theorem Sits.changePin (h : Sits s) : Onward s s.changePin := h.aside (.changePin s)

theorem Sits.tickTail (h : Sits s) (n : Nat) (o : TickOrder) : Onward s (s.tickTail n o) := by
  unfold State.tickTail
  dsimp only
  exact Sits.ite (fun _ => h.secondTickWith o n fun t g => Sits.ite (fun _ => g.changePin) fun _ => .refl g) fun _ =>
    Sits.ite (fun _ => h.changePin) fun _ => .refl h

end Sys2Proof.Machine
end

section
/-! PROOF. The desks', the stations' and the lines' events keep the laws of the roster (R64 to R70, R76 to R90, R95, R96, R124
to R132). -/

namespace Sys2Proof.Machine

set_option Elab.async false

variable {s t u : State} {c k i : Nat} {e e' : Entry}

/-! ## Presences -/

theorem Quiet.onLine (s : State) (l : Nat) (f : Line → Line) : Quiet s (s.onLine l f) :=
  ⟨fun _ => rfl, fun _ => rfl, fun _ => rfl⟩

theorem Quiet.deskGone (s : State) (i : Nat) : Quiet s (s.deskGone i) := by
  unfold State.deskGone
  split
  · rename_i k _
    exact (Quiet.onSeat s i (f := fun r => { r with lost := some k }) fun _ => rfl).trans (.onEntry _ k fun _ => rfl)
  · exact .refl s

theorem Quiet.deskFound (s : State) (i : Nat) : Quiet s (s.deskFound i) := by
  unfold State.deskFound
  cases (s.seat i).lost with
  | none => dsimp only; split <;> exact .onLine s _ _
  | some k =>
    dsimp only
    have told := Quiet.onEntry s k (f := fun e => { e with deskLost := false }) fun _ => rfl
    have found := told.trans (.onSeat _ i (f := fun r => { r with lost := none }) fun _ => rfl)
    refine found.trans ?_
    split <;> exact .onLine _ _ _

theorem Quiet.setPresence (s : State) (l a : Nat) (p : Presence) : Quiet s (s.setPresence l a p) := by
  unfold State.setPresence
  dsimp only
  refine (Quiet.onLine s l fun n => n.onAddr a fun r => r.become p).trans ?_
  split
  · exact .refl _
  · exact .ite (fun _ => .deskFound _ _) fun _ => .ite (fun _ => .deskGone _ _) fun _ => .refl _

theorem Quiet.raiseLossBy (s : State) (l : Nat) (x : Exchange) : Quiet s (s.raiseLossBy l x) := .of_moves (.raiseLossBy s l x)

theorem Quiet.countMiss (s : State) (l : Nat) (x : Exchange) (h : Heard) : Quiet s (s.countMiss l x h) :=
  .ite (fun _ => .ite (fun _ => .onLine s l _) fun _ =>
    .ite (fun _ => (Quiet.raiseLossBy s l x).trans (.setPresence _ l _ _)) fun _ => .onLine s l _) fun _ => .refl s

theorem Quiet.takeSweep (s : State) (l a : Nat) (h : Heard) : Quiet s (s.takeSweep l a h) :=
  .ite (fun _ => .setPresence s l a _) fun _ =>
    (Quiet.ite (fun _ => Quiet.notify s _) fun _ => .refl s).trans (.setPresence _ l a _)

theorem Quiet.takeDiscovery (s : State) (l a : Nat) (h : Heard) : Quiet s (s.takeDiscovery l a h) :=
  .ite (fun _ => (Quiet.setPresence s l a _).trans (.notify _ _)) fun _ => .refl s

theorem Quiet.takeTest (s : State) (l a i : Nat) (h : Heard) : Quiet s (s.takeTest l a i h) :=
  .ite (fun _ => .ite (fun _ => .onLine s l _) fun _ => (Quiet.onLine s l _).trans (.setPresence _ l a _)) fun _ => .refl s

/-! ## A candidate takes a seat -/

/-- A candidate takes a seat that is its own or nobody's, and gives up the one it had. -/
theorem SeatsTied.sit {x : Bool} (h : SeatsTied s) (found : s.entry k = some e)
    (entry : ∀ j, t.entry j = if k = j then some e' else s.entry j) (own : e'.seat = some i) (sits : e'.state.sits = some x)
    (target : (t.seat i).occ.taken = some (k, x))
    (others : ∀ j, j ≠ i → (t.seat j).occ.taken = if e.seat = some j then none else (s.seat j).occ.taken)
    (fresh : e.seat = some i ∨ (s.seat i).occ.taken = none) : SeatsTied t := by
  have here : t.entry k = some e' := (entry k).trans (if_pos rfl)
  refine h.move k (fun j other => (entry j).trans (if_neg other.symm)) (fun f at_ => ?_) (fun m y j z sitting taken => ?_)
    fun m => ?_
  · obtain rfl := Option.some.inj (here.symm.trans at_)
    rw [own, sits]; simp
  · rw [State.sitting_of here, own] at sitting
    split at sitting
    · rename_i same
      obtain rfl := Option.some.inj same
      rcases fresh with had | free
      · obtain ⟨z', -, taken'⟩ := h.seat_of found had
        simpa using (Option.some.inj (taken.symm.trans taken')) |> congrArg Prod.fst
      · rw [free] at taken; cases taken
    · cases sitting
  · rw [State.sitting_of here, own]
    by_cases same : i = m
    · subst same; rw [if_pos rfl, sits]; exact target
    · rw [if_neg fun x => same (Option.some.inj x), others m fun x => same x.symm, State.sitting_of found]
      dsimp only
      by_cases had : e.seat = some m
      · obtain ⟨y, sits', -⟩ := h.seat_of found had
        simp [had, sits']
      · simp [had]

theorem State.activeLookup_found {id : Nat} (rises : mapRises 0 s.roster = true) (found : s.activeLookup id = some (k, e)) :
    s.entry k = some e ∧ (s.chan e.channel).state.isActive = true := by
  have mem := List.mem_of_find?_eq_some found
  have holds := List.find?_some found
  simp only [Bool.and_eq_true] at holds
  exact ⟨mapGet_of_mem rises mem, holds.2⟩

/-! ## Taps and keys -/

/-- An ALLOCATED candidate's channel admits it to its seat: OPEN, READING, or WRITING before admission has closed. -/
theorem Channel.allows_tapped {r : Channel} {e : Entry} (i : Nat) (allocated : e.state = .allocated)
    (allowed : r.allows e.state = true) : r.allows (e.tapped i r).state = true := by
  rw [allocated] at allowed
  revert allowed
  unfold Channel.allows Entry.tapped
  dsimp only
  cases r.state <;> cases r.closed <;> simp

theorem Sits.seatCandidate (h : Sits s) (found : s.entry k = some e) (allocated : e.state = .allocated)
    (own : e.seat = some i) : Onward s (s.seatCandidate i k e) := by
  obtain ⟨w, eq, -, entry, seat, -, m⟩ := s.seatCandidate_eq i k e
  have sits : (e.tapped i (s.chan e.channel)).state.sits = some true := by
    unfold Entry.tapped
    dsimp only
    split <;> rfl
  have tied : SeatsTied w := h.tied.sit found entry (i := i) rfl sits (by rw [seat, if_pos rfl]; rfl)
    (fun j other => by
      rw [seat, if_neg fun x => other x.symm, if_neg fun x => other (Option.some.inj (x.symm.trans own))]) (.inl own)
  have taken := h.slot m tied found entry rfl rfl (fun x => by rw [allocated] at x; cases x)
    (Channel.allows_tapped i allocated (h.allows k e found)) fun d => by rw [m.frame.chan]
  rw [eq]
  have marked := taken.trans (taken.sits.aside (.setMark _ i))
  exact marked.trans (marked.sits.aside (.noteSeat _ i _))

theorem Sits.takeTap (h : Sits s) (i id : Nat) : Onward s (s.takeTap i id) := by
  have note := fun c => h.aside (.noteSeat s i c)
  have wrong := fun j => h.aside (.wrongSeat s i j)
  unfold State.takeTap
  split
  · exact note _
  · rename_i k e found
    obtain ⟨at_, -⟩ := State.activeLookup_found h.rises found
    split
    · exact note _
    · rename_i allocated
      exact Sits.ite (fun own => h.seatCandidate at_ allocated own) fun _ => wrong _
    · exact Sits.ite (fun _ => h.aside (.setMark s i)) fun _ => wrong _
    · exact Sits.ite (fun _ => h.aside (.setMark s i)) fun _ => wrong _
    · exact Sits.ite (fun _ => h.aside (.setMark s i)) fun _ => wrong _
    · exact note _
    · exact note _
    · exact note _
    · exact note _
    · exact note _

/-- Who sits under an OCCUPIED seat. -/
theorem SeatsTied.occupant (h : SeatsTied s) (occ : (s.seat i).occ = .occupied k) (found : s.entry k = some e) :
    e.state.isSeated = true := by
  obtain ⟨e', at_, -, sits⟩ := h.entry_of (i := i) (k := k) (x := true) (by rw [occ]; rfl)
  obtain rfl := Option.some.inj (found.symm.trans at_)
  revert sits
  cases e.state <;> simp [EntryState.sits, EntryState.isSeated]

theorem Sits.pressFinish (h : Sits s) (i : Nat) : Onward s (s.pressFinish i) := by
  unfold State.pressFinish
  split
  · rename_i k occ
    split
    · rename_i e found
      split
      · exact h.aside (.noteSeat s i _)
      · rename_i free
        have seated := h.tied.occupant occ found
        refine h.depart found ?_ _
        unfold State.finishBar at free
        dsimp only at free
        split at free
        · cases free
        · rename_i other
          revert seated other
          cases e.state <;> simp [EntryState.isSeated, EntryState.isWriting]
    · exact .refl h
  · exact h.aside (.closingNote s i)
  · exact .refl h

theorem Entry.isWriting_broken (e : Entry) : e.broken.state.isWriting = true := by
  unfold Entry.broken
  split <;> rfl

theorem Channel.allows_writing {r : Channel} (running : r.state = .writing ∨ r.state = .overtime) {x : EntryState}
    (writes : x.isWriting = true) : r.allows x = true := by
  unfold Channel.allows
  rcases running with state | state <;> rcases EntryState.isWriting_cases writes with eq | eq <;> rw [state, eq] <;>
    cases r.closed <;> rfl

/-- A candidate goes on break, or comes back (R65). -/
theorem Sits.putBroken (h : Sits s) (found : s.entry k = some e) (writes : e.state.isWriting = true) :
    Onward s (s.putEntry k e.broken) := by
  have keeps : e.broken.id = e.id ∧ e.broken.channel = e.channel ∧ e.broken.seat = e.seat := by
    unfold Entry.broken; split <;> exact ⟨rfl, rfl, rfl⟩
  have sits : e.broken.state.sits = e.state.sits := by
    unfold Entry.broken
    rcases EntryState.isWriting_cases writes with x | x <;> rw [x] <;> rfl
  have put := h.onEntry found (f := fun _ => e.broken) keeps sits (fun x => by rw [x] at writes; cases writes)
    (Channel.allows_writing (Channel.writes_of_allows (h.allows k e found) writes) e.isWriting_broken)
  rwa [State.onEntry, found] at put

theorem Sits.takeBreak (h : Sits s) (found : s.entry k = some e) : Onward s (s.takeBreak i k e) := by
  have turn := fun writes => h.putBroken found writes
  unfold State.takeBreak
  split
  · rename_i state
    refine Sits.ite (fun _ => ?_) fun _ => h.aside (.noteSeat s i _)
    have broken := turn (by rw [state]; rfl)
    rw [Entry.broken, if_pos state] at broken
    exact broken.trans (broken.sits.aside (.setMark _ i))
  · rename_i state
    have broken := turn (by rw [state]; rfl)
    rw [Entry.broken, if_neg (by rw [state]; decide)] at broken
    exact broken.trans (broken.sits.aside (.setMark _ i))
  · exact h.aside (.noteSeat s i _)
  · exact .refl h

theorem Sits.pressBreak (h : Sits s) (i : Nat) : Onward s (s.pressBreak i) := by
  unfold State.pressBreak
  split
  · split
    · rename_i found
      exact h.takeBreak found
    · exact .refl h
  · exact h.aside (.closingNote s i)
  · exact .refl h

theorem Sits.deskEvent (h : Sits s) (i : Nat) (x : DeskEvent) : Onward s (s.deskEvent i x) := by
  unfold State.deskEvent
  split
  · exact h.takeTap i _
  · exact h.pressFinish i
  · exact h.pressBreak i
  · exact h.aside (.notify s _)
  · exact .refl h

/-! ## Stations -/

theorem State.eligible_free (h : s.eligible i = true) : (s.seat i).occ = .free := by
  simp only [State.eligible, Bool.and_eq_true, decide_eq_true_eq] at h
  exact h.2

/-- The seat that a search picks is one of those it goes through. -/
theorem State.mem_of_pick {moved : Bool} {order : List Nat} {f : Found} (h : s.pick c moved order = some f) :
    f.seat ∈ order := by
  unfold State.pick at h
  split at h
  · rename_i i found
    obtain rfl := Option.some.inj h
    exact List.mem_of_find?_eq_some found
  · split at h
    · obtain ⟨i, first, rfl⟩ := Option.map_eq_some_iff.mp h
      exact List.mem_of_mem_head? (by simp [first])
    · cases h

theorem State.eligible_of_order (h : i ∈ s.searchOrder e) : s.eligible i = true := by
  unfold State.searchOrder at h
  split at h
  · exact ((s.mem_accessibleSeats i).mp h).1
  · obtain ⟨p, -, found⟩ := List.mem_filterMap.mp h
    have := (Option.filter_eq_some_iff.mp found).2
    simp only [Bool.and_eq_true] at this
    exact this.1

/-- The seat that a search finds is FREE (R80). -/
theorem State.search_free {f : Found} (h : s.search e = some f) : (s.seat f.seat).occ = .free := by
  unfold State.search at h
  dsimp only at h
  split at h
  · split at h
    · rename_i eligible
      obtain rfl := Option.some.inj h
      exact State.eligible_free eligible
    · exact State.eligible_free (State.eligible_of_order (State.mem_of_pick h))
  · exact State.eligible_free (State.eligible_of_order (State.mem_of_pick h))

theorem Channel.allows_allocated {r : Channel} (admits : r.admitting = true) : r.allows .allocated = true := by
  revert admits
  unfold Channel.admitting Channel.allows
  cases r.state <;> cases r.closed <;> simp

/-- A check-in allocates the seat found (R78). -/
theorem Sits.admitCandidate {f : Found} (h : Sits s) (a b : Nat) (found : s.entry k = some e) (expected : e.state = .expected)
    (admits : (s.chan e.channel).admitting = true) (free : (s.seat f.seat).occ = .free) :
    Onward s (s.admitCandidate a k e b f) := by
  obtain ⟨v, eq, -, seat, entry, -, m⟩ := s.admitCandidate_eq a k e b f
  have away : e.seat = none := (h.tied.placed k e found).mpr (by rw [expected]; rfl)
  have tied : SeatsTied v := h.tied.sit found entry (i := f.seat) (x := false) rfl rfl (by rw [seat, if_pos rfl]; rfl)
    (fun j other => by rw [seat, if_neg fun x => other x.symm, away, if_neg nofun]) (.inr (by rw [free]; rfl))
  have admitted := h.slot m tied found entry rfl rfl (fun x => by rw [expected] at x; cases x)
    (Channel.allows_allocated admits) fun d => by rw [m.frame.chan]
  rw [eq]
  exact admitted.trans (admitted.sits.aside ((Moves.queueNote v 6 a _).next (.queueNote _ _ _ _)))

theorem Sits.takeCheckin (h : Sits s) (a id b : Nat) : Onward s (s.takeCheckin a id b) := by
  have note := fun c => h.aside (.noteStation s a c)
  unfold State.takeCheckin
  refine Sits.ite (fun _ => note _) fun _ => Sits.ite (fun _ => note _) fun _ => ?_
  split
  · exact note _
  · rename_i k e found
    obtain ⟨at_, -⟩ := State.activeLookup_found h.rises found
    refine Sits.ite (fun _ => note _) fun expected => Sits.ite (fun _ => note _) fun admits => ?_
    split
    · exact note _
    · split
      · exact note _
      · rename_i f given
        exact h.admitCandidate a b at_ (by simpa using expected) (by simpa using admits) (State.search_free given)

theorem Quiet.issueNew (s : State) (k : Nat) (e : Entry) (b : Nat) : Quiet s (s.issueNew k e b) :=
  .ite (fun _ => .refl s) fun _ =>
    (Quiet.onEntry s k (f := fun e => { e with booklets := e.booklets ++ [b] }) fun _ => rfl).trans
      ⟨fun _ => rfl, fun _ => rfl, fun _ => rfl⟩

theorem Sits.takeIssue (h : Sits s) (a id b : Nat) : Onward s (s.takeIssue a id b) := by
  have note := fun c => h.aside (.noteStation s a c)
  unfold State.takeIssue
  refine Sits.ite (fun _ => note _) fun _ => ?_
  split
  · exact note _
  · rename_i k e _
    refine Sits.ite (fun _ => note _) fun _ => ?_
    split
    · exact note _
    · have issued := h.quiet (.issueNew s k e b) (.issueNew s k e b)
      exact issued.trans (issued.sits.aside (.noteStation _ a _))

theorem Sits.acceptReturn (h : Sits s) (k b : Nat) : Onward s (s.acceptReturn k b) := by
  rw [State.acceptReturn_eq]
  have handed := h.aside (.handedIn s k b)
  exact handed.trans (handed.sits.collectTest k)

theorem Sits.takeReturn (h : Sits s) (a b : Nat) : Onward s (s.takeReturn a b) := by
  have note := fun c => h.aside (.noteStation s a c)
  unfold State.takeReturn
  refine Sits.ite (fun _ => note _) fun _ => ?_
  split
  · exact note _
  · rename_i r _
    refine Sits.ite (fun _ => ?_) fun _ => ?_
    · have counted := h.aside (.countDuplicate s)
      exact counted.trans (counted.sits.aside (.noteStation _ a _))
    · dsimp only
      refine Sits.ite (fun _ => note _) fun _ => Sits.ite (fun _ => note _) fun _ => ?_
      have returned := h.acceptReturn r.owner b
      exact returned.trans (returned.sits.aside (.noteStation _ a _))

theorem Sits.stationEvent (h : Sits s) (a : Nat) (x : DeskEvent) : Onward s (s.stationEvent a x) := by
  unfold State.stationEvent
  split
  · exact h.takeCheckin a _ _
  · exact h.takeIssue a _ _
  · exact h.takeReturn a _
  · exact .refl h
  · exact h.aside (.noteStation s a _)

/-! ## The ends of exchanges -/

theorem Sits.handOn (h : Sits s) (l a : Nat) (x : Heard) : Onward s (s.handOn l a x) := by
  unfold State.handOn
  split
  · split
    · exact h.deskEvent _ _
    · exact h.stationEvent a _
  · exact .refl h

theorem Sits.takeOutcome (h : Sits s) (l : Nat) (x : Exchange) (heard : Heard) (flight : (s.line l).exchange = some x) :
    Onward s (s.takeOutcome l x heard) := by
  have m := Moves.takeOutcome s l x heard flight
  have ends : Quiet s (s.onLine l fun n => { n with exchange := none, stats := n.stats.hear heard }) := .onLine s l _
  have counts := ends.trans (.countMiss _ l x heard)
  unfold State.takeOutcome at m ⊢
  dsimp only at m ⊢
  split at m
  · have counted := h.quiet (l := [.presence, .seats, .roster, .flags, .notices]) (((Moves.endFlight s l heard).widen).next
      (.countMiss _ l x heard)) counts
    exact counted.trans (counted.sits.handOn l x.addr heard)
  · exact h.quiet m ((ends.trans (.onLine _ l _)).trans (.countMiss _ l x heard))
  · exact h.quiet m counts
  · exact h.quiet m (.ite (fun _ => .ite (fun _ => counts.trans (.takeSweep _ l _ heard)) fun _ =>
      counts.trans (.takeDiscovery _ l _ heard)) fun _ => counts)
  · exact h.quiet m (counts.trans (.takeTest _ l _ _ heard))
  · exact h.quiet m ends

theorem Sits.endExchange (h : Sits s) (l : Nat) (x : Exchange) (heard : Heard) (flight : (s.line l).exchange = some x) :
    Onward s (s.endExchange l x heard) := by
  have taken := h.takeOutcome l x heard flight
  exact taken.trans (taken.sits.aside (.startTest _ l))

theorem Sits.lineReply (h : Sits s) (l : Nat) (bytes : List Byte) : Onward s (s.lineReply l bytes) := by
  unfold State.lineReply
  split
  · rename_i flight
    exact Sits.ite (fun _ => h.endExchange l _ _ flight) fun _ => .refl h
  · exact .refl h

theorem Sits.windowClose (h : Sits s) (l : Nat) : Onward s (s.windowClose l) := by
  unfold State.windowClose
  split
  · rename_i flight
    exact Sits.ite (fun _ => h.endExchange l _ _ flight) fun _ => .refl h
  · exact .refl h

end Sys2Proof.Machine
end

section
/-! PROOF. The requests of the office keep the laws of the roster (R7, R13 to R17, R34 to R39, R46 to R53, R69, R92, R153). -/

namespace Sys2Proof.Machine

set_option Elab.async false

variable {s t u : State} {c k i : Nat} {e e' : Entry}

/-! ## Writes, entry by entry -/

theorem Sits.unless {x : Option Code} (h : Sits s) (accepted : x = none → Onward s t) : Onward s (s.unless x t).state := by
  cases x with
  | none => exact accepted rfl
  | some _ => exact .refl h

theorem Sits.writeEach {α : Type} {check : State → Nat → α → Option Code} {put : State → Nat → α → State}
    (h : Sits s) (lo hi first : Nat) (ws : List α)
    (each : ∀ t i w, Sits t → check t i w = none → Onward t (put t i w)) :
    Onward s (s.writeEach lo hi first ws check put).state := by
  unfold State.writeEach
  split
  · exact .refl h
  · have kept := foldl_invariant (fun acc : State × Option Code => Onward s acc.1) (stepEntry check put)
      (fun acc p g => by
        unfold stepEntry
        split
        · exact g
        · split
          · exact g
          · rename_i passes
            exact g.trans (each _ _ _ g.sits passes)) (indexed first ws) (s, none) (.refl h)
    split
    · exact .refl h
    · rename_i eq
      rw [eq] at kept
      exact kept

theorem Sits.writeAll {α : Type} {check : Nat → α → Option Code} {put : State → Nat → α → State} (h : Sits s)
    (lo hi first : Nat) (ws : List α) (each : ∀ t i w, Sits t → Onward t (put t i w)) :
    Onward s (s.writeAll lo hi first ws check put).state := by
  unfold State.writeAll
  split
  · exact .refl h
  · exact h.fold (f := fun t (p : Nat × α) => put t p.1 p.2) (fun t p g => each t p.1 p.2 g) _

theorem Sits.putSeat (h : Sits s) (i : Nat) (w : SeatWrite) : Onward s (s.putSeat i w) := by
  have writes : Quiet s (s.onSeat i fun r => r.write w) := .onSeat s i fun _ => rfl
  exact h.quiet (.putSeat s i w) (.ite (fun _ => writes) fun _ => writes.trans (.onLine _ _ _))

theorem Channel.phase_write (r : Channel) (w : ChannelWrite) : (r.write w).phase = r.phase := by
  unfold Channel.write
  split <;> rfl

theorem Channel.phase_putKeys (ws : List (Nat × KeyWrite)) (r : Channel) :
    (ws.foldl (fun c p => c.putKey (p.1 % 200) p.2.entry) r).phase = r.phase :=
  foldl_invariant (fun c : Channel => c.phase = r.phase) _ (fun c p g => by
    refine Eq.trans ?_ g
    unfold Channel.putKey
    split <;> rfl) ws r rfl

/-! ## Roster slots freed and written -/

theorem State.taken_freeSlot (rises : mapRises 0 s.seats = true) (k i : Nat) :
    ((s.freeSlot k).seat i).occ.taken = (s.seat i).occ.taken := by
  have seat : (s.freeSlot k).seat i = if (s.seat i).lost = some k then { s.seat i with lost := none } else s.seat i :=
    tabGet_tabMap rises (f := fun r : Seat => if r.lost = some k then { r with lost := none } else r) rfl i
  rw [seat]
  split <;> rfl

/-- A slot is freed whose candidate has no seat (R17). -/
theorem SeatsTied.freeSlot (h : SeatsTied s) (canonical : s.canonical = true)
    (gone : ∀ e, s.entry k = some e → e.state.sits = none) : SeatsTied (s.freeSlot k) := by
  have seat := State.taken_freeSlot (s := s) (State.seats_rises canonical) k
  cases found : s.entry k with
  | none =>
    refine h.same (fun j => ?_) seat
    rw [State.entry_freeSlot]
    split
    · subst_vars; rw [found]
    · rfl
  | some e =>
    have away := (h.placed k e found).mpr (gone e found)
    refine h.leave found (fun j other => by rw [State.entry_freeSlot, if_neg other.symm])
      (fun e' x => by rw [State.entry_freeSlot, if_pos rfl] at x; cases x) fun i => ?_
    rw [seat, away, if_neg nofun]

/-- An operation that leaves entries as they are or frees their slots. -/
theorem Sits.thinned (h : Sits s) (canonical : t.canonical = true) (tied : SeatsTied t)
    (entry : ∀ k e, t.entry k = some e → s.entry k = some e)
    (allows : ∀ k e, t.entry k = some e → (t.chan e.channel).phase = (s.chan e.channel).phase)
    (shutLate : ∀ d, (t.chan d).shutLate) : Sits t where
  canonical := canonical
  tied := tied
  allows k e found := by rw [Channel.allows_congr (allows k e found)]; exact h.allows k e (entry k e found)
  shutLate := shutLate
  apart k e k' e' found found' other same := by
    obtain ⟨differ, apart⟩ := h.apart k e k' e' (entry k e found) (entry k' e' found') other same
    rw [(Channel.phase_eq (allows k e found)).1, (Channel.phase_eq (allows k' e' found')).1]
    exact ⟨differ, apart⟩

theorem Sits.freeSlot (h : Sits s) (waits : ∀ e, s.entry k = some e → e.state = .expected) : Onward s (s.freeSlot k) where
  sits := h.thinned ((Moves.freeSlot s k).canonical h.canonical)
    (h.tied.freeSlot h.canonical fun e found => by rw [waits e found]; rfl)
    (fun j e found => by
      rw [State.entry_freeSlot] at found
      split at found
      · cases found
      · exact found) (fun _ _ _ => rfl) h.shutLate
  collected j d x := by
    obtain ⟨e, found, own, state⟩ := (s.collectedIn_iff j d).mp x
    refine ((s.freeSlot k).collectedIn_iff j d).mpr ⟨e, ?_, own, state⟩
    rw [State.entry_freeSlot, if_neg]
    · exact found
    · rintro rfl
      rw [waits e found] at state
      cases state
  work := rfl
  records := rfl

/-- A free slot is put in use by a candidate that stands in no channel with this one (R12, R14, R15). -/
theorem Sits.enter (h : Sits s) (free : s.entry k = none) (expected : e.state = .expected) (away : e.seat = none)
    (takes : (s.chan e.channel).allows .expected = true)
    (apart : ∀ j f, s.entry j = some f → f.id = e.id → f.channel ≠ e.channel ∧
      ¬((s.chan e.channel).state.isActive = true ∧ (s.chan f.channel).state.isActive = true)) :
    Onward s (s.putEntry k e) where
  sits :=
    { canonical := (Moves.putEntry s k e).canonical h.canonical
      tied := h.tied.move k (fun j other => by rw [State.entry_putEntry, if_neg other.symm])
        (fun f found => by
          rw [State.entry_putEntry, if_pos rfl] at found
          obtain rfl := Option.some.inj found
          rw [away, expected]; simp [EntryState.sits])
        (fun i x j y sits => by
          rw [State.sitting_of (e := e) (by rw [State.entry_putEntry, if_pos rfl]), away, if_neg nofun] at sits
          cases sits)
        fun i => by
          rw [State.sitting_of (e := e) (by rw [State.entry_putEntry, if_pos rfl]), away, if_neg nofun]
          have none : s.sitting k i = .none := by simp [State.sitting, free]
          rw [none]; rfl
      allows := fun j f found => by
        rw [State.entry_putEntry] at found
        split at found
        · obtain rfl := Option.some.inj found
          rw [expected]; exact takes
        · exact h.allows j f found
      shutLate := h.shutLate
      apart := fun j f j' f' found found' other same => by
        rw [State.entry_putEntry] at found found'
        split at found <;> split at found'
        · subst_vars; exact absurd rfl other
        · obtain rfl := Option.some.inj found
          obtain ⟨differ, idle⟩ := apart j' f' found' same.symm
          exact ⟨differ.symm, idle⟩
        · obtain rfl := Option.some.inj found'
          obtain ⟨differ, idle⟩ := apart j f found same
          exact ⟨differ, fun x => idle x.symm⟩
        · exact h.apart j f j' f' found found' other same }
  collected j d x := by
    obtain ⟨f, found, own, state⟩ := (s.collectedIn_iff j d).mp x
    refine ((s.putEntry k e).collectedIn_iff j d).mpr ⟨f, ?_, own, state⟩
    rw [State.entry_putEntry, if_neg]
    · exact found
    · rintro rfl
      rw [free] at found; cases found
  work := rfl
  records := rfl

theorem State.slotBound_false (h : s.slotBound k = false) (found : s.entry k = some e) : e.state = .expected := by
  simp only [State.slotBound, found, Option.any_some, Bool.or_eq_false_iff, decide_eq_false_iff_not, ne_eq,
    Decidable.not_not] at h
  exact h.1.1

theorem Channel.allows_expected {r : Channel} (takes : r.takesEntries = true) : r.allows .expected = true := by
  revert takes
  unfold Channel.takesEntries Channel.admitting Channel.allows
  cases r.state <;> cases r.closed <;> simp

/-- A ROSTER entry that its checks pass (R13 to R15). -/
theorem Sits.putRoster {w : RosterWrite} (h : Sits s) (passes : s.rosterRefusal k w = none) : Onward s (s.putRoster k w) := by
  unfold State.rosterRefusal at passes
  split at passes
  · cases passes
  split at passes
  · cases passes
  rename_i bound
  have freed : Onward s (s.freeSlot k) := h.freeSlot fun e found => State.slotBound_false (by simpa using bound) found
  cases w with
  | free => exact freed
  | use id c n fixed =>
    dsimp only at passes
    split at passes
    · cases passes
    split at passes
    · cases passes
    split at passes
    · cases passes
    rename_i takes duplicates conflicts
    have admits : (s.chan c).takesEntries = true := by simpa using takes
    refine freed.trans (freed.sits.enter (e := .written0 id c n fixed) (by rw [State.entry_freeSlot, if_pos rfl]) rfl rfl
      (Channel.allows_expected admits) fun j f found same => ?_)
    rw [State.entry_freeSlot] at found
    split at found
    · cases found
    rename_i other
    have listed : (j, f) ∈ s.roster := mapGet_mem found
    simp only [State.duplicates, List.any_eq_true, Bool.and_eq_true, decide_eq_true_eq, not_exists, not_and] at duplicates
    have differ : f.channel ≠ c := duplicates (j, f) listed ⟨fun x => other x.symm, same⟩
    refine ⟨differ, fun both => conflicts ?_⟩
    simp only [State.conflicts, List.any_eq_true, Bool.and_eq_true, decide_eq_true_eq]
    exact ⟨both.1, (j, f), listed, ⟨⟨fun x => other x.symm, same⟩, differ⟩, both.2⟩

/-! ## Commands on a channel -/

/-- CHANNEL_LOAD of a FREE channel, which has no entries (R35). -/
theorem Sits.loadChannel (h : Sits s) (free : (s.chan c).state = .free) :
    Onward s ((s.onChan c Channel.atLoad).enterPhase c .loaded) := by
  have unused : ∀ k e, s.entry k = some e → e.channel ≠ c := fun k e found own => by
    have := h.allows k e found
    rw [own] at this
    unfold Channel.allows at this
    rw [free] at this
    cases this
  have m : Moves [.channels] s (s.onChan c Channel.atLoad) := .onChan s c _ fun _ => rfl
  have own : (s.onChan c Channel.atLoad).chan c = (s.chan c).atLoad := by rw [State.chan_onChan, if_pos rfl]
  have loads : Onward s (s.onChan c Channel.atLoad) := by
    refine h.confined (c := c) m (.onChan s c _) (h.tied.of_moves m) (fun d other => ?_) (fun k e found at_ => ?_) ?_ fun active => ?_
    · rw [State.chan_onChan, if_neg fun x => other x.symm]
    · exact absurd at_ (unused k e found)
    · rw [own]; exact fun x => by cases x
    · rw [own] at active; cases active
  refine loads.trans (loads.sits.enterPhase c .loaded (fun k e found at_ => absurd at_ (unused k e found)) ?_ nofun)
  rw [own]
  exact fun x => by cases x

theorem Sits.channelOpen (h : Sits s) (c : Nat) : Onward s (s.channelOpen c).state := by
  unfold State.channelOpen
  split
  · exact .refl h
  · split
    · exact .refl h
    · rename_i loaded
      split
      · exact .refl h
      · rename_i clear
        exact h.open_ (by simpa using loaded) clear

theorem Sits.channelStart (h : Sits s) (c : Nat) : Onward s (s.channelStart c).state := by
  refine h.unless fun accepted => h.startChannel ?_
  split at accepted
  · cases accepted
  · split at accepted
    · cases accepted
    · rename_i opened
      simpa using opened

theorem Sits.setHold (h : Sits s) (c : Nat) (x : Bool) : Onward s (s.setHold c x) := by
  have sets : Quiet s (s.onChan c fun ch => { ch with hold := x }) := .onChan s c fun _ => rfl
  exact h.quiet (.setHold s c x) (.ite (fun _ => sets.trans (.of_moves (.markEntries _ c _))) fun _ => sets)

theorem Sits.amendNow (h : Sits s) (c v : Nat) : Onward s (s.amendNow c v).state := by
  unfold State.amendNow
  split
  · exact .refl h
  · dsimp only
    split
    · exact .refl h
    · exact h.quiet (.amend s c _ _) (.amend s c _ _)

theorem Sits.amendAtMinute (h : Sits s) (c v : Nat) : Onward s (s.amendAtMinute c v).state := by
  unfold State.amendAtMinute
  split
  · exact .refl h
  · have put : Quiet s (s.onChan c fun ch => { ch with amendment := some ⟨amendLength v, ch.writeElapsed⟩ }) :=
      .onChan s c fun _ => rfl
    exact h.quiet (.onChan s c fun ch => { ch with amendment := some ⟨amendLength v, ch.writeElapsed⟩ }) put

/-- What CHANNEL_CLOSE makes of an entry (R52). -/
def Entry.closedOut (c : Nat) (e : Entry) : Entry :=
  if e.channel = c ∧ (decide (e.state = .finished) || decide (e.state = .timeUp)) = true then { e with state := .missing } else e

theorem Entry.closedOut_keeps (c : Nat) (e : Entry) : (e.closedOut c).id = e.id ∧ (e.closedOut c).channel = e.channel ∧
    (e.closedOut c).seat = e.seat ∧ (e.closedOut c).state.sits = e.state.sits ∧
    (e.state = .collected → (e.closedOut c).state = .collected) := by
  unfold Entry.closedOut
  split
  · rename_i stopped
    refine ⟨rfl, rfl, rfl, ?_, fun x => ?_⟩
    · have := stopped.2
      revert this
      cases e.state <;> simp [EntryState.sits]
    · rw [x] at stopped; exact absurd stopped.2 (by decide)
  · exact ⟨rfl, rfl, rfl, rfl, fun x => x⟩

theorem Entry.allows_closedOut {r : Channel} (e : Entry) (own : e.channel = c) (collecting : r.state = .collecting)
    (allowed : r.allows e.state = true) : ({ r with state := .reconciled } : Channel).allows (e.closedOut c).state = true := by
  have state : (e.closedOut c).state =
      if (decide (e.state = .finished) || decide (e.state = .timeUp)) = true then .missing else e.state := by
    simp only [Entry.closedOut, own, true_and]
    split <;> rfl
  unfold Channel.allows at allowed ⊢
  rw [collecting] at allowed
  rw [state]
  revert allowed
  cases e.state <;> simp

theorem State.entry_closedOut (rises : mapRises 0 s.roster = true) (c k : Nat) :
    (s.closeChannel c).entry k = (s.entry k).map (Entry.closedOut c) := by
  rw [State.closeChannel, (Moves.enterPhase _ c _).frame.entry]
  exact State.entry_slots rises c _ (fun t k j => State.entry_changed t k j _) k

/-- CHANNEL_CLOSE of a COLLECTING channel: what has not come in is MISSING (R52). -/
theorem Sits.closeChannel (h : Sits s) (collecting : (s.chan c).state = .collecting) : Onward s (s.closeChannel c) := by
  have entry := fun k => State.entry_closedOut h.rises c k
  have m := Moves.closeChannel s c
  have chan : ∀ d, (s.closeChannel c).chan d = if c = d then { s.chan c with state := .reconciled } else s.chan d := fun d => by
    have stands : ∀ x, ((s.slotsIn c fun st => decide (st = .finished) || decide (st = .timeUp)).foldl
        (fun t k => t.onEntry k fun e => { e with state := .missing }) s).chan x = s.chan x := fun x =>
      foldl_keeps (fun t : State => t.chan x) _ (fun t k => (Moves.onEntry t k _).frame.chan x) _ s
    rw [State.closeChannel, State.chan_enterPhase, stands, stands]
    rfl
  have back : ∀ k e', (s.closeChannel c).entry k = some e' → ∃ e, s.entry k = some e ∧ e' = e.closedOut c := fun k e' found => by
    rw [entry] at found
    obtain ⟨e, at_, eq⟩ := Option.map_eq_some_iff.mp found
    exact ⟨e, at_, eq.symm⟩
  refine h.onward m c (h.tied.same (fun k => ?_) fun i => ?_) (fun k => ?_) (fun k e e' found found' state => ?_)
    (fun d other => by rw [chan, if_neg fun x => other x.symm]) (fun k e' found => ?_) (fun _ => ?_) fun active => ?_
  · rw [entry, Option.map_map]
    congr 1
    funext e
    obtain ⟨-, -, seat, sits, -⟩ := e.closedOut_keeps c
    simp only [Function.comp_apply, seat, sits]
  · rw [m.frame.seat]
  · rw [entry, Option.map_map]
    congr 1
    funext e
    obtain ⟨id, channel, -⟩ := e.closedOut_keeps c
    simp only [Function.comp_apply, id, channel]
  · obtain ⟨f, at_, rfl⟩ := back k e' found'
    obtain rfl := Option.some.inj (at_.symm.trans found)
    exact (f.closedOut_keeps c).2.2.2.2 state
  · obtain ⟨e, at_, rfl⟩ := back k e' found
    have allowed := h.allows k e at_
    rw [(e.closedOut_keeps c).2.1, chan]
    split
    · rename_i own
      exact e.allows_closedOut own.symm collecting (own ▸ allowed)
    · rename_i own
      rw [Entry.closedOut, if_neg fun x => own x.1.symm]
      exact allowed
  · rw [chan, if_pos rfl]; simp
  · rw [chan, if_pos rfl] at active; cases active

theorem Sits.channelClose (h : Sits s) (c : Nat) : Onward s (s.channelClose c).state := by
  unfold State.channelClose
  split
  · exact .refl h
  · split
    · exact .refl h
    · rename_i collecting
      exact h.closeChannel (by simpa using collecting)

/-! ## Commands on a candidate -/

theorem Sits.candidateFinish (h : Sits s) (k : Nat) : Onward s (s.candidateFinish k).state := by
  refine h.unless fun accepted => ?_
  unfold State.finishRefusal at accepted
  split at accepted
  · cases accepted
  · split at accepted
    · cases accepted
    · rename_i found
      split at accepted
      · rename_i writes
        exact h.depart found writes _
      · cases accepted

theorem Seat.taken_left {r : Seat} {y : Bool} (taken : r.occ.taken = some (k, y)) (n : Nat) :
    (r.left k n).occ.taken = none := by
  cases occ : r.occ with
  | free => rw [occ] at taken; cases taken
  | clearing m => rw [occ] at taken; cases taken
  | held j m =>
    rw [Seat.occ_left_held (by
      rw [occ] at taken ⊢
      obtain rfl : j = k := congrArg Prod.fst (Option.some.inj taken)
      exact ⟨m, rfl⟩)]
    rfl
  | occupied j =>
    rw [occ] at taken
    obtain rfl : j = k := congrArg Prod.fst (Option.some.inj taken)
    rw [Seat.occ_left_occupied occ]
    split <;> rfl

theorem EntryState.sits_seated {x : EntryState} (seated : x = .allocated ∨ x.isSeated = true) :
    x.sits = some (decide (x ≠ .allocated)) := by
  revert seated
  cases x <;> simp [EntryState.isSeated, EntryState.sits]

/-- RESEAT moves a candidate from its seat to an eligible one (R93). -/
theorem Sits.moveTo (h : Sits s) (found : s.entry k = some e) (seated : e.state = .allocated ∨ e.state.isSeated = true)
    (free : (s.seat i).occ = .free) : Onward s (s.moveTo k i e) := by
  have sits := EntryState.sits_seated seated
  obtain ⟨j, own⟩ : ∃ j, e.seat = some j := by
    cases seat : e.seat with
    | none => rw [(h.tied.placed k e found).mp seat] at sits; cases sits
    | some j => exact ⟨j, rfl⟩
  obtain ⟨y, -, taken⟩ := h.tied.seat_of found own
  have apart : i ≠ j := fun x => by rw [← x, free] at taken; cases taken
  have m := Moves.moveTo s k i e
  have tied : SeatsTied (s.moveTo k i e) := by
    refine h.tied.sit found (State.entry_moveTo s found own) (i := i) rfl sits ?_ (fun d other => ?_) (.inr (by rw [free]; rfl))
    · rw [State.seat_moveTo s own apart, if_pos rfl]
      unfold Seat.target
      dsimp only
      by_cases allocated : e.state = .allocated <;> simp [allocated, Occupancy.taken]
    · rw [State.seat_moveTo s own apart, if_neg fun x => other x.symm, own]
      by_cases left : j = d
      · subst left
        rw [if_pos rfl, if_pos rfl]
        exact Seat.taken_left taken _
      · rw [if_neg left, if_neg fun x => left (Option.some.inj x)]
  exact h.slot m tied found (State.entry_moveTo s found own) rfl rfl id (h.allows k e found) fun d => by rw [m.frame.chan]

theorem Sits.reseat (h : Sits s) (k i : Nat) : Onward s (s.reseat k i).state := by
  unfold State.reseat
  split
  · exact .refl h
  · rename_i e accepted found
    unfold State.reseatRefusal at accepted
    split at accepted
    · cases accepted
    · rw [found] at accepted
      dsimp only at accepted
      split at accepted
      · rename_i seated
        split at accepted
        · rename_i eligible
          exact h.moveTo found seated (State.eligible_free eligible)
        · cases accepted
      · cases accepted
  · exact .refl h

end Sys2Proof.Machine
end

section
/-! PROOF. The laws of the sheet slots and of the results (R137, R142, R159, R171), and the operations of the sheet intake, the
marking unit and the teardown gate that keep them (R54, R136 to R145, R155, R156, R173). -/

namespace Sys2Proof.Machine

set_option Elab.async false

variable {s t u : State} {c k i n : Nat} {e e' : Entry} {m m' : Marking}

/-! ## The laws -/

/-- The slots stand in the states that the receiver, the arrival list and the marking unit call for (R137, R142). -/
structure Intake.Tied (t : Intake) : Prop where
  nodup : t.arrivals.Nodup
  waiting : ∀ n ∈ t.arrivals, (t.slot n).state = .waiting
  receiving : ∀ n, t.rx = .receiving n → (t.slot n).state = .receiving
  scoring : ∀ m, t.marking = some m → (t.slot m.slot).state = .scoring

theorem Intake.Tied.congr {t v : Intake} (h : t.Tied) (same : v.work = t.work) : v.Tied := by
  simp only [Intake.work, Prod.mk.injEq] at same
  obtain ⟨rx, slots, arrivals, marking⟩ := same
  have slot : ∀ n, v.slot n = t.slot n := fun n => by rw [Intake.slot, Intake.slot, slots]
  exact ⟨arrivals ▸ h.nodup, fun n x => by rw [slot]; exact h.waiting n (arrivals ▸ x),
    fun n x => by rw [slot]; exact h.receiving n (rx ▸ x), fun m x => by rw [slot]; exact h.scoring m (marking ▸ x)⟩

/-- A status that a score gives (R165). -/
def Status.scores (x : Status) : Bool := decide (x = .scored) || decide (x = .referred)

/-- A SCORED or REFERRED record refers to a COLLECTED entry (R171). -/
def State.bears (s : State) (r : ResultRecord) : Prop :=
  r.status.scores = true → ∃ k c, r.slot = some k ∧ r.channel = some c ∧ s.collectedIn k c = true

/-- The sheet in the marking unit has failed a check, or has not passed check 11, or has found a COLLECTED entry, of the
channel that its slot is resolved to (R159, R171). -/
structure State.Sound (s : State) (m : Marking) : Prop where
  failed : ∀ x, m.failed = some x → x.scores = false
  found : m.failed = none → 11 ≤ m.made → ∃ k c, m.entry = some k ∧ m.channel = some c ∧ s.collectedIn k c = true

/-- All the laws of the roster, of the sheet slots and of the results. -/
structure Lawful (s : State) : Prop extends Sits s where
  slots : s.intake.Tied
  records : ∀ r ∈ s.log.records, s.bears r
  sound : ∀ m, s.intake.marking = some m → s.Sound m
  resolved : ∀ m, s.intake.marking = some m → m.failed = none → 11 ≤ m.made →
    (s.intake.slot m.slot).resolved = m.channel

theorem State.bears.mono {r : ResultRecord} (h : s.bears r)
    (collected : ∀ k c, s.collectedIn k c = true → t.collectedIn k c = true) : t.bears r := fun x => by
  obtain ⟨k, c, slot, channel, stands⟩ := h x
  exact ⟨k, c, slot, channel, collected k c stands⟩

theorem State.Sound.mono (h : s.Sound m) (collected : ∀ k c, s.collectedIn k c = true → t.collectedIn k c = true) :
    t.Sound m where
  failed := h.failed
  found x y := by
    obtain ⟨k, c, entry, channel, stands⟩ := h.found x y
    exact ⟨k, c, entry, channel, collected k c stands⟩

/-- What keeps the laws of the roster and leaves sheets and records keeps all laws. -/
theorem Lawful.onward (h : Lawful s) (o : Onward s t) : Lawful t := by
  have same := o.work
  simp only [Intake.work, Prod.mk.injEq] at same
  obtain ⟨-, slots, -, marking⟩ := same
  have slot : ∀ n, t.intake.slot n = s.intake.slot n := fun n => by rw [Intake.slot, Intake.slot, slots]
  exact {
    toSits := o.sits
    slots := h.slots.congr o.work
    records := fun r listed => (h.records r (o.records ▸ listed)).mono o.collected
    sound := fun m x => (h.sound m (marking ▸ x)).mono o.collected
    resolved := fun m x y z => by rw [slot]; exact h.resolved m (marking ▸ x) y z }

/-- What the sheet intake does alone. -/
theorem Lawful.onIntake (h : Lawful s) {f : Intake → Intake}
    (canonical : canon Slot.blank s.intake.slots = true → canon Slot.blank (f s.intake).slots = true)
    (slots : (f s.intake).Tied) (sound : ∀ m, (f s.intake).marking = some m → s.Sound m)
    (resolved : ∀ m, (f s.intake).marking = some m → m.failed = none → 11 ≤ m.made →
      ((f s.intake).slot m.slot).resolved = m.channel) : Lawful (s.onIntake f) where
  canonical := (Moves.onIntake s f canonical).canonical h.canonical
  tied := ⟨h.tied.taken, h.tied.placed⟩
  allows := h.allows
  shutLate := h.shutLate
  apart := h.apart
  slots := slots
  records := h.records
  sound := fun m x => ⟨(sound m x).failed, (sound m x).found⟩
  resolved := resolved

/-- What the sheet intake does with the sheet in the marking unit left as it is. -/
theorem Lawful.onIntake_kept (h : Lawful s) {f : Intake → Intake}
    (canonical : canon Slot.blank s.intake.slots = true → canon Slot.blank (f s.intake).slots = true)
    (slots : (f s.intake).Tied) (marking : (f s.intake).marking = s.intake.marking)
    (resolved : ∀ m, s.intake.marking = some m → ((f s.intake).slot m.slot).resolved = (s.intake.slot m.slot).resolved) :
    Lawful (s.onIntake f) :=
  h.onIntake canonical slots (fun m x => h.sound m (marking ▸ x)) fun m x y z =>
    (resolved m (marking ▸ x)).trans (h.resolved m (marking ▸ x) y z)

/-! ## Teardown -/

theorem State.entry_of_freeChannel (rises : mapRises 0 s.roster = true) (found : (s.freeChannel c).entry k = some e) :
    s.entry k = some e ∧ e.channel ≠ c := by
  rw [State.entry_freeChannel rises] at found
  split at found
  · cases found
  · rename_i other
    refine ⟨found, fun own => other ?_⟩
    rw [State.slotsOf_eq]
    exact (State.mem_slotsIn rises).mpr ⟨e, found, own, rfl⟩

theorem SeatsTied.freeChannel (h : Sits s) (gone : ∀ k e, s.entry k = some e → e.channel = c → e.state.sits = none) :
    SeatsTied (s.freeChannel c) := by
  have freed : State.canonical ((s.slotsOf c).foldl State.freeSlot s) = true ∧ SeatsTied ((s.slotsOf c).foldl State.freeSlot s) ∧
      ∀ k e, ((s.slotsOf c).foldl State.freeSlot s).entry k = some e → s.entry k = some e := by
    rw [State.slotsOf_eq]
    refine foldl_slots (P := fun t => t.canonical = true ∧ SeatsTied t ∧ ∀ k e, t.entry k = some e → s.entry k = some e)
      h.rises c _ (fun t k j apart => by rw [State.entry_freeSlot, if_neg apart.symm]) ⟨h.canonical, h.tied, fun _ _ x => x⟩
      fun t k e kept found own _ => ?_
    obtain ⟨canonical, tied, from'⟩ := kept
    refine ⟨(Moves.freeSlot t k).canonical canonical, tied.freeSlot canonical fun f x => ?_, fun j f x => ?_⟩
    · obtain rfl := Option.some.inj (found.symm.trans x)
      exact gone k e (from' k e found) own
    · rw [State.entry_freeSlot] at x
      split at x
      · cases x
      · exact from' j f x
  have notice := (Moves.notify (State.onChan ((s.slotsOf c).foldl State.freeSlot s) c Channel.freed)
    (.teardownDone c s.time.hallTime)).frame
  exact freed.2.1.same (fun k => by rw [State.freeChannel, notice.entry]; rfl) fun i => by
    rw [State.freeChannel, notice.seat]; rfl

/-- A channel freed, no candidate of which has a seat (R55). -/
theorem Sits.freeChannel (h : Sits s) (gone : ∀ k e, s.entry k = some e → e.channel = c → e.state.sits = none) :
    Sits (s.freeChannel c) := by
  have back {k : Nat} {e : Entry} (found : (s.freeChannel c).entry k = some e) := State.entry_of_freeChannel h.rises found
  refine h.thinned ((Moves.freeChannel s c).canonical h.canonical) (.freeChannel h gone) (fun k e found => (back found).1)
    (fun k e found => ?_) fun d => ?_
  · rw [State.chan_freeChannel, if_neg (back found).2.symm]
  · rw [State.chan_freeChannel]
    split
    · exact nofun
    · exact h.shutLate d

theorem State.collectedIn_freeChannel {d : Nat} (rises : mapRises 0 s.roster = true) (other : d ≠ c)
    (stands : s.collectedIn k d = true) : (s.freeChannel c).collectedIn k d = true := by
  obtain ⟨e, found, own, state⟩ := (s.collectedIn_iff k d).mp stands
  refine ((s.freeChannel c).collectedIn_iff k d).mpr ⟨e, ?_, own, state⟩
  rw [State.entry_freeChannel rises, if_neg, found]
  rw [State.slotsOf_eq, State.mem_slotsIn rises]
  rintro ⟨f, found', own', -⟩
  obtain rfl := Option.some.inj (found.symm.trans found')
  exact other (own.symm.trans own')

theorem State.work_freeChannel (s : State) (c : Nat) : (s.freeChannel c).intake.work = s.intake.work :=
  Intake.work_of_same ((Moves.freeChannel s c).frame.2 _ (by decide))

theorem State.log_freeChannel (s : State) (c : Nat) : (s.freeChannel c).log = s.log :=
  (Moves.freeChannel s c).frame.2 .log (by decide)

theorem Intake.slot_of_work {t v : Intake} (same : v.work = t.work) (n : Nat) : v.slot n = t.slot n := by
  simp only [Intake.work, Prod.mk.injEq] at same
  rw [Intake.slot, Intake.slot, same.2.1]

theorem Intake.marking_of_work {t v : Intake} (same : v.work = t.work) : v.marking = t.marking :=
  congrArg (fun x => x.2.2.2) same

/-- A channel freed to which neither a result nor the sheet in the marking unit refers (R54, R171). -/
theorem Lawful.freeChannel (h : Lawful s) (gone : ∀ k e, s.entry k = some e → e.channel = c → e.state.sits = none)
    (results : ∀ r ∈ s.log.records, r.status.scores = true → r.channel ≠ some c)
    (sheet : ∀ m, s.intake.marking = some m → m.failed = none → 11 ≤ m.made → m.channel ≠ some c) :
    Lawful (s.freeChannel c) where
  toSits := h.toSits.freeChannel gone
  slots := h.slots.congr (s.work_freeChannel c)
  records r listed scores := by
    rw [State.log_freeChannel] at listed
    obtain ⟨k, d, slot, channel, stands⟩ := h.records r listed scores
    refine ⟨k, d, slot, channel, State.collectedIn_freeChannel h.rises (fun own => ?_) stands⟩
    exact results r listed scores (own ▸ channel)
  sound m x := by
    rw [Intake.marking_of_work (s.work_freeChannel c)] at x
    refine ⟨(h.sound m x).failed, fun working made => ?_⟩
    obtain ⟨k, d, entry, channel, stands⟩ := (h.sound m x).found working made
    refine ⟨k, d, entry, channel, State.collectedIn_freeChannel h.rises (fun own => ?_) stands⟩
    exact sheet m x working made (own ▸ channel)
  resolved m x y z := by
    rw [Intake.marking_of_work (s.work_freeChannel c)] at x
    rw [Intake.slot_of_work (s.work_freeChannel c)]
    exact h.resolved m x y z

/-- The SCORING sheet stands in the table of the slots. -/
theorem Lawful.scoringResolved (h : Lawful s) (marking : s.intake.marking = some m) (working : m.failed = none)
    (made : 11 ≤ m.made) (channel : m.channel = some c) : s.scoringResolved c = true := by
  have scoring := h.slots.scoring m marking
  have resolved := (h.resolved m marking working made).trans channel
  unfold Intake.slot tabGet at scoring resolved
  cases found : mapGet s.intake.slots m.slot with
  | none => rw [found] at scoring; cases scoring
  | some r =>
    rw [found] at scoring resolved
    exact List.any_eq_true.mpr ⟨(m.slot, r), mapGet_mem found, by
      simp only [Bool.and_eq_true, decide_eq_true_eq]; exact ⟨scoring, resolved⟩⟩

theorem Lawful.testGate (h : Lawful s) (c : Nat) : Lawful (s.testGate c) := by
  unfold State.testGate
  split
  · rename_i opens
    obtain ⟨releasing, gate⟩ := opens
    obtain ⟨records, sheets⟩ := (s.gateOpen_eq c).mp gate
    refine h.freeChannel (fun k e found own => ?_) (fun r listed _ => records r listed) fun m marking working made channel => ?_
    · have allowed := h.allows k e found
      unfold Channel.allows at allowed
      rw [own, releasing] at allowed
      cases state : e.state <;> rw [state] at allowed <;> simp at allowed <;> rfl
    · rw [h.scoringResolved marking working made channel] at sheets
      cases sheets
  · exact h

theorem Lawful.testGates (h : Lawful s) : Lawful s.testGates :=
  foldl_invariant Lawful State.testGate (fun _ c h => h.testGate c) channelNumbers s h

/-- An entry of a LOADED channel waits for its candidate. -/
theorem Sits.expected_of_loaded (h : Sits s) (found : s.entry k = some e) (loaded : (s.chan e.channel).state = .loaded) :
    e.state = .expected := by
  have allowed := h.allows k e found
  unfold Channel.allows at allowed
  rw [loaded] at allowed
  exact of_decide_eq_true allowed

theorem Sits.collected_of_loaded (h : Sits s) (loaded : (s.chan c).state = .loaded) (k : Nat) : s.collectedIn k c = false := by
  refine Bool.eq_false_iff.mpr fun stands => ?_
  obtain ⟨e, found, own, state⟩ := (s.collectedIn_iff k c).mp stands
  rw [h.expected_of_loaded found (own ▸ loaded)] at state
  cases state

theorem Lawful.freeLoaded (h : Lawful s) (loaded : (s.chan c).state = .loaded) : Lawful (s.freeChannel c) := by
  refine h.freeChannel (fun k e found own => ?_) (fun r listed scores own => ?_) fun m marking working made own => ?_
  · rw [h.expected_of_loaded found (own ▸ loaded)]; rfl
  · obtain ⟨k, d, -, channel, stands⟩ := h.records r listed scores
    obtain rfl := Option.some.inj (own.symm.trans channel)
    rw [h.collected_of_loaded loaded] at stands
    cases stands
  · obtain ⟨k, d, -, channel, stands⟩ := (h.sound m marking).found working made
    obtain rfl := Option.some.inj (own.symm.trans channel)
    rw [h.collected_of_loaded loaded] at stands
    cases stands

/-- A RECONCILED channel becomes RELEASING (R53). -/
theorem Sits.release (h : Sits s) (reconciled : (s.chan c).state = .reconciled) : Onward s (s.enterPhase c .releasing) := by
  refine h.enterPhase c .releasing (fun k e found own => ?_) (fun _ => by simp) nofun
  have allowed := h.allows k e found
  unfold Channel.allows at allowed ⊢
  rw [own, reconciled] at allowed
  exact allowed

theorem Lawful.channelTeardown (h : Lawful s) (c : Nat) : Lawful (s.channelTeardown c).state := by
  unfold State.channelTeardown
  split
  · exact h
  · split
    · exact h.freeLoaded ‹_›
    · exact (h.onward (h.toSits.release ‹_›)).testGate c
    · exact h

/-- What the log does alone. -/
theorem Lawful.onLog (h : Lawful s) {f : ResultLog → ResultLog} (records : ∀ r ∈ (f s.log).records, s.bears r) :
    Lawful (s.onLog f) where
  canonical := (Moves.onLog s f).canonical h.canonical
  tied := ⟨h.tied.taken, h.tied.placed⟩
  allows := h.allows
  shutLate := h.shutLate
  apart := h.apart
  slots := h.slots
  records := records
  sound := fun m x => ⟨(h.sound m x).failed, (h.sound m x).found⟩
  resolved := h.resolved

theorem Lawful.releaseResults (h : Lawful s) (upto : Nat) : Lawful (s.releaseResults upto).state := by
  have released := (h.onLog (f := fun g => g.release upto) fun r listed =>
    h.records r (List.mem_of_mem_filter listed)).testGates
  rw [State.releaseResults_state]
  exact released

end Sys2Proof.Machine
end

section
/-! PROOF. The sheet intake and the marking unit keep the laws of the slots and of the results (R136 to R145, R155, R156, R159,
R171). -/

namespace Sys2Proof.Machine

set_option Elab.async false

variable {s t u : State} {c k i n reach : Nat} {e e' : Entry} {m m' : Marking} {r : ResultRecord} {z : Slot} {x : Status}

/-- The slots stand as they stood, and receiver, arrivals and marking unit name none that they did not name. -/
theorem Intake.Tied.next {t v : Intake} (h : t.Tied) (state : ∀ n, (v.slot n).state = (t.slot n).state)
    (arrivals : v.arrivals = t.arrivals) (rx : ∀ n, v.rx = .receiving n → t.rx = .receiving n)
    (marking : ∀ m, v.marking = some m → ∃ m', t.marking = some m' ∧ m.slot = m'.slot) : v.Tied where
  nodup := arrivals ▸ h.nodup
  waiting n x := by rw [state]; exact h.waiting n (arrivals ▸ x)
  receiving n x := by rw [state]; exact h.receiving n (rx n x)
  scoring m x := by
    obtain ⟨m', was, same⟩ := marking m x
    rw [state, same]; exact h.scoring m' was

/-- Two slots in different states are two slots. -/
theorem Intake.slots_apart {t : Intake} {n j : Nat} {x y : SlotState} (one : (t.slot n).state = x)
    (two : (t.slot j).state = y) (differ : x ≠ y := by nofun) : n ≠ j := fun same => by
  rw [same] at one
  exact differ (one.symm.trans two)

/-! ## The checks -/

/-- No check fails with a status that a score gives. -/
theorem State.failure_scores (fails : s.makeCheck z m i = .inr x) : (s.failure x).scores = false := by
  have plain : x.scores = false := by
    unfold State.makeCheck at fails
    split at fails <;> (repeat' split at fails) <;> cases fails <;> rfl
  unfold State.failure
  split
  · exact plain
  · rfl

/-- From check 9 on the entry found stands, and at check 11 it is COLLECTED. -/
theorem State.makeCheck_entry (h : 10 ≤ i) (check : s.makeCheck z m i = .inl m') :
    m'.entry = m.entry ∧ m'.channel = m.channel := by
  unfold State.makeCheck at check
  split at check
  iterate 9 · omega
  all_goals repeat' split at check
  all_goals cases check
  all_goals exact ⟨rfl, rfl⟩

theorem State.makeCheck_collects (check : s.makeCheck z m 11 = .inl m') :
    ∃ k c, m.entry = some k ∧ m.channel = some c ∧ s.collectedIn k c = true := by
  simp only [State.makeCheck] at check
  split at check
  · rename_i stands
    obtain ⟨e, marked, collected⟩ := (Option.any_eq_true _ _).mp stands
    simp only [Bool.and_eq_true, decide_eq_true_eq] at collected
    obtain ⟨k, entry, found⟩ := Option.bind_eq_some_iff.mp marked
    exact ⟨k, _, entry, collected.2, (s.collectedIn_iff k _).mpr ⟨_, found, rfl, collected.1⟩⟩
  · cases check

/-- Each check keeps what the results rest on (R159, R171). -/
theorem State.Sound.nextCheck (h : s.Sound m) (z : Slot) (reach i : Nat) : s.Sound (s.nextCheck z reach m i) := by
  unfold State.nextCheck
  split
  · exact h
  · rename_i due
    simp only [not_or, not_and, Decidable.not_not, Option.not_isSome_iff_eq_none] at due
    obtain ⟨working, made, -⟩ := due
    split
    · rename_i m' passes
      obtain ⟨failed, -⟩ := State.makeCheck_keeps passes
      refine ⟨fun x y => ?_, fun _ late => ?_⟩
      · cases working.symm.trans (failed.symm.trans y)
      · have stands : ∃ k c, m.entry = some k ∧ m.channel = some c ∧ s.collectedIn k c = true := by
          rcases Nat.lt_or_ge 11 i with later | now
          · exact h.found working (by omega)
          · obtain rfl : i = 11 := Nat.le_antisymm now late
            exact State.makeCheck_collects passes
        obtain ⟨entry, channel⟩ := State.makeCheck_entry (by dsimp only at late; omega) passes
        dsimp only
        rw [entry, channel]
        exact stands
    · rename_i x fails
      refine ⟨fun y same => ?_, nofun⟩
      obtain rfl := Option.some.inj same
      exact State.failure_scores fails

theorem State.nextCheck_slot (s : State) (z : Slot) (reach : Nat) (m : Marking) (i : Nat) :
    (s.nextCheck z reach m i).slot = m.slot := by
  unfold State.nextCheck
  split
  · rfl
  · split
    · rename_i passes; exact (State.makeCheck_keeps passes).2.1
    · rfl

theorem State.checked_slot (s : State) (reach : Nat) (m : Marking) : (s.checked reach m).slot = m.slot :=
  foldl_keeps Marking.slot _ (s.nextCheck_slot _ reach) _ m

theorem State.Sound.checked (h : s.Sound m) (reach : Nat) : s.Sound (s.checked reach m) :=
  foldl_invariant s.Sound _ (fun _ i h => h.nextCheck _ reach i) _ m h

theorem Lawful.advance (h : Lawful s) (reach : Nat) : Lawful (s.advance reach) := by
  cases marking : s.intake.marking with
  | none => rw [State.advance_of_idle marking]; exact h
  | some m =>
    rw [State.advance_of_working marking]
    have sound := (h.sound m marking).checked reach
    have slot := s.checked_slot reach m
    generalize s.checked reach m = q at sound slot
    have after := Intake.slot_onSlot s.intake m.slot (f := fun r => { r with resolved := q.channel })
    refine h.onIntake (fun canonical => ?_) (h.slots.next (fun n => ?_) rfl (fun _ x => x) fun m' x => ?_) (fun m' x => ?_)
      fun m' x _ _ => ?_
    · dsimp only; exact Intake.canon_onSlot _ _ canonical
    · refine (congrArg Slot.state (after n)).trans ?_
      split
      · rename_i same; rw [same]
      · rfl
    · obtain rfl := Option.some.inj x
      exact ⟨m, marking, slot⟩
    · obtain rfl := Option.some.inj x
      exact sound
    · obtain rfl := Option.some.inj x
      exact (congrArg Slot.resolved (after q.slot)).trans (by rw [if_pos slot.symm])

/-! ## The completion -/

theorem Intake.Tied.take {t : Intake} (h : t.Tied) (fs : PMap Form) : (t.take fs).Tied := by
  unfold Intake.take
  split
  · rename_i n rest idle arrivals
    have listed : ∀ j ∈ rest, j ∈ t.arrivals := fun j x => arrivals ▸ List.mem_cons_of_mem _ x
    have distinct : n ∉ rest ∧ rest.Nodup := List.nodup_cons.mp (arrivals ▸ h.nodup)
    have waits : (t.slot n).state = .waiting := h.waiting n (arrivals ▸ List.mem_cons_self)
    have after := Intake.slot_onSlot t n (f := fun r => { r with state := .scoring })
    refine ⟨distinct.2, fun j x => ?_, fun j x => ?_, fun m x => ?_⟩
    · refine (congrArg Slot.state (after j)).trans ?_
      rw [if_neg fun same : n = j => distinct.1 (same ▸ x)]
      exact h.waiting j (listed j x)
    · have receiving := h.receiving j x
      refine (congrArg Slot.state (after j)).trans ?_
      rw [if_neg (Intake.slots_apart waits receiving)]
      exact receiving
    · obtain rfl := Option.some.inj x
      exact (congrArg Slot.state (after n)).trans (by rw [if_pos rfl])
  · exact h

/-- The sheet in the marking unit after a take, and its slot. -/
theorem Intake.marking_take {t : Intake} {fs : PMap Form} (x : (t.take fs).marking = some m) :
    (t.marking = some m ∧ ∀ n, (t.take fs).slot n = t.slot n) ∨ m.failed = none ∧ m.made = 0 := by
  unfold Intake.take at x ⊢
  split at x
  · obtain rfl := Option.some.inj x
    exact .inr ⟨rfl, rfl⟩
  · exact .inl ⟨x, fun _ => rfl⟩

theorem Lawful.takeSheet (h : Lawful s) : Lawful s.takeSheet := by
  refine h.onIntake (f := fun t => t.take s.forms) (Intake.canon_take _) (h.slots.take _) (fun m x => ?_) fun m x y z => ?_
  · rcases Intake.marking_take x with ⟨was, -⟩ | ⟨working, made⟩
    · exact h.sound m was
    · refine ⟨fun y z => ?_, fun _ late => absurd late (by omega)⟩
      cases working.symm.trans z
  · rcases Intake.marking_take x with ⟨was, slot⟩ | ⟨-, made⟩
    · rw [slot]; exact h.resolved m was y z
    · omega

/-- What the laws do not read may change. -/
theorem Lawful.quiet {l : List Part} (h : Lawful s) (moves : Moves l s t) (q : Quiet s t) (h1 : .intake ∉ l := by decide)
    (h2 : .log ∉ l := by decide) : Lawful t := h.onward (h.toSits.quiet moves q h1 h2)

theorem Quiet.setResult (s : State) (m : Marking) (x : Status) : Quiet s (s.setResult m x) := by
  unfold State.setResult
  split
  · exact .onEntry s _ fun _ => rfl
  · exact .onEntry s _ fun _ => rfl
  · exact .refl s

theorem Quiet.countBand (s : State) (r : ResultRecord) : Quiet s (s.countBand r) := by
  unfold State.countBand
  split
  · exact .onChan s _ fun _ => rfl
  · exact .refl s

theorem Quiet.beginCommit (s : State) (c : Nat) : Quiet s (s.beginCommit c) :=
  .ite (fun _ => .onChan s c fun _ => rfl) fun _ => .refl s

theorem Lawful.setResult (h : Lawful s) (m : Marking) (x : Status) : Lawful (s.setResult m x) :=
  h.quiet (.setResult s m x) (.setResult s m x)

theorem Lawful.notify (h : Lawful s) (x : Subject) : Lawful (s.notify x) := h.quiet (.notify s x) (.notify s x)

theorem Lawful.beginCommit (h : Lawful s) (c : Nat) : Lawful (s.beginCommit c) :=
  h.quiet (.beginCommit s c) (.beginCommit s c)

theorem Lawful.placeRecord (h : Lawful s) (bears : s.bears r) : Lawful (s.placeRecord r) := by
  have placed : Lawful (s.onLog fun g => g.place r s.time.hallTime) := h.onLog fun q listed => by
    rcases List.mem_append.mp listed with old | new
    · exact h.records q old
    · rw [List.mem_singleton.mp new]; exact bears
  have counted := placed.quiet (.countBand _ r) (.countBand _ r)
  unfold State.placeRecord State.highTest
  split
  · exact counted.notify _
  · exact counted

theorem Lawful.logSheet (h : Lawful s) (bears : s.bears r) : Lawful (s.logSheet r) := by
  unfold State.logSheet State.fullReject
  split
  · split
    · exact (h.onLog (f := fun g => { g with armed := false }) h.records).notify _
    · exact h
  · exact h.placeRecord bears

/-- The record of a sheet whose checks have ended rests on what the checks found (R159, R171). -/
theorem State.bears_recordOf (sound : s.Sound m) (done : m.failed.isSome = true ∨ m.made = 14) (z : Slot) (late : Bool) :
    s.bears (s.recordOf z m (s.outcome z m) late) := fun scores => by
  cases failed : m.failed with
  | some x =>
    have plain := sound.failed x failed
    simp only [State.recordOf, State.outcome, failed] at scores
    rw [plain] at scores
    cases scores
  | none =>
    have made : m.made = 14 := done.resolve_left (by simp [failed])
    exact sound.found failed (by omega)

theorem Intake.Tied.vacated {t : Intake} (h : t.Tied) (marking : t.marking = some m) (sheet : Nat) (late : Bool) (x : Status) :
    (t.vacated m.slot sheet late x).Tied := by
  have scoring := h.scoring m marking
  have after := Intake.slot_onSlot t m.slot (f := fun _ => Slot.blank)
  refine ⟨h.nodup, fun n listed => ?_, fun n receives => ?_, nofun⟩
  · have waits := h.waiting n listed
    refine (congrArg Slot.state (after n)).trans ?_
    rw [if_neg (Intake.slots_apart scoring waits)]
    exact waits
  · have receiving := h.receiving n receives
    refine (congrArg Slot.state (after n)).trans ?_
    rw [if_neg (Intake.slots_apart scoring receiving)]
    exact receiving

theorem Lawful.entered (h : Lawful s) (marking : s.intake.marking = some m) (done : m.failed.isSome = true ∨ m.made = 14) :
    Lawful (s.entered m) := by
  unfold State.entered
  dsimp only
  refine (h.setResult m _).logSheet ?_
  exact (State.bears_recordOf (h.sound m marking) done _ _).mono
    (h.toSits.quiet (.setResult s m _) (.setResult s m _)).collected

theorem Lawful.completeSheet (h : Lawful s) (marking : s.intake.marking = some m)
    (done : m.failed.isSome = true ∨ m.made = 14) : Lawful (s.completeSheet m) := by
  have entered := h.entered marking done
  have marking' : (s.entered m).intake.marking = some m := by rw [State.intake_entered]; exact marking
  have vacated : Lawful (s.vacated m) := by
    unfold State.vacated
    dsimp only
    have emptied (sheet : Nat) (late : Bool) (x : Status) :
        Lawful ((s.entered m).onIntake fun t => t.vacated m.slot sheet late x) :=
      entered.onIntake (fun x => by unfold Intake.vacated; dsimp only; exact Intake.canon_onSlot _ _ x) (entered.slots.vacated marking' sheet late x)
        nofun nofun
    split
    · exact (emptied _ _ _).beginCommit _
    · exact emptied _ _ _
  rw [State.completeSheet_eq]
  exact vacated.testGates.takeSheet

theorem Lawful.complete (h : Lawful s) : Lawful s.complete := by
  have advanced := h.advance 14
  unfold State.complete
  generalize s.advance 14 = t at advanced
  dsimp only
  split
  · split
    · exact advanced.completeSheet ‹_› ‹_›
    · exact advanced
  · exact advanced

/-! ## Key commits -/

theorem Channel.phase_commit (r : Channel) : r.commit.phase = r.phase := by
  unfold Channel.commit
  split <;> rfl

theorem Lawful.resumeSheet (h : Lawful s) (c : Nat) : Lawful (s.resumeSheet c) := by
  unfold State.resumeSheet
  split
  · split
    · exact h.advance 14
    · exact h
  · exact h

theorem Lawful.endCommit (h : Lawful s) (c : Nat) : Lawful (s.endCommit c) :=
  (h.quiet (.onChan s c _ Channel.canonical_commit) (.onChan s c Channel.phase_commit)).resumeSheet c

theorem Lawful.tickCommit (h : Lawful s) (c : Nat) : Lawful (s.tickCommit c) := by
  unfold State.tickCommit
  split
  · rename_i j _
    have counted : Lawful (s.onChan c fun r => { r with stage := .running (j + 1) }) :=
      h.quiet (.onChan s c _) (.onChan s c fun _ => rfl)
    dsimp only
    split
    · exact counted.endCommit c
    · exact counted
  · exact h

theorem Lawful.tickCommits (h : Lawful s) : Lawful s.tickCommits :=
  foldl_invariant Lawful State.tickCommit (fun _ c h => h.tickCommit c) channelNumbers s h

/-! ## The intake -/

theorem Lawful.sheetStart (h : Lawful s) : Lawful s.sheetStart := by
  unfold State.sheetStart
  split
  · split
    · rename_i n found
      have empty : (s.intake.slot n).state = .empty := by
        split at found
        · exact Intake.emptySlot_some found
        · cases found
      have after := Intake.slot_onSlot s.intake n (f := fun _ => { Slot.blank with state := .receiving })
      refine h.onIntake (fun x => by dsimp only; exact Intake.canon_onSlot _ _ x) ⟨h.slots.nodup, fun j x => ?_, fun j x => ?_, fun m x => ?_⟩
        (fun m x => h.sound m x) fun m x y z => ?_
      · have waits := h.slots.waiting j x
        refine (congrArg Slot.state (after j)).trans ?_
        rw [if_neg (Intake.slots_apart empty waits)]; exact waits
      · obtain rfl := SheetRx.receiving.inj x
        exact (congrArg Slot.state (after n)).trans (by rw [if_pos rfl])
      · have scoring := h.slots.scoring m x
        refine (congrArg Slot.state (after m.slot)).trans ?_
        rw [if_neg (Intake.slots_apart empty scoring)]; exact scoring
      · refine (congrArg Slot.resolved (after m.slot)).trans ?_
        rw [if_neg (Intake.slots_apart empty (h.slots.scoring m x))]
        exact h.resolved m x y z
    · exact h.onIntake_kept (fun x => x) (h.slots.next (fun _ => rfl) rfl nofun fun m x => ⟨m, x, rfl⟩) rfl fun _ _ => rfl
  · exact h

theorem Intake.slot_frameEnded_other (t : Intake) {j : Nat} (d : Nat) (bytes : List Byte) (good : Bool) (other : n ≠ j) :
    (t.frameEnded n d bytes good).slot j = t.slot j := by
  simp [Intake.frameEnded, Intake.slot, Intake.onSlot, other]

theorem Intake.Tied.frameEnded {t : Intake} (h : t.Tied) (rx : t.rx = .receiving n) (d : Nat) (bytes : List Byte)
    (good : Bool) : (t.frameEnded n d bytes good).Tied := by
  have receiving := h.receiving n rx
  have after (j : Nat) := Intake.slot_frameEnded_other t (n := n) (j := j) d bytes good
  have fresh : n ∉ t.arrivals := fun listed => Intake.slots_apart receiving (h.waiting n listed) nofun rfl
  refine ⟨List.nodup_append.mpr ⟨h.nodup, List.nodup_singleton n, fun a x b y same => ?_⟩, fun j x => ?_, nofun, fun m x => ?_⟩
  · obtain rfl := List.mem_singleton.mp y
    exact fresh (same ▸ x)
  · rcases List.mem_append.mp x with old | new
    · rw [after j (Intake.slots_apart receiving (h.waiting j old))]; exact h.waiting j old
    · obtain rfl := List.mem_singleton.mp new
      rw [Intake.slot_frameEnded]
  · rw [after m.slot (Intake.slots_apart receiving (h.scoring m x))]; exact h.scoring m x

theorem Lawful.endFrame (h : Lawful s) (rx : s.intake.rx = .receiving n) (bytes : List Byte) (good : Bool) :
    Lawful (s.endFrame n bytes good) := by
  have ended : Lawful (s.onIntake fun t => t.frameEnded n s.hall.verdictDeadline bytes good) :=
    h.onIntake_kept (fun x => by unfold Intake.frameEnded; dsimp only; exact Intake.canon_onSlot _ _ x)
      (h.slots.frameEnded rx _ bytes good) rfl fun m x =>
      congrArg Slot.resolved (Intake.slot_frameEnded_other _ _ _ _
        (Intake.slots_apart (h.slots.receiving n rx) (h.slots.scoring m x)))
  rw [State.endFrame_eq]
  dsimp only
  split
  · exact (ended.notify _).takeSheet
  · exact ended.takeSheet

/-- The receiver or the verdict queue alone changes. -/
theorem Lawful.port (h : Lawful s) {f : Intake → Intake} (slots : (f s.intake).slots = s.intake.slots)
    (arrivals : (f s.intake).arrivals = s.intake.arrivals) (marking : (f s.intake).marking = s.intake.marking)
    (rx : ∀ n, (f s.intake).rx = .receiving n → s.intake.rx = .receiving n) : Lawful (s.onIntake f) := by
  have slot : ∀ n, (f s.intake).slot n = s.intake.slot n := fun n => by rw [Intake.slot, Intake.slot, slots]
  exact h.onIntake_kept (fun x => by rw [slots]; exact x)
    (h.slots.next (fun n => by rw [slot]) arrivals rx fun m x => ⟨m, marking ▸ x, rfl⟩) marking fun m _ => by rw [slot]

theorem Intake.work_offered (t : Intake) (offer : Bool) (sheet : Nat) :
    (if offer then t.offerOverrun sheet else t).work = t.work := by
  unfold Intake.offerOverrun
  split
  · split <;> rfl
  · rfl

theorem Lawful.endOverrun (h : Lawful s) (bytes : List Byte) : Lawful (s.endOverrun bytes) := by
  unfold State.endOverrun
  split
  · rename_i offer _
    have same := s.intake.work_offered offer (overrunSheet bytes)
    simp only [Intake.work, Prod.mk.injEq] at same
    obtain ⟨-, slots, arrivals, marking⟩ := same
    refine Lawful.notify (h.port ?_ ?_ ?_ ?_) _
    · exact slots
    · exact arrivals
    · exact marking
    · exact nofun
  · exact h

theorem Lawful.endAbandoned (h : Lawful s) : Lawful s.endAbandoned := by
  unfold State.endAbandoned
  split
  · exact h.port rfl rfl rfl nofun
  · exact h

theorem Lawful.sheetEnd (h : Lawful s) (bytes : List Byte) : Lawful (s.sheetEnd bytes) := by
  unfold State.sheetEnd
  split
  · split
    · exact h.endFrame ‹_› bytes _
    · exact h.endOverrun bytes
    · exact h.endAbandoned
    · exact h
  · exact h

theorem Lawful.sheetGap (h : Lawful s) (bytes : List Byte) : Lawful (s.sheetGap bytes) := by
  unfold State.sheetGap
  split
  · exact h.endFrame ‹_› bytes _
  · exact h.endOverrun bytes
  · exact h.endAbandoned
  · exact h

theorem Lawful.sheetQuiet (h : Lawful s) : Lawful s.sheetQuiet := by
  unfold State.sheetQuiet
  split
  · exact h.port rfl rfl rfl nofun
  · exact h

theorem Lawful.sent (h : Lawful s) : Lawful (s.onIntake Intake.sent) := by
  refine h.port (Intake.sent_slots _) ?_ ?_ fun n x => ?_
  · unfold Intake.sent; split <;> rfl
  · unfold Intake.sent; split <;> rfl
  · unfold Intake.sent at x; split at x <;> exact x

/-- A 1 ms tick changes the ages of the slots alone (R137). -/
def Slot.aged (r : Slot) : Slot :=
  if r.state = .waiting ∨ r.state = .scoring then { r with age := satUp 65535 r.age } else r

theorem Slot.aged_keeps (r : Slot) : r.aged.state = r.state ∧ r.aged.resolved = r.resolved := by
  unfold Slot.aged
  split <;> exact ⟨rfl, rfl⟩

/-- What the laws read of the intake and its slots stands as it was. -/
structure Intake.Aged (t v : Intake) : Prop where
  arrivals : v.arrivals = t.arrivals
  rx : v.rx = t.rx
  marking : v.marking = t.marking
  state : ∀ n, (v.slot n).state = (t.slot n).state
  resolved : ∀ n, (v.slot n).resolved = (t.slot n).resolved

theorem Intake.Aged.next {t v : Intake} (h : t.Aged v) (j : Nat) : t.Aged (v.onSlot j Slot.aged) := by
  have keeps (n : Nat) : ((v.onSlot j Slot.aged).slot n).state = (v.slot n).state ∧
      ((v.onSlot j Slot.aged).slot n).resolved = (v.slot n).resolved := by
    rw [Intake.slot_onSlot]
    split
    · subst_vars; exact Slot.aged_keeps _
    · exact ⟨rfl, rfl⟩
  exact ⟨h.arrivals, h.rx, h.marking, fun n => (keeps n).1.trans (h.state n), fun n => (keeps n).2.trans (h.resolved n)⟩

theorem Intake.aged_tick (t : Intake) : t.Aged t.tick :=
  foldl_invariant t.Aged (fun v n => v.onSlot n Slot.aged) (fun _ j h => h.next j) slotNumbers t
    ⟨rfl, rfl, rfl, fun _ => rfl, fun _ => rfl⟩

theorem Lawful.intakeTick (h : Lawful s) : Lawful (s.onIntake Intake.tick) := by
  have aged := s.intake.aged_tick
  exact h.onIntake_kept Intake.canon_tick
    (h.slots.next aged.state aged.arrivals (fun n x => aged.rx ▸ x) fun m x => ⟨m, aged.marking ▸ x, rfl⟩) aged.marking
    fun m _ => aged.resolved m.slot

end Sys2Proof.Machine
end

section
/-! PROOF. Every step keeps the laws of the roster, of the slots and of the results (R5, R11, R14, R15, R137, R142, R171). -/

namespace Sys2Proof.Machine

set_option Elab.async false

variable {s t u : State} {c k i n : Nat} {e : Entry}

/-! ## What the laws do not read -/

theorem Lawful.aside {l : List Part} (h : Lawful s) (m : Moves l s t) (h1 : .intake ∉ l := by decide)
    (h2 : .log ∉ l := by decide) (h3 : Part.roster ∉ l := by decide) (h4 : Part.seats ∉ l := by decide)
    (h5 : Part.channels ∉ l := by decide) : Lawful t := h.onward (h.toSits.aside m h1 h2 h3 h4 h5)

/-- Everything that the laws read stands as it was. -/
theorem Lawful.same (h : Lawful s) (canonical : t.canonical = true) (roster : t.roster = s.roster) (seats : t.seats = s.seats)
    (channels : t.channels = s.channels) (work : t.intake.work = s.intake.work)
    (records : t.log.records = s.log.records) : Lawful t := by
  have entry : ∀ k, t.entry k = s.entry k := fun k => by rw [State.entry, State.entry, roster]
  have seat : ∀ i, t.seat i = s.seat i := fun i => by rw [State.seat, State.seat, seats]
  have chan : ∀ c, t.chan c = s.chan c := fun c => by rw [State.chan, State.chan, channels]
  refine h.onward ⟨⟨canonical, h.tied.same (fun k => by rw [entry]) fun i => by rw [seat], fun k e found => ?_,
    fun c => by rw [chan]; exact h.shutLate c, fun k e k' e' found found' => ?_⟩, fun k c stands => ?_, work, records⟩
  · rw [chan]; exact h.allows k e (entry k ▸ found)
  · rw [chan, chan]; exact h.apart k e k' e' (entry k ▸ found) (entry k' ▸ found')
  · rw [State.collectedIn, entry]; exact stands

/-- With no candidate, no sheet and no record the laws ask nothing. -/
theorem Lawful.empty (canonical : s.canonical = true) (roster : s.roster = []) (seats : ∀ i, (s.seat i).occ.taken = none)
    (shutLate : ∀ c, (s.chan c).shutLate) (arrivals : s.intake.arrivals = []) (rx : ∀ n, s.intake.rx ≠ .receiving n)
    (marking : s.intake.marking = none) (records : s.log.records = []) : Lawful s := by
  have none : ∀ k, s.entry k = none := fun k => by rw [State.entry, roster]; rfl
  have absent {k : Nat} {e : Entry} (found : s.entry k = some e) : False := nomatch (none k).symm.trans found
  have idle {m : Marking} (x : s.intake.marking = some m) : False := nomatch marking.symm.trans x
  exact {
    canonical := canonical
    tied := ⟨fun i k x => by simp [seats, State.sitting, none], fun _ _ found => (absent found).elim⟩
    allows := fun _ _ found => (absent found).elim
    shutLate := shutLate
    apart := fun _ _ _ _ found => (absent found).elim
    slots := ⟨arrivals ▸ List.nodup_nil, fun n x => (by rw [arrivals] at x; cases x), fun n x => absurd x (rx n),
      fun _ x => (idle x).elim⟩
    records := fun r x => by rw [records] at x; cases x
    sound := fun _ x => (idle x).elim
    resolved := fun _ x => (idle x).elim }

/-! ## Seats that a count frees -/

theorem Sits.expire (h : Sits s) (occ : (s.seat i).occ = .held k n) : Onward s (s.expire i k) := by
  obtain ⟨e, found, own, sits⟩ := h.tied.entry_of (i := i) (k := k) (x := false) (by rw [occ]; rfl)
  have allowed := h.allows k e found
  rw [EntryState.sits_false sits] at allowed
  have entry := State.entry_expire s i k
  have seat (j : Nat) : ((s.expire i k).seat j).occ.taken = if e.seat = some j then none else (s.seat j).occ.taken := by
    rw [State.expire, State.seat_notify, State.seat_onEntry, State.seat_releaseHold, own]
    by_cases here : i = j
    · rw [if_pos here, if_pos (by rw [here])]; rfl
    · rw [if_neg here, if_neg (by simpa using here)]
  have phase : ∀ d, ((s.expire i k).chan d).phase = (s.chan d).phase := fun d => by rw [(Moves.expire s i k).frame.chan]
  have tied : SeatsTied (s.expire i k) := h.tied.leave found (fun j other => by rw [entry, if_neg other.symm])
    (fun e' after => by
      rw [entry, if_pos rfl, found] at after
      obtain rfl := Option.some.inj after
      exact ⟨rfl, rfl⟩) seat
  refine h.slot (.expire s i k) tied found (e' := e.expired) (fun j => ?_) rfl rfl
    (fun x => by rw [EntryState.sits_false sits] at x; cases x) ?_ phase
  · rw [entry]
    split
    · subst_vars; rw [found]; rfl
    · rfl
  · revert allowed
    unfold Channel.allows Entry.expired
    cases (s.chan e.channel).state <;> cases (s.chan e.channel).closed <;> simp

theorem Quiet.endClearing (occ : (s.seat i).occ = .clearing n) : Quiet s (s.endClearing i) where
  entry k := by rw [State.endClearing, State.entry_noteSeat, (Moves.freeSeat s i).frame.entry]
  phase d := by rw [State.endClearing, State.chan_noteSeat, (Moves.freeSeat s i).frame.chan]
  seat j := by
    rw [State.endClearing, State.seat_noteSeat, State.seat_freeSeat]
    split
    · rename_i own; rw [← own, occ]; rfl
    · rfl

/-! ## The resets -/

theorem Lawful.powerUp (s : State) : Lawful s.powerUp :=
  .empty ((FormKept.powerUp State.atPowerOn).canonical (by decide)) rfl (fun _ => rfl) (fun _ => nofun) rfl nofun rfl rfl

theorem Intake.rx_abandon (t : Intake) (n : Nat) : t.abandon.rx ≠ .receiving n := by
  unfold Intake.abandon SheetRx.abandon
  dsimp only
  split
  · exact nofun
  · exact nofun
  · rename_i plain _; exact plain n

theorem Lawful.resetSittings (h : Lawful s) : Lawful s.resetSittings.state := by
  have ended : Lawful s.endSittings := by
    refine .empty ((Moves.endSittings s).canonical h.canonical) rfl (fun i => ?_) (fun c => ?_) rfl s.intake.rx_abandon rfl rfl
    · rw [State.seat_endSittings h.canonical]; rfl
    · rw [State.chan_endSittings h.canonical]; exact nofun
  rw [State.resetSittings_state]
  exact ended.aside (Moves.fold (k := []) State.blankLine Moves.blankLine lineNumbers _)

/-! ## Requests -/

theorem Lawful.read (h : Lawful s) (t first n : Nat) : Lawful (s.read t first n).state := by
  unfold State.read
  split
  · exact h
  · dsimp only
    split
    · exact h
    · split
      · exact h
      · split
        · exact h
        · split
          · exact h.same h.canonical rfl rfl rfl rfl rfl
          · exact h

theorem Sits.putChannel (h : Sits s) (c : Nat) (w : ChannelWrite) : Onward s (s.putChannel c w) :=
  h.quiet (.putChannel s c w) (.onChan s c fun r => r.phase_write w)

theorem Quiet.unless {x : Option Code} (h : Quiet s t) : Quiet s (s.unless x t).state := by
  cases x with
  | none => exact h
  | some _ => exact .refl s

theorem Quiet.writeKeys (s : State) (first : Nat) (ws : List KeyWrite) : Quiet s (s.writeKeys first ws).state :=
  .unless (.onChan s _ fun r => Channel.phase_putKeys (indexed first ws) r)

theorem Sits.channelLoad (h : Sits s) (c : Nat) : Onward s (s.channelLoad c).state := by
  refine h.unless fun passes => h.loadChannel ?_
  split at passes
  · cases passes
  · unfold State.loadRefusal at passes
    dsimp only at passes
    split at passes
    · cases passes
    · rename_i free; exact Decidable.not_not.mp free

theorem Lawful.clearGroup (h : Lawful s) (g : Nat) : Lawful (s.clearGroup g) := by
  have canonical := (FormKept.clearGroup s g).canonical h.canonical
  refine h.same canonical ?_ ?_ ?_ ?_ ?_ <;> (unfold State.clearGroup; split <;> rfl)

theorem Lawful.readStats (h : Lawful s) (g : Nat) (clear : Bool) : Lawful (s.readStats g clear).state := by
  unfold State.readStats
  split
  · exact h
  · cases clear
    · exact h
    · exact h.clearGroup g

theorem State.Serves.lawful {a : Answer} (serves : s.Serves a) (h : Lawful s) : Lawful a.state := by
  cases serves with
  | refuse c => exact h
  | read t first n => exact h.read t first n
  | writeHall first ws => exact h.aside (Moves.writeHall s first ws)
  | writeSeats first ws => exact h.onward (h.toSits.writeAll _ _ first ws fun t i w x => x.putSeat i w)
  | writeStations first ws => exact h.aside (Moves.writeAll s _ _ first ws _ _ Moves.putStation)
  | writeRoster first ws => exact h.onward (h.toSits.writeEach _ _ first ws fun t i w x passes => x.putRoster passes)
  | writeChannels first ws =>
    exact h.onward (h.toSits.writeEach _ _ first ws fun t c w x _ => x.putChannel c w)
  | writeClasses first ws => exact h.aside (Moves.writeAll s _ _ first ws _ _ Moves.putClass)
  | writeForms first ws => exact h.aside (Moves.writeAll s _ _ first ws _ _ Moves.putForm)
  | writeProfiles first ws => exact h.aside (Moves.writeAll s _ _ first ws _ _ Moves.putProfile)
  | writeKeys first ws =>
    exact h.quiet (Moves.writeKeys s first ws) (.writeKeys s first ws)
  | writeMessages first ws => exact h.aside (Moves.writeAll s _ _ first ws _ _ Moves.putMessage)
  | writeSignals first ws => exact h.aside (Moves.writeAll s _ _ first ws _ _ Moves.putSignal)
  | status => exact h
  | readFlags => exact h.same h.canonical rfl rfl rfl rfl rfl
  | readStats g clear => exact h.readStats g clear
  | readResults start most => rw [State.readResults_state]; exact h
  | releaseResults upto => exact h.releaseResults upto
  | readHistogram c => rw [State.readHistogram_state]; exact h
  | deskMessage x m => exact h.aside (Moves.deskMessage s x m)
  | channelLoad c => exact h.onward (h.toSits.channelLoad c)
  | channelOpen c => exact h.onward (h.toSits.channelOpen c)
  | channelStart c => exact h.onward (h.toSits.channelStart c)
  | channelHold c x => exact h.onward (h.toSits.unless fun _ => h.toSits.setHold c x)
  | amendNow c v => exact h.onward (h.toSits.amendNow c v)
  | amendAtMinute c v => exact h.onward (h.toSits.amendAtMinute c v)
  | channelClose c => exact h.onward (h.toSits.channelClose c)
  | channelTeardown c => exact h.channelTeardown c
  | keyCommit c => exact h.quiet (Moves.unless _ (.onChan s c _)) (.unless (.onChan s c fun _ => rfl))
  | hallHold x => exact h.aside (Moves.changeHoldAnswer s x)
  | hallTimeSet v => exact h.aside (Moves.unless _ (.onTime s _))
  | reseat k i => exact h.onward (h.toSits.reseat k i)
  | candidateFinish k => exact h.onward (h.toSits.candidateFinish k)
  | deskClear l a => exact h.aside (Moves.deskClear s l a)
  | lineQuiet l => exact h.aside (Moves.lineQuiet s l)
  | lineWake l => exact h.aside (Moves.unless _ (.goWaking s l))
  | lineTest l => exact h.aside (Moves.unless _ (.goTesting s l))
  | lineReset l => exact h.aside (Moves.unless _ (.restartLine s l))
  | statsClear => exact foldl_invariant Lawful _ (fun t g h => h.clearGroup g) _ s h
  | resetSittings => exact h.resetSittings
  | resetAll => exact h.same h.canonical rfl rfl rfl rfl rfl

theorem Lawful.countFrame (h : Lawful s) : Lawful s.countFrame := h.same h.canonical rfl rfl rfl rfl rfl

theorem Lawful.takeRequest (h : Lawful s) (tag kind : Byte) (f : State → Answer) (serves : ∀ t : State, t.Serves (f t)) :
    Lawful (s.takeRequest tag kind f) := by
  unfold State.takeRequest
  split
  · exact h
  · dsimp only
    split
    · exact h.same h.canonical rfl rfl rfl rfl rfl
    · have answered := (serves s.countFrame).lawful h.countFrame
      generalize (f s.countFrame) = a at answered
      exact answered.same answered.canonical rfl rfl rfl rfl rfl

/-! ## Events -/

theorem Lawful.officeSent (h : Lawful s) : Lawful s.officeSent := by
  unfold State.officeSent
  split
  · exact h
  · exact h.same h.canonical rfl rfl rfl rfl rfl
  · dsimp only
    split
    · exact .powerUp _
    · exact h.same h.canonical rfl rfl rfl rfl rfl

theorem Lawful.tick (h : Lawful s) (low : Bool) (n : Nat) (o : TickOrder) : Lawful (s.tick low n o) := by
  have missing := h.onward (h.toSits.missingFirst o)
  have clock : Lawful (s.tickTime low o) := missing.aside (.onTime _ _)
  have marked := (clock.aside (.tickLines _)).intakeTick.tickCommits
  have told := marked.onward (marked.toSits.tickTail n o)
  exact told.onward (told.toSits.missingTest o)

theorem State.Work.lawful (work : s.Work u) (h : Lawful s) : Lawful u := by
  have roster := h.toSits
  cases work with
  | idle => exact h
  | tick low n o => exact h.tick low n o
  | secondTick o => exact h.onward (roster.secondTick o)
  | edgeAt phase o => exact h.onward (roster.edgeAt phase o)
  | missingFirst o => exact h.onward (roster.missingFirst o)
  | timedAttempt c due =>
    have attempt := roster.timedAttempt (State.admissionDue_loaded due)
    exact h.onward (attempt.trans (attempt.sits.giveTick none))
  | timedStart c due =>
    have start := roster.startChannel (State.startDue_opened due)
    exact h.onward (start.trans (start.sits.giveTick none))
  | writingStart c due =>
    simp only [State.readingOver, Bool.and_eq_true, decide_eq_true_eq] at due
    exact h.onward (roster.startWriting (.inr due.1))
  | applyPending c _ => exact h.onward (roster.applyPending c)
  | closeOnce c due =>
    simp only [State.closeDue, Bool.and_eq_true, decide_eq_true_eq] at due
    exact h.onward (roster.closeOnce (by rw [due.1]; decide))
  | secondBase c => exact h.onward (roster.secondBase c)
  | timeUp k due =>
    obtain ⟨e, found, spent⟩ := (Option.any_eq_true _ _).mp due
    exact h.onward (roster.depart found (Bool.and_eq_true_iff.mp spent).1 .timeUp)
  | exhaust k _ => exact h.onward (roster.exhaust k)
  | expire i k occ => exact h.onward (roster.expire occ)
  | endClearing i occ => exact h.quiet (Moves.endClearing s i) (.endClearing occ)
  | changePin => exact h.onward roster.changePin
  | endInterval l => exact h.aside (Moves.endInterval s l)
  | lineReply l bytes => exact h.onward (roster.lineReply l bytes)
  | windowClose l => exact h.onward (roster.windowClose l)
  | broadcastEnd l => exact h.aside (Moves.broadcastEnd s l)
  | sheetStart => exact h.sheetStart
  | sheetEnd bytes => exact h.sheetEnd bytes
  | sheetGap bytes => exact h.sheetGap bytes
  | endOverrun bytes => exact h.endOverrun bytes
  | advance reach => exact h.advance reach
  | complete => exact h.complete
  | endCommit c n _ => exact h.endCommit c
  | verdictSent => exact h.sent
  | discard => exact h.same h.canonical rfl rfl rfl rfl rfl
  | request tag kind f serves => exact h.takeRequest tag kind f serves
  | sheetQuiet => exact h.sheetQuiet
  | officeQuiet => exact h.same h.canonical rfl rfl rfl rfl rfl
  | endAbandoned => exact h.endAbandoned

theorem State.Event.lawful (event : s.Event u) (h : Lawful s) : Lawful u := by
  cases event with
  | powerUp => exact .powerUp s
  | officeSent => exact h.officeSent
  | work work => exact work.lawful h

theorem Lawful.step (h : Lawful s) (next : step s = .next t) : Lawful t := by
  rcases step_cases next with rfl | ⟨p, u, event, rfl⟩
  · exact h
  · have waiting : Lawful (s.waiting p) := h.same h.canonical rfl rfl rfl rfl rfl
    exact (event.lawful waiting).aside (Moves.settle u)

end Sys2Proof.Machine
end

section
/-! PROOF. The laws as the obligation states them, and O60. -/

namespace Sys2Proof.Machine

set_option Elab.async false

variable {s t : State} {k c n : Nat} {e : Entry} {m : Marking}

/-! ## Seats, phases and ids -/

theorem State.phasesAgree_iff (canonical : s.canonical = true) : s.phasesAgree = true ↔
    (∀ k e, s.entry k = some e → (s.chan e.channel).allows e.state = true) ∧ ∀ c, (s.chan c).shutLate := by
  simp only [State.phasesAgree, Bool.and_eq_true, List.all_eq_true, Bool.or_eq_true, Bool.not_eq_true', decide_eq_true_eq]
  refine and_congr ⟨fun h k e found => h (k, e) (mapGet_mem found),
    fun h p listed => h p.1 p.2 (mapGet_of_mem (State.roster_rises canonical) listed)⟩
    ⟨fun h c closed => ?_, fun h p listed => ?_⟩
  · unfold State.chan tabGet at closed ⊢
    cases found : mapGet s.channels c with
    | none => rw [found] at closed; cases closed
    | some r =>
      rw [found] at closed
      exact (h (c, r) (mapGet_mem found)).resolve_left fun x => nomatch x.symm.trans closed
  · have own : s.chan p.1 = p.2 := by
      rw [State.chan, tabGet, mapGet_of_mem (State.channels_rises canonical) listed]; rfl
    cases closed : p.2.closed with
    | false => exact .inl rfl
    | true =>
      have late := h p.1 (by rw [own]; exact closed)
      rw [own] at late
      exact .inr late

theorem State.idsUnique_iff (canonical : s.canonical = true) : s.idsUnique = true ↔ IdsApart s := by
  simp only [State.idsUnique, List.all_eq_true, Bool.or_eq_true, Bool.and_eq_true, Bool.not_eq_true', decide_eq_true_eq,
    Bool.and_eq_false_iff]
  constructor
  · intro h k e k' e' found found' other same
    obtain ⟨differ, idle⟩ := (h (k, e) (mapGet_mem found) (k', e') (mapGet_mem found')).resolve_left fun x =>
      x.elim other fun x => x same
    refine ⟨differ, fun both => ?_⟩
    rcases idle with idle | idle
    · exact nomatch idle.symm.trans both.1
    · exact nomatch idle.symm.trans both.2
  · intro h p listed q listed'
    have rises := State.roster_rises canonical
    by_cases other : p.1 = q.1
    · exact .inl (.inl other)
    by_cases same : p.2.id = q.2.id
    · obtain ⟨differ, apart⟩ := h p.1 p.2 q.1 q.2 (mapGet_of_mem rises listed) (mapGet_of_mem rises listed') other same
      refine .inr ⟨differ, ?_⟩
      cases one : (s.chan p.2.channel).state.isActive with
      | false => exact .inl rfl
      | true => exact .inr (Bool.eq_false_iff.mpr fun two => apart ⟨one, two⟩)
    · exact .inl (.inr same)

/-! ## Sheets and results -/

theorem State.slotsAgree_iff : s.slotsAgree = true ↔ s.intake.Tied := by
  simp only [State.slotsAgree, Bool.and_eq_true, List.all_eq_true, decide_eq_true_eq]
  constructor
  · rintro ⟨⟨⟨nodup, waiting⟩, receiving⟩, scoring⟩
    refine ⟨nodup, waiting, fun n x => ?_, fun m x => ?_⟩
    · rw [x] at receiving; exact of_decide_eq_true receiving
    · rw [x] at scoring; exact of_decide_eq_true scoring
  · intro h
    refine ⟨⟨⟨h.nodup, h.waiting⟩, ?_⟩, ?_⟩
    · split
      · exact decide_eq_true (h.receiving _ ‹_›)
      · rfl
    · split
      · exact decide_eq_true (h.scoring _ ‹_›)
      · rfl

/-- The sheet in the marking unit rests on a COLLECTED entry once it has passed check 11 (R159, R171). -/
def State.sheetStands (s : State) (m : Marking) : Prop :=
  s.Sound m ∧ (m.failed = none → 11 ≤ m.made → (s.intake.slot m.slot).resolved = m.channel)

theorem State.bears_iff (r : ResultRecord) : (match r.status, r.slot, r.channel with
    | .scored, some k, some c | .referred, some k, some c => s.collectedIn k c
    | .scored, _, _ | .referred, _, _ => false
    | _, _, _ => true) = true ↔ s.bears r := by
  unfold State.bears Status.scores
  cases r.status <;> cases r.slot <;> cases r.channel <;> simp

theorem State.sheetStands_iff (m : Marking) : (match m.failed with
    | some x => decide (x ≠ .scored) && decide (x ≠ .referred)
    | none => decide (m.made < 11) || (match m.entry, m.channel with
      | some k, some c => s.collectedIn k c && decide ((s.intake.slot m.slot).resolved = some c)
      | _, _ => false)) = true ↔ s.sheetStands m := by
  unfold State.sheetStands
  cases failed : m.failed with
  | some x =>
    refine ⟨fun h => ⟨⟨fun y same => ?_, fun x => (nomatch failed.symm.trans x)⟩, nofun⟩, fun h => ?_⟩
    · obtain rfl := Option.some.inj (failed.symm.trans same)
      simpa [Status.scores] using h
    · have plain := h.1.failed x failed
      simpa [Status.scores] using plain
  | none =>
    have early : m.made < 11 ∨ 11 ≤ m.made := Nat.lt_or_ge _ _
    constructor
    · intro h
      simp only [Bool.or_eq_true, decide_eq_true_eq] at h
      have stands : 11 ≤ m.made → ∃ k c, m.entry = some k ∧ m.channel = some c ∧ s.collectedIn k c = true ∧
          (s.intake.slot m.slot).resolved = some c := fun late => by
        have stands := h.resolve_left (by omega)
        split at stands
        · rename_i k c entry channel
          simp only [Bool.and_eq_true, decide_eq_true_eq] at stands
          exact ⟨k, c, entry, channel, stands.1, stands.2⟩
        · cases stands
      refine ⟨⟨fun x same => (nomatch failed.symm.trans same), fun _ late => ?_⟩, fun _ late => ?_⟩
      · obtain ⟨k, c, entry, channel, collected, -⟩ := stands late
        exact ⟨k, c, entry, channel, collected⟩
      · obtain ⟨k, c, -, channel, -, resolved⟩ := stands late
        rw [channel]; exact resolved
    · rintro ⟨sound, resolved⟩
      simp only [Bool.or_eq_true, decide_eq_true_eq]
      refine early.imp_right fun late => ?_
      obtain ⟨k, c, entry, channel, collected⟩ := sound.found failed late
      have place := resolved rfl late
      rw [channel] at place
      rw [entry, channel]
      simp only [Bool.and_eq_true, decide_eq_true_eq]
      exact ⟨collected, place⟩

theorem State.resultsStand_iff : s.resultsStand = true ↔
    (∀ r ∈ s.log.records, s.bears r) ∧ ∀ m, s.intake.marking = some m → s.sheetStands m := by
  unfold State.resultsStand
  simp only [Bool.and_eq_true, List.all_eq_true]
  refine and_congr (forall_congr' fun r => imp_congr_right fun _ => State.bears_iff r) ?_
  cases marking : s.intake.marking with
  | none => exact ⟨fun _ => nofun, fun _ => rfl⟩
  | some m =>
    refine (State.sheetStands_iff m).trans ⟨fun h n same => ?_, fun h => h m rfl⟩
    obtain rfl := Option.some.inj same
    exact h

/-! ## All the laws -/

theorem State.rosterLawful_iff (canonical : s.canonical = true) : s.rosterLawful = true ↔ Lawful s := by
  simp only [State.rosterLawful, Bool.and_eq_true, State.phasesAgree_iff canonical, State.idsUnique_iff canonical,
    State.slotsAgree_iff, State.resultsStand_iff]
  constructor
  · rintro ⟨⟨⟨⟨seats, allows, shutLate⟩, apart⟩, slots⟩, records, sheet⟩
    exact ⟨⟨canonical, .of_agree seats, allows, shutLate, apart⟩, slots, records, fun m x => (sheet m x).1,
      fun m x => (sheet m x).2⟩
  · intro h
    exact ⟨⟨⟨⟨h.tied.agree (State.seats_rises canonical) (State.roster_rises canonical), h.allows, h.shutLate⟩, h.apart⟩,
      h.slots⟩, h.records, fun m x => ⟨h.sound m x, h.resolved m x⟩⟩

/-- Settles O60: the laws are those of `Lawful`, which the reset state has and every step keeps. -/
theorem resetKeepsEveryLaw : Obligations.ResetKeepsEveryLaw := by
  refine ⟨⟨by decide, by decide, by decide, by decide, by decide⟩, fun s t canonical lawful next => ?_⟩
  have kept := ((State.rosterLawful_iff canonical).mp lawful).step next
  exact (State.rosterLawful_iff kept.canonical).mpr kept

end Sys2Proof.Machine
end

section
/-! PROOF. Counts that stand at 0 and the rows that take them (R66, R86, R91), and a rule for second ticks that says whether the
seat allocator has taken the tick. -/

namespace Sys2Proof.Machine

set_option Elab.async false

variable {s t u : State} {c i k n : Nat} {e : Entry}

/-! ## The rows -/

theorem exec_budgetExhaustion (k : Nat) (s : State) :
    exec (.budgetExhaustion k) s = .next (if s.budgetDue k then s.exhaust k else s).settle := rfl

theorem exec_seatingExpiry (occ : (s.seat i).occ = .held k 0) :
    exec (.seatingExpiry i) s = .next (s.expire i k).settle := by
  have row : exec (.seatingExpiry i) s =
      .next (match (s.seat i).occ with | .held k 0 => s.expire i k | _ => s).settle := rfl
  exact row.trans (by simp only [occ])

theorem exec_clearingEnd (occ : (s.seat i).occ = .clearing 0) :
    exec (.clearingEnd i) s = .next (s.endClearing i).settle := by
  have row : exec (.clearingEnd i) s =
      .next (match (s.seat i).occ with | .clearing 0 => s.endClearing i | _ => s).settle := rfl
  exact row.trans (by simp only [occ])

theorem State.flag_exhaust (found : s.entry k = some e) : Category.budgetOut ∈ (s.exhaust k).office.flags := by
  unfold State.exhaust
  rw [found]
  dsimp only
  exact (Moves.markEntry _ k).raised _ (State.flag_notify _ (.budgetOut _ k))

theorem State.flag_expire (s : State) (i k : Nat) : Category.seatingExpired ∈ (s.expire i k).office.flags :=
  State.flag_notify _ (.seatingExpired i k)

theorem budgetExhaustion_exhausts (found : s.entry k = some e) (paused : e.state = .onBreak) (spent : e.remaining = 0)
    (untold : e.budgetOut = false) :
    ∃ t, exec (.budgetExhaustion k) s = .next t ∧ t.entry k = some { e with budgetOut := true } ∧
      (∀ j, j ≠ k → t.entry j = s.entry j) ∧ Category.budgetOut ∈ t.office.flags ∧
      Unchanged [.roster, .flags, .notices] s t := by
  have due : s.budgetDue k = true := by simp [State.budgetDue, found, paused, spent, untold]
  have settled := Moves.settle (s.exhaust k)
  have entry (j : Nat) := (settled.frame.entry j).trans (State.entry_exhaust s k j)
  refine ⟨_, (exec_budgetExhaustion k s).trans (by rw [if_pos due]), ?_, fun j other => ?_,
    settled.raised _ (State.flag_exhaust found), ((Moves.exhaust s k).next settled).frame⟩
  · rw [entry, if_pos rfl, found]; rfl
  · rw [entry, if_neg other.symm]

theorem seatingExpiry_expires (occ : (s.seat i).occ = .held k 0) (found : s.entry k = some e) :
    ∃ t, exec (.seatingExpiry i) s = .next t ∧ t.seat i = { s.seat i with occ := .free, closing := .none } ∧
      (∀ j, j ≠ i → t.seat j = s.seat j) ∧ t.entry k = some { e with state := .expected, seat := none } ∧
      (∀ j, j ≠ k → t.entry j = s.entry j) ∧ Category.seatingExpired ∈ t.office.flags ∧
      Unchanged [.seats, .roster, .flags, .notices] s t := by
  have settled := Moves.settle (s.expire i k)
  have entry (j : Nat) := (settled.frame.entry j).trans (State.entry_expire s i k j)
  have seat (j : Nat) : (s.expire i k).settle.seat j =
      if i = j then { s.seat i with occ := .free, closing := .none } else s.seat j := by
    rw [settled.frame.seat, State.expire, State.seat_notify, State.seat_onEntry, State.seat_releaseHold]
  refine ⟨_, exec_seatingExpiry occ, ?_, fun j other => ?_, ?_, fun j other => ?_,
    settled.raised _ (State.flag_expire s i k), ((Moves.expire s i k).next settled).frame⟩
  · rw [seat, if_pos rfl]
  · rw [seat, if_neg other.symm]
  · rw [entry, if_pos rfl, found]; rfl
  · rw [entry, if_neg other.symm]

theorem clearingEnd_frees (occ : (s.seat i).occ = .clearing 0) :
    ∃ t, exec (.clearingEnd i) s = .next t ∧ t.seat i = { s.seat i with occ := .free, closing := .none } ∧
      (∀ j, j ≠ i → t.seat j = s.seat j) ∧ Unchanged [.seats] s t := by
  have settled := Moves.settle (s.endClearing i)
  have seat (j : Nat) : (s.endClearing i).settle.seat j =
      if i = j then { s.seat i with occ := .free, closing := .none } else s.seat j := by
    rw [settled.frame.seat, State.endClearing, State.seat_noteSeat, State.seat_freeSeat]
  refine ⟨_, exec_clearingEnd occ, ?_, fun j other => ?_, ((Moves.endClearing s i).next settled).frame⟩
  · rw [seat, if_pos rfl]
  · rw [seat, if_neg other.symm]

/-! ## A second tick, the seat allocator's part once -/

/-- What the channels hand on from one to the next. -/
theorem State.tickSittings_rule (I : Nat → State → Prop) (start : I 0 s)
    (pass : ∀ t n, n < 16 → I n t → I (n + 1) (t.passTick n)) : I 16 s.tickSittings := by
  have run : ∀ n, n ≤ 16 → I n ((List.range n).foldl State.passTick s) := by
    intro n
    induction n with
    | zero => exact fun _ => start
    | succ n ih =>
      intro hn
      rw [List.range_succ, List.foldl_append]
      exact pass _ n (by omega) (ih (by omega))
  exact run 16 (Nat.le_refl _)

/-- The rule for second ticks, where the invariant says whether the seat allocator has taken the tick. -/
theorem State.secondTick_once (I : Bool → Nat → State → Prop) (o : TickOrder) (start : I false 0 (s.onTime TimeBase.second))
    (seats : ∀ t n, I false n t → I true n t.tickSeats) (signals : ∀ b t n, I b n t → I b n t.tickSignals)
    (pass : ∀ b t n, n < 16 → I b n t → I b (n + 1) (t.passTick n)) : I true 16 (s.secondTick o) := by
  have sitting {b : Bool} {t : State} (h : I b 0 t) : I b 16 t.tickSittings := State.tickSittings_rule (I b) h (pass b)
  unfold State.secondTick
  generalize s.onTime TimeBase.second = u at start
  cases o <;> simp only [consumersOf, List.foldl_cons, List.foldl_nil, State.consume]
  case sittingSeatsSignals => exact signals _ _ _ (seats _ _ (sitting start))
  case sittingSignalsSeats => exact seats _ _ (signals _ _ _ (sitting start))
  case seatsSittingSignals => exact signals _ _ _ (sitting (seats _ _ start))
  case seatsSignalsSitting => exact sitting (signals _ _ _ (seats _ _ start))
  case signalsSittingSeats => exact seats _ _ (sitting (signals _ _ _ start))
  case signalsSeatsSitting => exact sitting (seats _ _ (signals _ _ _ start))

/-- The state at turn `n` of a second tick, with what the whole tick changes. -/
structure Course (u : State) (n : Nat) (t : State) : Prop extends Round u n t where
  moves : Moves [.time, .signals, .channels, .roster, .seats, .flags, .notices] u t
  posted : Posted u t

theorem Course.start (canonical : u.canonical = true) (tied : SeatsTied u) : Course u 0 (u.onTime TimeBase.second) :=
  { Round.start canonical tied with moves := (Moves.onTime u _).widen, posted := .onTime u _ }

theorem Course.seats (h : Course u n t) : Course u n t.tickSeats :=
  { h.toRound.seats with
    moves := h.moves.next (.tickSeats t)
    posted := h.posted.trans (.fold _ Posted.tickSeat _ t) }

theorem Course.signals (h : Course u n t) : Course u n t.tickSignals :=
  { h.toRound.signals with
    moves := h.moves.next (.tickSignals t)
    posted := h.posted.trans (Posted.consume t .signals) }

theorem Course.pass (h : Course u n t) : Course u (n + 1) (t.passTick n) :=
  { h.toRound.pass with
    moves := h.moves.next (.passTick t n)
    posted := h.posted.trans (.passTick t n) }

/-- A second tick by one property of the states at its turns. -/
theorem State.secondTick_course {P : Bool → Nat → State → Prop} (canonical : u.canonical = true) (tied : SeatsTied u)
    (o : TickOrder) (start : P false 0 (u.onTime TimeBase.second))
    (seats : ∀ t n, Course u n t → P false n t → P true n t.tickSeats)
    (signals : ∀ b t n, Course u n t → P b n t → P b n t.tickSignals)
    (pass : ∀ b t n, n < 16 → Course u n t → P b n t → P b (n + 1) (t.passTick n)) :
    Course u 16 (u.secondTick o) ∧ P true 16 (u.secondTick o) :=
  State.secondTick_once (fun b n t => Course u n t ∧ P b n t) o ⟨.start canonical tied, start⟩
    (fun t n h => ⟨h.1.seats, seats t n h.1 h.2⟩) (fun b t n h => ⟨h.1.signals, signals b t n h.1 h.2⟩)
    fun b t n low h => ⟨h.1.pass, pass b t n low h.1 h.2⟩

end Sys2Proof.Machine
end

section
/-! PROOF. What a writing second leaves of its candidates' entries (R59, R61, R66, R70, R71), and the flag of an exhausted
budget. -/

namespace Sys2Proof.Machine

set_option Elab.async false

variable {s t u : State} {c i k n : Nat} {e : Entry}

/-! ## The own turn -/

/-- Steps 4 and 5 of a writing second leave every entry whose candidate has come. -/
theorem State.entry_closeOnce_come (rises : mapRises 0 s.roster = true) (found : s.entry k = some e)
    (come : e.state.isOut = false) : (s.closeOnce c).entry k = some e := by
  unfold State.closeOnce
  split
  · exact found
  · rw [State.entry_closeAdmission rises, found, Option.map_some, if_neg]
    rw [come]
    nofun

theorem State.entry_ending_come (canonical : s.canonical = true) (found : s.entry k = some e)
    (come : e.state.isOut = false) : ((s.secondClose c).secondBase c).entry k = some e := by
  have closed : (s.secondClose c).entry k = some e := by
    unfold State.secondClose
    split
    · exact State.entry_closeOnce_come (State.roster_rises canonical) found come
    · exact found
  have form := (Moves.secondClose s c).canonical canonical
  generalize s.secondClose c = v at closed form
  unfold State.secondBase
  split
  · rw [State.entry_endBase]
    exact State.entry_closeOnce_come (State.roster_rises form) closed come
  · exact closed

/-- An entry after a writing second of its channel. -/
def State.tallied (u : State) (e : Entry) : Entry := (u.onTime TimeBase.second).counts ((u.chan e.channel).retimedSecond e)

theorem Course.counts (h : Course u n t) (e : Entry) : t.counts e = (u.onTime TimeBase.second).counts e :=
  State.counts_congr (s := u.onTime TimeBase.second) h.time (h.moves.frame.2 .booklets (by decide)).1 e

theorem State.counts_come (s : State) (writes : e.state.isWriting = true) :
    (s.counts e).state.isOut = false ∧ (s.counts e).state ≠ .allocated ∧ (s.counts e).channel = e.channel := by
  obtain ⟨state, -⟩ := Entry.count_keeps e
  have here : e.count.state.isOut = false ∧ e.count.state ≠ .allocated := by
    rw [state]
    rcases EntryState.isWriting_cases writes with x | x <;> rw [x] <;> exact ⟨rfl, nofun⟩
  unfold State.counts
  rw [if_pos writes]
  split
  · exact ⟨here.1, here.2, Entry.count_channel e⟩
  · split
    · refine ⟨?_, ?_, Entry.count_channel e⟩
      · unfold State.departed; dsimp only; split <;> rfl
      · unfold State.departed; dsimp only; split <;> nofun
    · exact ⟨here.1, here.2, Entry.count_channel e⟩

theorem State.tallied_come (u : State) (writes : e.state.isWriting = true) :
    (u.tallied e).state.isOut = false ∧ (u.tallied e).state ≠ .allocated ∧ (u.tallied e).channel = e.channel := by
  obtain ⟨state, -, channel⟩ := Channel.retimedSecond_keeps (u.chan e.channel) e
  obtain ⟨come, seated, same⟩ := (u.onTime TimeBase.second).counts_come (e := (u.chan e.channel).retimedSecond e)
    (by rw [state]; exact writes)
  exact ⟨come, seated, same.trans channel⟩

theorem Course.stands (h : Course u c t) (found : u.entry k = some e) (own : e.channel = c) (state : e.state ≠ .allocated) :
    t.entry k = some e := (h.waits c (Nat.le_refl c)).stands found own state

/-- The own turn counts. -/
theorem Course.tallies (h : Course u c t) (writes : u.writesSecond c = true) (found : u.entry k = some e)
    (own : e.channel = c) (writer : e.state.isWriting = true) : (t.passTick c).entry k = some (u.tallied e) := by
  have here : t.entry k = some e := h.stands found own fun x => by rw [x] at writer; cases writer
  obtain ⟨come, -⟩ := u.tallied_come writer
  have given := h.toRound.ticking.given
  have counts : (t.giveTick (some c)).counts = (u.onTime TimeBase.second).counts := funext fun e => h.counts e
  have here' : (t.giveTick (some c)).entry k = some e := here
  rw [h.toRound.ticking.writes writes]
  generalize t.giveTick (some c) = g at given counts here'
  have counted : (g.counted43 c).entry k = some (u.tallied e) := by
    rw [State.entry_counted43 given.canonical, here', Option.map_some, if_pos own, counts, given.chan, State.tallied, own]
  have form := (Moves.counted43 g c).canonical given.canonical
  have ended := State.entry_ending_come (c := c) form counted come
  rw [← State.writingSecond_eq'] at ended
  generalize g.writingSecond c = w at ended
  exact ended

/-- The rest of the tick leaves an entry that has been counted. -/
theorem State.secondTick_tallied (canonical : u.canonical = true) (tied : SeatsTied u) (o : TickOrder)
    (writes : u.writesSecond c = true) (hc : c < 16) (found : u.entry k = some e) (own : e.channel = c)
    (writer : e.state.isWriting = true) : (u.secondTick o).entry k = some (u.tallied e) := by
  obtain ⟨-, seated, channel⟩ := u.tallied_come writer
  have stands := (State.secondTick_course (P := fun _ n t => c < n → t.entry k = some (u.tallied e)) canonical tied o
    (fun early => absurd early (by omega))
    (fun t n h p past => (h.tied.tickSeats.2 c).stands (p past) (channel.trans own) seated)
    (fun b t n h p past => by rw [(Moves.tickSignals t).frame.entry]; exact p past)
    (fun b t n low h p past => by
      by_cases here : n = c
      · subst here; exact h.tallies writes found own writer
      · exact (Confined.passTick h.canonical).other (p (by omega)) fun same => here (same.symm.trans (channel.trans own)))).2
  exact stands hc

/-! ## The flag of an exhausted budget -/

theorem State.told_countEntry (found : s.entry k = some e) (paused : e.state = .onBreak) (last : e.remaining = 1) :
    Category.budgetOut ∈ (s.countEntry k).office.flags := by
  have pause : e.state = .onBreak ∧ 0 < e.remaining := ⟨paused, by omega⟩
  have spent : e.count.remaining = 0 := by rw [Entry.count, if_pos pause]; dsimp only; omega
  unfold State.countEntry
  rw [found]
  dsimp only
  rw [if_pos (show e.state.isWriting = true by rw [paused]; rfl), if_pos pause, if_pos spent]
  exact State.flag_exhaust (by rw [State.entry_putEntry, if_pos rfl])

theorem State.told_countChannel (rises : mapRises 0 s.roster = true) (found : s.entry k = some e) (own : e.channel = c)
    (paused : e.state = .onBreak) (last : e.remaining = 1) : Category.budgetOut ∈ (s.countChannel c).office.flags :=
  foldl_split State.countEntry k (fun t => t.entry k = some e) (fun t => Category.budgetOut ∈ t.office.flags)
    (fun t _ other stands => by rw [State.countEntry_apart t other.symm]; exact stands)
    (fun _ stands => State.told_countEntry stands paused last) (fun t j _ told => (Moves.countEntry t j).raised _ told) _
    (State.slotsIn_nodup rises c _) ((State.mem_slotsIn rises).2 ⟨e, found, own, by rw [paused]; rfl⟩) s found

theorem State.told_writingSecond (canonical : s.canonical = true) (found : s.entry k = some e) (own : e.channel = c)
    (paused : e.state = .onBreak) (last : e.remaining = 1) : Category.budgetOut ∈ (s.writingSecond c).office.flags := by
  have entry := State.entry_amended43 (State.roster_rises canonical) c k
  rw [found, Option.map_some, if_pos own] at entry
  obtain ⟨state, -, channel⟩ := Channel.retimedSecond_keeps (s.chan c) e
  have remaining : ((s.chan c).retimedSecond e).remaining = e.remaining := by
    unfold Channel.retimedSecond
    dsimp only
    split
    · exact (Channel.retimed_keeps _ e).2.2.2.2
    · rfl
  have counted : Category.budgetOut ∈ (s.counted43 c).office.flags :=
    State.told_countChannel (State.rises_next (Moves.amended43 s c) canonical) entry (channel.trans own)
      (state.trans paused) (remaining.trans last)
  rw [State.writingSecond_eq']
  generalize s.counted43 c = v at counted ⊢
  exact (Moves.secondBase _ c).raised _ ((Moves.secondClose v c).raised _ counted)

theorem Course.exhausts (h : Course u c t) (writes : u.writesSecond c = true) (found : u.entry k = some e)
    (own : e.channel = c) (paused : e.state = .onBreak) (last : e.remaining = 1) :
    Category.budgetOut ∈ (t.passTick c).office.flags := by
  have here : (t.giveTick (some c)).entry k = some e := h.stands found own fun x => by rw [x] at paused; cases paused
  have told := State.told_writingSecond h.toRound.ticking.given.canonical here own paused last
  rw [h.toRound.ticking.writes writes]
  generalize (t.giveTick (some c)).writingSecond c = w at told ⊢
  exact told

theorem State.secondTick_exhausts (canonical : u.canonical = true) (tied : SeatsTied u) (o : TickOrder)
    (writes : u.writesSecond c = true) (hc : c < 16) (found : u.entry k = some e) (own : e.channel = c)
    (paused : e.state = .onBreak) (last : e.remaining = 1) : Category.budgetOut ∈ (u.secondTick o).office.flags := by
  have told := (State.secondTick_course (P := fun _ n t => c < n → Category.budgetOut ∈ t.office.flags) canonical tied o
    (fun early => absurd early (by omega))
    (fun t n h p past => (Moves.tickSeats t).raised _ (p past))
    (fun b t n h p past => (Moves.tickSignals t).raised _ (p past))
    (fun b t n low h p past => by
      by_cases here : n = c
      · subst here; exact h.exhausts writes found own paused last
      · exact (Moves.passTick t n).raised _ (p (by omega)))).2
  exact told hc

/-! ## As the obligation states it -/

theorem Channel.retimedSecond_eq (u : State) (writer : e.state.isWriting = true) :
    (u.chan e.channel).retimedSecond e =
      { e with allowed := if u.amendsSecond e.channel then allowedSeconds (u.nextLength e.channel) e.percent else e.allowed } := by
  have timed : e.state.isTimed = true := by
    rcases EntryState.isWriting_cases writer with x | x <;> rw [x] <;> rfl
  have length := State.length_secondOn u e.channel
  unfold Channel.secondOn at length
  unfold Channel.retimedSecond Channel.retimed State.amendsSecond
  dsimp only at length ⊢
  by_cases minute : ((u.chan e.channel).writeElapsed + 1) % 60 = 0
  · rw [if_pos minute] at length ⊢
    rw [length]
    by_cases late : (u.chan e.channel).writeElapsed + 61 ≤ 14400
    · have inTime : ¬14400 < (u.chan e.channel).writeElapsed + 1 + 60 := by omega
      simp only [tooLate, inTime, minute, late, timed, decide_true, decide_false, Bool.and_true, and_true]
      split <;> rfl
    · have past : 14400 < (u.chan e.channel).writeElapsed + 1 + 60 := by omega
      simp [tooLate, past, late]
  · rw [if_neg minute]
    simp [minute]

theorem State.tallied_counted (found : t.entry k = some (s.tallied e)) (writer : e.state.isWriting = true) :
    EntryCounted s t k e := by
  unfold EntryCounted
  dsimp only
  rw [found, State.tallied, Channel.retimedSecond_eq s writer]
  generalize (if s.amendsSecond e.channel then allowedSeconds (s.nextLength e.channel) e.percent else e.allowed) = a
  have time : (s.onTime TimeBase.second).time.hallTime = nextHallTime s.time.hallTime := TimeBase.second_hallTime _
  unfold State.counts State.departed Entry.count
  dsimp only
  rw [if_pos writer, time]
  by_cases pause : e.state = .onBreak ∧ 0 < e.remaining
  · simp only [if_pos pause]
    have last : decide (e.remaining - 1 = 0) = decide (e.remaining = 1) := by
      have := pause.2
      exact decide_eq_decide.mpr ⟨fun x => by omega, fun x => by omega⟩
    rw [last]
  · simp only [if_neg pause]
    rfl

theorem Readied.tallied (h : Readied s u) (writer : e.state.isWriting = true) : u.tallied e = s.tallied e := by
  have counts : (u.onTime TimeBase.second).counts = (s.onTime TimeBase.second).counts := funext fun e => by
    unfold State.counts State.departed
    have back : (u.onTime TimeBase.second).isReturned = (s.onTime TimeBase.second).isReturned :=
      funext fun b => State.isReturned_congr h.booklets b
    have time : (u.onTime TimeBase.second).time.hallTime = (s.onTime TimeBase.second).time.hallTime := by
      rw [State.onTime_time, State.onTime_time, TimeBase.second_hallTime, TimeBase.second_hallTime, h.hallTime]
    rw [back, time]
  rw [State.tallied, State.tallied, counts, Channel.retimedSecond_eq u writer, Channel.retimedSecond_eq s writer,
    h.amendsSecond, h.nextLength]

end Sys2Proof.Machine
end

section
/-! PROOF. What a second tick leaves of the HELD and CLEARING seats (R43, R85 to R87, R91). -/

namespace Sys2Proof.Machine

set_option Elab.async false

variable {s t u v : State} {c d i k m n : Nat} {e e' : Entry}

/-! ## The seat allocator's tick -/

theorem Seat.second_free {r : Seat} (free : r.occ = .free) (held : Bool) : r.second held = r := by
  unfold Seat.second
  rw [free]

theorem mapGet_none_of_not_key {α : Type} {m : PMap α} {i : Nat} (h : i ∉ mapKeys m) : mapGet m i = none := by
  cases found : mapGet m i with
  | none => rfl
  | some a => exact absurd (List.mem_map_of_mem (f := Prod.fst) (mapGet_mem found)) h

theorem State.seat_tickSeats (canonical : s.canonical = true) (i : Nat) :
    s.tickSeats.seat i = (s.seat i).second s.time.held := by
  by_cases listed : i ∈ s.seatKeys
  · refine (foldl_split State.tickSeat i (fun t => t.seat i = s.seat i ∧ t.time = s.time)
      (fun t => t.seat i = (s.seat i).second s.time.held) (fun t j other h => ?_) (fun t h => ?_) (fun t j other h => ?_)
      s.seatKeys ?_ listed s ⟨rfl, rfl⟩)
    · exact ⟨by rw [State.seat_tickSeat, if_neg other, h.1], (Moves.tickSeat t j).frame.time.trans h.2⟩
    · rw [State.seat_tickSeat, if_pos rfl, h.1, h.2]
    · rw [State.seat_tickSeat, if_neg other, h]
    · exact mapKeys_nodup (State.seats_rises canonical)
  · have blank : s.seat i = Seat.blank := by
      rw [State.seat, tabGet, mapGet_none_of_not_key listed]; rfl
    rw [blank, Seat.second_free rfl]
    refine (foldl_invariant (fun t : State => t.seat i = Seat.blank) State.tickSeat (fun t j h => ?_) s.seatKeys s blank)
    rw [State.seat_tickSeat]
    split
    · subst_vars; rw [h, Seat.second_free rfl]
    · exact h

/-- A hold that runs out is told. -/
theorem State.flag_tickSeat (occ : (s.seat i).occ = .held k m) (last : m ≤ 1) (free : s.time.held = false) :
    Category.seatingExpired ∈ (s.tickSeat i).office.flags := by
  unfold State.tickSeat
  rw [occ]
  dsimp only
  rw [free, if_neg Bool.false_ne_true, if_pos last]
  exact State.flag_expire _ i k

theorem State.flag_tickSeats (canonical : s.canonical = true) (occ : (s.seat i).occ = .held k m) (last : m ≤ 1)
    (free : s.time.held = false) : Category.seatingExpired ∈ s.tickSeats.office.flags := by
  have listed : i ∈ s.seatKeys := by
    by_contra absent
    have blank : s.seat i = Seat.blank := by
      rw [State.seat, tabGet, mapGet_none_of_not_key absent]; rfl
    rw [blank] at occ
    cases occ
  refine (foldl_split State.tickSeat i (fun t => t.seat i = s.seat i ∧ t.time = s.time)
    (fun t => Category.seatingExpired ∈ t.office.flags) (fun t j other h => ?_) (fun t h => ?_) (fun t j _ h => ?_)
    s.seatKeys ?_ listed s ⟨rfl, rfl⟩)
  · exact ⟨by rw [State.seat_tickSeat, if_neg other, h.1], (Moves.tickSeat t j).frame.time.trans h.2⟩
  · exact State.flag_tickSeat (by rw [h.1]; exact occ) last (by rw [h.2]; exact free)
  · exact (Moves.tickSeat t j).raised _ h
  · exact mapKeys_nodup (State.seats_rises canonical)

/-! ## A channel's turn -/

/-- A seat that the channel's entries do not name is left alone. -/
theorem Course.untaken_pass (h : Course u n t) (free : (t.seat i).occ.taken = none) :
    (t.passTick n).seat i = t.seat i :=
  (Confined.passTick h.canonical).seat i fun k e found _ own => by
    obtain ⟨x, -, taken⟩ := h.tied.seat_of found own
    rw [free] at taken
    cases taken

/-- A seat whose entry still names it is left alone. -/
theorem Confined.seat_stays (conf : Confined c s t) (tied : SeatsTied t) (found : t.entry k = some e') (own : e'.seat = some i) :
    t.seat i = s.seat i := by
  obtain ⟨x, -, taken⟩ := tied.seat_of found own
  refine (conf.left i).resolve_right fun gone => ?_
  rw [Occupancy.slot_eq, taken] at gone
  cases gone

/-- The record of a seat set free. -/
def Seat.freed (r : Seat) : Prop := r.occ = .free ∧ r.closing = .none

/-- Seat `i` has been left alone or set free. -/
def Yields (i : Nat) (s t : State) : Prop := t.seat i = s.seat i ∨ (t.seat i).freed

theorem Yields.trans (h : Yields i s t) (g : Yields i t u) : Yields i s u := by
  rcases g with same | free
  · exact h.imp same.trans fun x => by rw [same]; exact x
  · exact .inr free

theorem Yields.of_moves {l : List Part} (m : Moves l s t) (h : Part.seats ∉ l := by decide) : Yields i s t :=
  .inl (m.frame.seat i h)

theorem Yields.closeAdmission (rises : mapRises 0 s.roster = true) (c : Nat) : Yields i s (s.closeAdmission c) := by
  have shut : Yields i s ((s.slotsIn c EntryState.isOut).foldl State.shutOut (s.onChan c fun ch => { ch with closed := true })) :=
    foldl_slots (s := s.onChan c fun ch => { ch with closed := true }) rises c EntryState.isOut
      (fun t _ _ other => State.shutOut_apart t other) (.inl rfl) fun t j e h found _ _ => h.trans (by
        unfold Yields
        rw [State.seat_shutOut found]
        split
        · exact .inr ⟨rfl, rfl⟩
        · exact .inl rfl)
  exact shut.trans (.of_moves (.notify _ _))

theorem Yields.closeOnce (rises : mapRises 0 s.roster = true) (c : Nat) : Yields i s (s.closeOnce c) := by
  unfold State.closeOnce
  split
  · exact .inl rfl
  · exact .closeAdmission rises c

theorem Yields.endBase (rises : mapRises 0 s.roster = true) (c : Nat) : Yields i s (s.endBase c) := by
  have closed := (Yields.closeOnce (i := i) rises c).trans (.of_moves (.dropAmendment _ c))
  unfold State.endBase
  dsimp only
  split
  · exact closed.trans (.of_moves (.enterPhase _ c _))
  · exact closed.trans (.of_moves (.enterCollecting _ c))

theorem Yields.ending (canonical : s.canonical = true) (c : Nat) : Yields i s ((s.secondClose c).secondBase c) := by
  have form := (Moves.secondClose s c).canonical canonical
  have closed : Yields i s (s.secondClose c) := by
    unfold State.secondClose
    split
    · exact .closeOnce (State.roster_rises canonical) c
    · exact .inl rfl
  refine closed.trans ?_
  generalize s.secondClose c = v at form
  unfold State.secondBase
  split
  · exact .endBase (State.roster_rises form) c
  · exact .inl rfl

/-! ## Candidates who have not come -/

/-- The entry of slot `k` stands where `e` stood, its candidate not come. -/
structure Awaits (k : Nat) (e : Entry) (s : State) : Prop where
  out : e.state.isOut = true
  there : ∃ e', s.entry k = some e' ∧ e'.channel = e.channel ∧ e'.state = e.state ∧ e'.seat = e.seat

theorem Awaits.move {l : List Part} (h : Awaits k e s) (m : Moves l s t) (h1 : Part.roster ∉ l := by decide) :
    Awaits k e t := by
  obtain ⟨out, e', found, rest⟩ := h
  exact ⟨out, e', by rw [m.frame.entry k h1]; exact found, rest⟩

theorem Awaits.startWriting (canonical : s.canonical = true) (h : Awaits k e s) (c : Nat) : Awaits k e (s.startWriting c) := by
  obtain ⟨out, e', found, channel, state, seat⟩ := h
  have rises := State.roster_rises canonical
  have begun : ((s.onChan c fun ch => { ch with state := .writing, writeElapsed := 0 }).startWriters c).entry k = some e' := by
    rw [State.entry_startWriters (s := s.onChan c _) rises, State.entry_onChan, found, Option.map_some, if_neg]
    rintro ⟨-, seated⟩
    rw [← state, seated] at out
    cases out
  have form := (((Moves.onChan s c fun ch => { ch with state := .writing, writeElapsed := 0 }).widen
    (k := [.channels, .roster])).next (.startWriters _ c)).canonical canonical
  unfold State.startWriting
  generalize (s.onChan c fun ch => { ch with state := .writing, writeElapsed := 0 }).startWriters c = v at begun form
  obtain ⟨state', seat', -, channel', -⟩ := Channel.retimed_keeps (v.chan c) e'
  refine Awaits.move ⟨out, _, by rw [State.entry_applyPending (State.roster_rises form), begun, Option.map_some], ?_⟩
    (.notify _ _)
  split
  · exact ⟨channel'.trans channel, state'.trans state, seat'.trans seat⟩
  · exact ⟨channel, state, seat⟩

theorem Awaits.startChannel (canonical : s.canonical = true) (h : Awaits k e s) (c : Nat) : Awaits k e (s.startChannel c) := by
  have read : Moves [.channels] s (s.onChan c fun ch => { ch with readElapsed := 0 }) := .onChan s c _
  unfold State.startChannel
  split
  · exact ((h.move read).move (.enterPhase _ c _)).move (.markEntries _ c _)
  · exact h.startWriting canonical c

theorem Awaits.readingSecond (canonical : s.canonical = true) (h : Awaits k e s) (c : Nat) :
    Awaits k e (s.readingSecond c) := by
  have m : Moves [.channels] s ((s.onChan c fun ch => { ch with readElapsed := ch.readElapsed + 1 }).readingMarks c) :=
    (Moves.onChan s c _).next (.readingMarks _ c)
  have marked := h.move m
  unfold State.readingSecond
  dsimp only
  split
  · exact marked.startWriting (m.canonical canonical) c
  · exact marked

theorem Awaits.counted43 (canonical : s.canonical = true) (h : Awaits k e s) (c : Nat) : Awaits k e (s.counted43 c) := by
  obtain ⟨out, e', found, channel, state, seat⟩ := h
  obtain ⟨state', seat', channel'⟩ := Channel.retimedSecond_keeps (s.chan c) e'
  have idle : s.counts ((s.chan c).retimedSecond e') = (s.chan c).retimedSecond e' := s.counts_idle (by
    rw [state', state]; rcases EntryState.isOut_cases out with x | x <;> rw [x] <;> rfl)
  refine ⟨out, _, by rw [State.entry_counted43 canonical, found, Option.map_some], ?_⟩
  split
  · rw [idle]; exact ⟨channel'.trans channel, state'.trans state, seat'.trans seat⟩
  · exact ⟨channel, state, seat⟩

/-- In OVERTIME the count does not bring WRITING back. -/
theorem State.writing_of_counted43 (canonical : s.canonical = true) (running : (s.chan c).state ≠ .collecting)
    (writing : ((s.counted43 c).chan c).state = .writing) : (s.chan c).state = .writing := by
  have chan : (s.counted43 c).chan c = _ := State.chan_counted43 canonical c running
  rw [chan] at writing
  split at writing
  · unfold Channel.collect at writing
    dsimp only at writing
    split at writing <;> cases writing
  · rw [(Channel.secondOn_fields _).1] at writing
    exact writing

/-- Admission does not close at the next writing second of channel `c`. -/
def State.staysOpen (s : State) (c : Nat) : Prop :=
  (s.chan c).closed = true ∨ ((s.chan c).writeElapsed + 1 ≤ (s.chan c).config.late ∧
    ((s.chan c).state = .writing → (s.chan c).writeElapsed + 1 < s.nextLength c))

/-- A writing second at which admission does not close leaves them. -/
theorem Awaits.writingSecond (canonical : s.canonical = true) (h : Awaits k e s) (running : (s.chan c).state ≠ .collecting)
    (stays : s.staysOpen c) : Awaits k e (s.writingSecond c) := by
  obtain ⟨closed, config, elapsed, length⟩ := State.chan_counted43_fields canonical running
  have counted := h.counted43 canonical c
  have writing := State.writing_of_counted43 canonical running
  unfold State.staysOpen at stays
  rw [← closed, ← config, ← elapsed, ← length] at stays
  rw [State.writingSecond_eq']
  generalize s.counted43 c = v at counted writing stays ⊢
  have once : (v.chan c).closed = true → v.closeOnce c = v := fun shut => by rw [State.closeOnce, if_pos shut]
  have close : v.secondClose c = v := by
    unfold State.secondClose
    split
    · exact once (stays.resolve_right fun x => by omega)
    · rfl
  rw [close]
  unfold State.secondBase
  split
  · rename_i ends
    have shut := stays.resolve_right fun x => absurd (x.2 (writing ends.1)) (by omega)
    have dropped := counted.move (.dropAmendment v c)
    unfold State.endBase
    dsimp only
    rw [once shut]
    split
    · exact dropped.move (.enterPhase _ c _)
    · exact dropped.move (.enterCollecting _ c)
  · exact counted

theorem Awaits.tickChannel (canonical : s.canonical = true) (h : Awaits k e s)
    (stays : s.writesSecond c = true → s.staysOpen c) : Awaits k e (s.tickChannel c) := by
  have held : Awaits k e (s.heldSecond c) := h.move (.heldSecond s c)
  have writes (state : (s.chan c).state = .writing ∨ (s.chan c).state = .overtime)
      (free : ¬(s.time.held || (s.chan c).hold) = true) : Awaits k e (s.writingSecond c) :=
    h.writingSecond canonical (by rcases state with x | x <;> rw [x] <;> nofun)
      (stays (State.writesSecond_iff.2 ⟨state, by simpa using free⟩))
  unfold State.tickChannel
  split
  · split
    · exact h.move (.timedAttempt s c)
    · exact h
  · split
    · exact h.startChannel canonical c
    · exact h
  · split
    · exact held
    · exact h.readingSecond canonical c
  · split
    · exact held
    · exact writes (.inl ‹_›) ‹_›
  · split
    · exact held
    · exact writes (.inr ‹_›) ‹_›
  · exact h

theorem State.staysOpen_of (writes : s.writesSecond c = true) (open' : s.closesSecond c = false) : s.staysOpen c := by
  simp only [State.closesSecond, State.endsSecond, writes, Bool.true_and, Bool.and_eq_false_iff, Bool.or_eq_false_iff,
    Bool.not_eq_false', decide_eq_false_iff_not] at open'
  rcases open' with shut | ⟨early, ends⟩
  · exact .inl shut
  · exact .inr ⟨by omega, fun writing => by rcases ends with x | x <;> [exact absurd writing x; omega]⟩

/-- The own turn, where admission does not close at it. -/
theorem Course.awaits_pass (h : Course u c t) (open' : u.closesSecond c = false) (waits : Awaits k e t) :
    Awaits k e (t.passTick c) := by
  have given := h.toRound.ticking.given
  have waits' := waits.move (.giveTick t (some c))
  refine Awaits.move ?_ (.giveTick _ _)
  generalize t.giveTick (some c) = g at given waits'
  refine waits'.tickChannel given.canonical fun writes => ?_
  refine State.staysOpen_of writes ?_
  have same : g.closesSecond c = u.closesSecond c := by
    rw [State.closesSecond, State.closesSecond, State.endsSecond, State.endsSecond, State.nextLength, State.nextLength,
      State.amendsSecond, State.amendsSecond, given.writesSecond, given.chan]
  rw [same]; exact open'

/-- The turn of another channel. -/
theorem Course.awaits_other (h : Course u n t) (other : n ≠ e.channel) (waits : Awaits k e t) :
    Awaits k e (t.passTick n) := by
  obtain ⟨out, e', found, channel, rest⟩ := waits
  exact ⟨out, e', (Confined.passTick h.canonical).other found (by rw [channel]; exact other.symm), channel, rest⟩

/-! ## A HELD seat -/

theorem SeatsTied.counted43 (canonical : s.canonical = true) (h : SeatsTied s) (c : Nat) : SeatsTied (s.counted43 c) := by
  have start : SeatsTied (s.onChan c fun ch => { ch with writeElapsed := ch.writeElapsed + 1 }) :=
    h.of_moves (Moves.onChan s c _)
  have amended : SeatsTied (s.amended43 c) := by
    unfold State.amended43 State.secondAmendment
    split
    · exact start.applyPending
    · exact start
  exact amended.countChannel (State.rises_next (Moves.amended43 s c) canonical)

theorem Confined.counted43 (canonical : s.canonical = true) (c : Nat) : Confined c s (s.counted43 c) := by
  have amended : Confined c s (s.amended43 c) :=
    (Confined.onChan s c _).next (.secondAmendment (s := s.onChan c _) (State.rises_next (Moves.onChan s c _) canonical))
  exact amended.next (.countChannel (State.rises_next (Moves.amended43 s c) canonical))

/-- A writing second leaves a HELD seat alone or sets it free. -/
theorem Yields.writingSecond (canonical : s.canonical = true) (tied : SeatsTied s) (waits : Awaits k e s)
    (seat : e.seat = some i) (c : Nat) : Yields i s (s.writingSecond c) := by
  obtain ⟨-, e', found, -, -, same⟩ := waits.counted43 canonical c
  have stays := (Confined.counted43 canonical c).seat_stays (tied.counted43 canonical c) found (same.trans seat)
  rw [State.writingSecond_eq']
  exact Yields.trans (.inl stays) (.ending ((Moves.counted43 s c).canonical canonical) c)

/-- The close of admission at the own turn frees the seat. -/
theorem Course.closes_frees (h : Course u c t) (closes : u.closesSecond c = true) (found : u.entry k = some e)
    (own : e.channel = c) (waits : Awaits k e t) (seat : e.seat = some i) : ((t.passTick c).seat i).freed := by
  have writes : u.writesSecond c = true := by
    simp only [State.closesSecond, Bool.and_eq_true] at closes; exact closes.1.1
  obtain ⟨e', after, -, -, gone⟩ := (h.toRound.closes closes).absent k e found own waits.out
  have yields : Yields i t (t.passTick c) := by
    have waits' := waits.move (.giveTick t (some c))
    have tied : SeatsTied (t.giveTick (some c)) := h.tied.of_moves (.giveTick t _)
    have step := Yields.writingSecond h.toRound.ticking.given.canonical tied waits' seat c
    rw [h.toRound.ticking.writes writes]
    have start : Yields i t (t.giveTick (some c)) := .of_moves (.giveTick t _)
    refine Yields.trans (start.trans step) (.of_moves (.giveTick _ _))
  refine yields.resolve_left fun same => ?_
  obtain ⟨-, f, there, -, -, seat'⟩ := waits
  obtain ⟨x, -, taken⟩ := h.tied.seat_of there (seat'.trans seat)
  rw [← same] at taken
  obtain ⟨f', there', names, -⟩ := (h.tied.passTick h.canonical c).entry_of taken
  obtain rfl := Option.some.inj (after.symm.trans there')
  rw [gone] at names
  cases names

/-- Seat `i` is HELD for the candidate of slot `k`, whose entry `e` is ALLOCATED to it, with `m` seconds to run, and the hall
is not held. -/
structure HeldFor (u : State) (i k m : Nat) (e : Entry) : Prop where
  found : u.entry k = some e
  allocated : e.state = .allocated
  seat : e.seat = some i
  occ : (u.seat i).occ = .held k m
  free : u.time.held = false

/-- The hold runs: `b` says whether the seat allocator has taken the tick. -/
def HoldRuns (u : State) (i k m : Nat) (e : Entry) (b : Bool) (t : State) : Prop :=
  if b = true ∧ m ≤ 1 then (t.seat i).freed ∧ Awaits k e.expired t ∧ Category.seatingExpired ∈ t.office.flags
  else t.seat i = (if b then (u.seat i).second false else u.seat i) ∧ Awaits k e t

/-- What the state at turn `n` leaves of the seat: it is free once admission has closed, and else its hold runs. -/
def HoldAt (u : State) (i k m : Nat) (e : Entry) (b : Bool) (n : Nat) (t : State) : Prop :=
  if e.channel < n ∧ u.closesSecond e.channel = true then (t.seat i).freed else HoldRuns u i k m e b t

namespace HeldFor

variable (own : HeldFor u i k m e)
include own

theorem second : (u.seat i).second false =
    if m ≤ 1 then { u.seat i with occ := .free, closing := .none } else { u.seat i with occ := .held k (m - 1) } := by
  unfold Seat.second
  rw [own.occ]
  dsimp only
  rw [if_neg Bool.false_ne_true]

theorem start : HoldAt u i k m e false 0 (u.onTime TimeBase.second) := by
  unfold HoldAt HoldRuns
  rw [if_neg (by omega), if_neg (by simp)]
  exact ⟨rfl, by rw [own.allocated]; rfl, e, own.found, rfl, rfl, rfl⟩

theorem seats (h : Course u n t) (p : HoldRuns u i k m e false t) : HoldRuns u i k m e true t.tickSeats := by
  have time : t.time.held = false := by rw [h.time]; exact own.free
  have after := State.seat_tickSeats h.canonical i
  unfold HoldRuns at p ⊢
  rw [if_neg (by simp), if_neg Bool.false_ne_true] at p
  obtain ⟨stands, out, e', there, channel, state, names⟩ := p
  have tied := h.tied.tickSeats.1
  have waited := h.tied.tickSeats.2 e'.channel k e' there rfl
  rw [time, stands, own.second] at after
  by_cases last : m ≤ 1
  · rw [if_pos last] at after
    rw [if_pos ⟨rfl, last⟩]
    have gone : t.tickSeats.entry k = some e'.expired := (waited.resolve_left fun same => by
      obtain ⟨x, -, taken⟩ := tied.seat_of same (names.trans own.seat)
      rw [after] at taken
      cases taken).2
    exact ⟨by rw [after]; exact ⟨rfl, rfl⟩, ⟨rfl, _, gone, channel, rfl, rfl⟩,
      State.flag_tickSeats h.canonical (by rw [stands]; exact own.occ) last time⟩
  · rw [if_neg last] at after
    rw [if_neg fun x => last x.2]
    have stays : t.tickSeats.entry k = some e' := waited.resolve_right fun gone => by
      obtain ⟨f, there', place, -⟩ := tied.entry_of (i := i) (k := k) (x := false) (by rw [after]; rfl)
      obtain rfl := Option.some.inj (gone.2.symm.trans there')
      cases place
    refine ⟨?_, out, e', stays, channel, state, names⟩
    rw [if_pos rfl, own.second, if_neg last, after]

theorem pass {b : Bool} (h : Course u n t) (open' : n = e.channel → u.closesSecond e.channel = false)
    (p : HoldRuns u i k m e b t) : HoldRuns u i k m e b (t.passTick n) := by
  have waits {f : Entry} (same : f.channel = e.channel) (w : Awaits k f t) : Awaits k f (t.passTick n) := by
    by_cases here : n = e.channel
    · subst here; exact h.awaits_pass (open' rfl) w
    · exact h.awaits_other (by rw [same]; exact here) w
  unfold HoldRuns at p ⊢
  split at p <;> rename_i ran
  · obtain ⟨gone, w, told⟩ := p
    rw [if_pos ran, h.untaken_pass (by rw [gone.1]; rfl)]
    exact ⟨gone, waits rfl w, (Moves.passTick t n).raised _ told⟩
  · obtain ⟨stands, w⟩ := p
    rw [if_neg ran]
    obtain ⟨-, e', there, -, -, names⟩ := waits rfl w
    have stays := (Confined.passTick (c := n) h.canonical).seat_stays (h.tied.passTick h.canonical n) there
      (names.trans own.seat)
    exact ⟨stays.trans stands, waits rfl w⟩

theorem freed_pass {b : Bool} (h : Course u e.channel t) (closes : u.closesSecond e.channel = true)
    (p : HoldRuns u i k m e b t) : ((t.passTick e.channel).seat i).freed := by
  unfold HoldRuns at p
  split at p
  · obtain ⟨gone, -⟩ := p
    rw [h.untaken_pass (by rw [gone.1]; rfl)]
    exact gone
  · exact h.closes_frees closes own.found rfl p.2 own.seat

/-- What a second tick leaves of a HELD seat. -/
theorem secondTick (canonical : u.canonical = true) (tied : SeatsTied u) (o : TickOrder) :
    HoldAt u i k m e true 16 (u.secondTick o) := by
  refine (State.secondTick_course (P := HoldAt u i k m e) canonical tied o own.start (fun t n h p => ?_)
    (fun b t n h p => ?_) fun b t n _ h p => ?_).2
  · unfold HoldAt at p ⊢
    split at p <;> rename_i closed
    · rw [if_pos closed, State.seat_tickSeats h.canonical, Seat.second_free p.1]
      exact p
    · rw [if_neg closed]; exact own.seats h p
  · have m' := Moves.tickSignals t
    unfold HoldAt HoldRuns at p ⊢
    rw [m'.frame.seat]
    split at p <;> rename_i closed
    · rw [if_pos closed]; exact p
    · rw [if_neg closed]
      split at p <;> rename_i ran
      · rw [if_pos ran]; exact ⟨p.1, p.2.1.move m', m'.raised _ p.2.2⟩
      · rw [if_neg ran]; exact ⟨p.1, p.2.move m'⟩
  · unfold HoldAt at p ⊢
    by_cases closes : u.closesSecond e.channel = true
    · by_cases past : e.channel < n
      · rw [if_pos ⟨past, closes⟩] at p
        rw [if_pos ⟨by omega, closes⟩, h.untaken_pass (by rw [p.1]; rfl)]
        exact p
      · rw [if_neg fun x => past x.1] at p
        by_cases here : n = e.channel
        · subst here
          rw [if_pos ⟨by omega, closes⟩]
          exact own.freed_pass h closes p
        · rw [if_neg fun x => here (by omega)]
          exact own.pass h (fun x => absurd x here) p
    · rw [if_neg fun x => closes x.2] at p ⊢
      exact own.pass h (fun _ => by simpa using closes) p

end HeldFor

/-! ## Seats that no candidate takes, and a held hall -/

/-- A seat that is not taken counts with the seat allocator alone. -/
theorem State.secondTick_untaken (canonical : u.canonical = true) (tied : SeatsTied u) (o : TickOrder)
    (free : (u.seat i).occ.taken = none) : (u.secondTick o).seat i = (u.seat i).second u.time.held := by
  have still : ((u.seat i).second u.time.held).occ.taken = none := by
    rcases Seat.taken_second (u.seat i) u.time.held with same | ⟨-, k, -, gone⟩
    · exact same.trans free
    · exact gone
  have after := (State.secondTick_course
    (P := fun b _ t => t.seat i = if b then (u.seat i).second u.time.held else u.seat i) canonical tied o rfl
    (fun t n h p => ?_) (fun b t n h p => ?_) fun b t n _ h p => ?_).2
  · exact after
  · rw [if_neg Bool.false_ne_true] at p
    have held : t.time.held = u.time.held := by rw [h.time]; rfl
    rw [State.seat_tickSeats h.canonical, p, held, if_pos rfl]
  · rw [(Moves.tickSignals t).frame.seat]; exact p
  · rw [h.untaken_pass, p]
    rw [p]
    split
    · exact still
    · exact free

end Sys2Proof.Machine
end

section
/-! PROOF. What a second tick leaves of every seat, as R43, R85 to R87 and R91 state it together. -/

namespace Sys2Proof.Machine

set_option Elab.async false

variable {s t u : State} {i k m n : Nat} {e : Entry}

/-- Seat `i` stands as it stood, and the candidate of slot `k` is still awaited. -/
structure Waits (u : State) (i k : Nat) (e : Entry) (t : State) : Prop where
  seat : t.seat i = u.seat i
  awaits : Awaits k e t

theorem Waits.pass (h : Course u n t) (open' : n = e.channel → u.closesSecond e.channel = false) (own : e.seat = some i)
    (w : Waits u i k e t) : Waits u i k e (t.passTick n) := by
  have after : Awaits k e (t.passTick n) := by
    by_cases here : n = e.channel
    · subst here; exact h.awaits_pass (open' rfl) w.awaits
    · exact h.awaits_other here w.awaits
  obtain ⟨e', there, -, -, names⟩ := after.there
  have stays := (Confined.passTick (c := n) h.canonical).seat_stays (h.tied.passTick h.canonical n) there (names.trans own)
  exact ⟨stays.trans w.seat, after⟩

theorem Waits.seats (h : Course u n t) (held : t.time.held = true)
    (occ : (u.seat i).occ = .held k m) (w : Waits u i k e t) : Waits u i k e t.tickSeats := by
  have after : t.tickSeats.seat i = u.seat i := by
    rw [State.seat_tickSeats h.canonical, w.seat, held, Seat.second, occ]
    dsimp only
    rw [if_pos rfl]
  obtain ⟨out, e', there, channel, state, names⟩ := w.awaits
  obtain ⟨tied, waiting⟩ := h.tied.tickSeats
  refine ⟨after, out, e', (waiting e'.channel k e' there rfl).resolve_right fun gone => ?_, channel, state, names⟩
  obtain ⟨f, there', place, -⟩ := tied.entry_of (i := i) (k := k) (x := false) (by rw [after, occ]; rfl)
  obtain rfl := Option.some.inj (gone.2.symm.trans there')
  cases place

/-- While the hall is held a HELD seat does not change. -/
theorem State.secondTick_paused (canonical : u.canonical = true) (tied : SeatsTied u) (o : TickOrder)
    (found : u.entry k = some e) (out : e.state.isOut = true) (own : e.seat = some i) (occ : (u.seat i).occ = .held k m)
    (held : u.time.held = true) : (u.secondTick o).seat i = u.seat i := by
  have open' : u.closesSecond e.channel = false := by simp [State.closesSecond, State.writesSecond, held]
  have after := (State.secondTick_course (P := fun _ _ => Waits u i k e) canonical tied o ⟨rfl, out, e, found, rfl, rfl, rfl⟩
    (fun t n h w => w.seats h (by rw [h.time]; exact held) occ)
    (fun b t n h w => ⟨((Moves.tickSignals t).frame.seat i).trans w.seat, w.awaits.move (Moves.tickSignals t)⟩)
    fun b t n _ h w => w.pass h (fun _ => open') own).2
  exact after.seat

/-- Seats by what stands in them. -/
theorem SeatsTied.held_entry (tied : SeatsTied s) (occ : (s.seat i).occ = .held k m) (found : s.entry k = some e) :
    e.state = .allocated ∧ e.seat = some i := by
  obtain ⟨f, there, place, state⟩ := tied.entry_of (i := i) (k := k) (x := false) (by rw [occ]; rfl)
  obtain rfl := Option.some.inj (found.symm.trans there)
  exact ⟨EntryState.sits_false state, place⟩

theorem SeatCounted.secondTick (canonical : u.canonical = true) (tied : SeatsTied u)
    (known : ∀ k e, u.entry k = some e → e.channel ≤ 15) (o : TickOrder) (i : Nat) : SeatCounted u (u.secondTick o) i := by
  unfold SeatCounted
  split
  · rename_i k m occ
    intro e found
    obtain ⟨allocated, own⟩ := tied.held_entry occ found
    split
    · rename_i held
      exact State.secondTick_paused canonical tied o found (by rw [allocated]; rfl) own occ held
    · rename_i free
      have low : e.channel < 16 := Nat.lt_succ_of_le (known k e found)
      have at16 := (HeldFor.mk found allocated own occ (by simpa using free)).secondTick canonical tied o
      have second := (HeldFor.mk found allocated own occ (by simpa using free)).second
      generalize u.secondTick o = v at at16 ⊢
      unfold HoldAt HoldRuns at at16
      split at at16 <;> rename_i closes
      · rw [if_pos closes.2]; exact at16
      · rw [if_neg fun x => closes ⟨low, x⟩]
        split at at16 <;> rename_i ran
        · obtain ⟨gone, ⟨-, e', there, -, state, place⟩, told⟩ := at16
          rw [if_pos ran.2]
          exact ⟨gone.1, gone.2, told, e', there, state, place⟩
        · rw [if_neg fun x => ran ⟨rfl, x⟩, at16.1, if_pos rfl, second, if_neg fun x => ran ⟨rfl, x⟩]
  · rename_i m occ
    have after := State.secondTick_untaken (i := i) canonical tied o (by rw [occ]; rfl)
    generalize u.secondTick o = v at after ⊢
    rw [after, Seat.second, occ]
    dsimp only
    split
    · exact ⟨rfl, rfl⟩
    · rfl
  · trivial

/-- What the seats show before and after is that of equal states. -/
theorem SeatCounted.settle {v : State} (h : SeatCounted s v i) : SeatCounted s v.settle i := by
  have m := Moves.settle v
  have seat := m.frame.seat i
  unfold SeatCounted at h ⊢
  split
  · rename_i k n occ
    intro e found
    simp only [occ] at h
    have h := h e found
    rw [seat]
    split <;> rename_i held
    · rwa [if_pos held] at h
    · rw [if_neg held] at h
      split <;> rename_i closes
      · rwa [if_pos closes] at h
      · rw [if_neg closes] at h
        split <;> rename_i last
        · rw [if_pos last] at h
          obtain ⟨free, closing, told, e', there, rest⟩ := h
          exact ⟨free, closing, m.raised _ told, e', (m.frame.entry k).trans there, rest⟩
        · rwa [if_neg last] at h
  · rename_i n occ
    simp only [occ] at h
    rw [seat]
    exact h
  · trivial

theorem Readied.seatCounted (h : Readied s u) {v : State} (counted : SeatCounted u v i) : SeatCounted s v i := by
  unfold SeatCounted at counted ⊢
  rw [h.seat, h.held] at counted
  simp only [h.entry, h.closesSecond] at counted
  exact counted

end Sys2Proof.Machine
end

section
/-! PROOF. What a second tick does to the candidates of other slots leaves a candidate's warning pending, and the mark of the
desk it stays at (R57, R110, R111). -/

namespace Sys2Proof.Machine

set_option Elab.async false

variable {s t u : State} {c i j k n : Nat} {e : Entry}

/-- The warning pending of slot `k` stands, and the mark of the desk of seat `i` while slot `k` occupies it. -/
structure Spares (i k : Nat) (s t : State) : Prop where
  desk : (t.seat i).occ = .occupied k → (s.seat i).occ = .occupied k ∧
    (seatAddr i ∈ (s.line (seatLine i)).marks → seatAddr i ∈ (t.line (seatLine i)).marks)
  told : mapGet t.warnings k = mapGet s.warnings k

namespace Spares

theorem refl (s : State) : Spares i k s s := ⟨fun h => ⟨h, id⟩, rfl⟩

theorem trans (h : Spares i k s t) (g : Spares i k t u) : Spares i k s u :=
  ⟨fun stays => ⟨(h.desk (g.desk stays).1).1, (g.desk stays).2 ∘ (h.desk (g.desk stays).1).2⟩, g.told.trans h.told⟩

theorem ite {p : Prop} [Decidable p] (h : Spares i k s t) (g : Spares i k s u) : Spares i k s (if p then t else u) := by
  split
  · exact h
  · exact g

theorem fold {α : Type} {f : State → α → State} (h : ∀ t x, Spares i k t (f t x)) (xs : List α) (s : State) :
    Spares i k s (xs.foldl f s) :=
  foldl_invariant (fun t => Spares i k s t) f (fun t x ih => ih.trans (h t x)) xs s (.refl s)

/-- The seats, the lines and the warnings stand. -/
theorem of_same (seat : ∀ m, t.seat m = s.seat m := by exact fun _ => rfl) (line : ∀ m, t.line m = s.line m := by exact fun _ => rfl)
    (told : t.warnings = s.warnings := by rfl) : Spares i k s t :=
  ⟨fun stays => ⟨by rw [seat] at stays; exact stays, by rw [line]; exact id⟩, by rw [told]⟩

/-! ## Operations on the state -/

theorem onChan (s : State) (c : Nat) (f : Channel → Channel) : Spares i k s (s.onChan c f) := .of_same

theorem onTime (s : State) (f : TimeBase → TimeBase) : Spares i k s (s.onTime f) := .of_same

theorem putEntry (s : State) (j : Nat) (e : Entry) : Spares i k s (s.putEntry j e) := .of_same

theorem onEntry (s : State) (j : Nat) (f : Entry → Entry) : Spares i k s (s.onEntry j f) :=
  .of_same (fun m => s.seat_onEntry j f m) (fun m => s.line_onEntry j f m) (s.onEntry_warnings j f)

theorem notify (s : State) (x : Subject) : Spares i k s (s.notify x) := .of_same

theorem enterPhase (s : State) (c : Nat) (x : ChanState) : Spares i k s (s.enterPhase c x) := (onChan s c _).trans (.notify _ _)

theorem dropWarning (s : State) (other : j ≠ k) : Spares i k s (s.dropWarning j) :=
  ⟨fun stays => ⟨stays, id⟩, by rw [State.dropWarning, mapGet_mapErase, if_neg other]⟩

theorem warn (s : State) (other : j ≠ k) (left : Nat) : Spares i k s { s with warnings := mapPut s.warnings j left } :=
  ⟨fun stays => ⟨stays, id⟩, by
    show mapGet (mapPut s.warnings j left) k = _
    rw [mapGet_mapPut, if_neg other]⟩

theorem onLine (s : State) (l : Nat) {f : Line → Line} (keeps : ∀ n : Line, ∀ a ∈ n.marks, a ∈ (f n).marks) :
    Spares i k s (s.onLine l f) := by
  refine ⟨fun stays => ⟨stays, fun marked => ?_⟩, rfl⟩
  rw [State.line_onLine]
  split
  · next own => rw [own]; exact keeps _ _ marked
  · exact marked

theorem setMark (s : State) (j : Nat) : Spares i k s (s.setMark j) := .onLine s _ fun n a marked => by
  unfold Line.setMark
  split
  · exact marked
  · dsimp only
    split
    · exact marked
    · exact List.mem_append_left _ marked

theorem queueNote (s : State) (l a : Nat) (x : NoteContent) : Spares i k s (s.queueNote l a x) :=
  .onLine s l fun n b marked => by
    unfold Line.queueNote
    split <;> exact marked

theorem noteSeat (s : State) (j : Nat) (x : NoteContent) : Spares i k s (s.noteSeat j x) := .queueNote s _ _ x

theorem markEntry (s : State) (j : Nat) : Spares i k s (s.markEntry j) := by
  unfold State.markEntry
  split
  · exact .setMark s _
  · exact .refl s

/-- Only a seat that is no longer occupied loses its mark. -/
theorem vacate (s : State) (j : Nat) {f : Seat → Seat} (gone : ∀ r, (f r).occ ≠ .occupied k) :
    Spares i k s ((s.onSeat j f).settleMark j) := by
  have told : ((s.onSeat j f).settleMark j).warnings = s.warnings := by unfold State.settleMark; split <;> rfl
  refine ⟨fun stays => ?_, by rw [told]⟩
  rw [(Moves.settleMark _ j).frame.seat, State.seat_onSeat] at stays
  split at stays
  · exact absurd stays (gone _)
  · next other =>
    refine ⟨stays, fun marked => ?_⟩
    unfold State.settleMark
    split
    · exact marked
    · unfold State.dropMark
      rw [State.line_onLine]
      split
      · next here =>
        refine List.mem_filter.2 ⟨by rw [here]; exact marked, decide_eq_true fun same => other (seatPlace_inj.1 ⟨here, same.symm⟩)⟩
      · exact marked

theorem freeSeat (s : State) (j : Nat) : Spares i k s (s.freeSeat j) := .vacate s j fun _ => nofun

theorem clearSeat (s : State) (j : Nat) (w : ClosingWord) : Spares i k s (s.clearSeat j w) :=
  .ite (.freeSeat s j) (.vacate s j fun _ => nofun)

theorem releaseHold (s : State) (j : Nat) : Spares i k s (s.releaseHold j) := (freeSeat s j).trans (.noteSeat _ j _)

/-- The seat becomes what no candidate occupies. -/
theorem onSeat (s : State) (j : Nat) {f : Seat → Seat} (gone : ∀ r, (f r).occ ≠ .occupied k) : Spares i k s (s.onSeat j f) := by
  refine ⟨fun stays => ?_, rfl⟩
  rw [State.seat_onSeat] at stays
  split at stays
  · exact absurd stays (gone _)
  · exact ⟨stays, id⟩

/-! ## One slot, one seat -/

theorem reconcile (s : State) (c : Nat) : Spares i k s (s.reconcile c) := .ite (.enterPhase s c _) (.refl s)

theorem enterCollecting (s : State) (c : Nat) : Spares i k s (s.enterCollecting c) := (enterPhase s c _).trans (.reconcile _ c)

theorem collectTest (s : State) (j : Nat) : Spares i k s (s.collectTest j) := by
  unfold State.collectTest
  split
  · exact .ite ((onEntry s j _).trans (.reconcile _ _)) (.refl s)
  · exact .refl s

theorem overtimeTest (s : State) (c : Nat) : Spares i k s (s.overtimeTest c) := .ite (.enterCollecting s c) (.refl s)

theorem depart (s : State) (other : j ≠ k) (w : ClosingWord) : Spares i k s (s.depart j w) := by
  unfold State.depart
  cases found : s.entry j with
  | none => exact .refl s
  | some e =>
    dsimp only
    generalize hu : State.dropWarning (s.onEntry j _) j = u
    have start : Spares i k s u := hu ▸ (onEntry s j _).trans (.dropWarning _ other)
    cases e.seat with
    | none => exact start.trans ((collectTest u j).trans (.overtimeTest _ _))
    | some m =>
      have cleared := start.trans (.clearSeat u m w)
      dsimp only
      generalize u.clearSeat m w = x at cleared ⊢
      exact (cleared.trans (.ite (.setMark x m) (.refl x))).trans ((collectTest _ j).trans (.overtimeTest _ _))

theorem warnTest (s : State) (other : j ≠ k) : Spares i k s (s.warnTest j) := by
  unfold State.warnTest
  cases s.entry j with
  | none => exact .refl s
  | some e =>
    dsimp only
    have warned : Spares i k s (if e.allowed - e.written ∈ (s.chan e.channel).config.warnings then
        State.markEntry { s with warnings := mapPut s.warnings j (e.allowed - e.written) } j else s) :=
      .ite ((warn s other _).trans (.markEntry _ j)) (.refl s)
    generalize (if e.allowed - e.written ∈ (s.chan e.channel).config.warnings then
        State.markEntry { s with warnings := mapPut s.warnings j (e.allowed - e.written) } j else s) = w at warned ⊢
    exact .ite (.ite (warned.trans (.markEntry w j)) warned) (.refl s)

theorem exhaust (s : State) (j : Nat) : Spares i k s (s.exhaust j) := by
  unfold State.exhaust
  cases s.entry j with
  | none => exact .refl s
  | some e => exact ((onEntry s j _).trans (.notify _ _)).trans (.markEntry _ j)

theorem countEntry (s : State) (other : j ≠ k) : Spares i k s (s.countEntry j) := by
  unfold State.countEntry
  cases s.entry j with
  | none => exact .refl s
  | some e =>
    dsimp only
    have put := putEntry (i := i) (k := k) s j e.count
    exact .ite (.ite (.ite (put.trans (.exhaust _ j)) put)
      (.ite (put.trans (.depart _ other _)) (put.trans (.warnTest _ other)))) (.refl s)

theorem startWriter (s : State) (other : j ≠ k) : Spares i k s (s.startWriter j) :=
  ((onEntry s j _).trans (.dropWarning _ other)).trans (.markEntry _ j)

theorem recompute (s : State) (w : Nat) (other : j ≠ k) : Spares i k s (s.recompute w j) := by
  have entry := onEntry (i := i) (k := k) s j fun e => { e with allowed := allowedSeconds w e.percent }
  exact .ite ((entry.trans (.markEntry _ j)).trans (.warnTest _ other)) entry

theorem shutOut (s : State) (j : Nat) : Spares i k s (s.shutOut j) := by
  unfold State.shutOut
  cases s.entry j with
  | none => exact .refl s
  | some e =>
    dsimp only
    cases e.seat with
    | none => exact .onEntry s j _
    | some m => exact (Spares.ite (.releaseHold s m) (.refl s)).trans (.onEntry _ j _)

theorem tickSeat (s : State) (j : Nat) : Spares i k s (s.tickSeat j) := by
  have held (m : Nat) {f : Seat → Seat} (gone : ∀ r, (f r).occ ≠ .occupied k) : Spares i k s ((s.onSeat j f).expire j m) :=
    (onSeat s j gone).trans (((releaseHold _ j).trans (.onEntry _ m _)).trans (.notify _ _))
  have clearing {f : Seat → Seat} (gone : ∀ r, (f r).occ ≠ .occupied k) : Spares i k s ((s.onSeat j f).endClearing j) :=
    (onSeat s j gone).trans ((freeSeat _ j).trans (.noteSeat _ j _))
  unfold State.tickSeat
  split
  · exact .ite (.refl s) (.ite (held _ fun _ => nofun) (.onSeat s j fun _ => nofun))
  · exact .ite (clearing fun _ => nofun) (.onSeat s j fun _ => nofun)
  · exact .refl s

theorem tickSeats (s : State) : Spares i k s s.tickSeats := .fold tickSeat _ s

theorem tickSignals (s : State) : Spares i k s s.tickSignals := .fold (fun _ _ => .of_same) _ s

/-! ## What a channel does that touches no warning -/

theorem dropAmendment (s : State) (c : Nat) : Spares i k s (s.dropAmendment c) := by
  unfold State.dropAmendment
  split
  · exact (onChan s c _).trans (.notify _ _)
  · exact .refl s

theorem closeOnce (s : State) (c : Nat) : Spares i k s (s.closeOnce c) :=
  .ite (.refl s) (((onChan s c _).trans (.fold shutOut _ _)).trans (.notify _ _))

theorem endBase (s : State) (c : Nat) : Spares i k s (s.endBase c) := by
  have shut : Spares i k s ((s.closeOnce c).dropAmendment c) := (closeOnce s c).trans (.dropAmendment _ c)
  exact .ite (shut.trans (.enterPhase _ c _)) (shut.trans (.enterCollecting _ c))

theorem secondClose (s : State) (c : Nat) : Spares i k s (s.secondClose c) := .ite (.closeOnce s c) (.refl s)

theorem secondBase (s : State) (c : Nat) : Spares i k s (s.secondBase c) := .ite (.endBase s c) (.refl s)

theorem timedAttempt (s : State) (c : Nat) : Spares i k s (s.timedAttempt c) := by
  unfold State.timedAttempt
  split
  · exact .enterPhase s c _
  · exact (onChan s c _).trans (.notify _ _)

end Spares

/-! ## The turn of another channel -/

/-- Slot `k` is in use in a channel other than `c`. -/
def State.elsewhere (s : State) (k c : Nat) : Prop := ∃ e, s.entry k = some e ∧ e.channel ≠ c

theorem State.elsewhere.confined (h : s.elsewhere k c) (conf : Confined c s t) : t.elsewhere k c := by
  obtain ⟨e, found, other⟩ := h
  exact ⟨e, conf.other found other, other⟩

/-- A fold over slots of the channel, each of which spares the others. -/
theorem Spares.slots {f : State → Nat → State} (h : s.elsewhere k c) (rises : mapRises 0 s.roster = true)
    (p : EntryState → Bool) (step : ∀ t j, j ≠ k → Spares i k t (f t j)) : Spares i k s ((s.slotsIn c p).foldl f s) := by
  have apart : ∀ j ∈ s.slotsIn c p, j ≠ k := by
    rintro j listed rfl
    obtain ⟨e, found, other⟩ := h
    obtain ⟨e', found', own, -⟩ := (State.mem_slotsIn rises).1 listed
    obtain rfl := Option.some.inj (found.symm.trans found')
    exact other own
  have run : ∀ (xs : List Nat), (∀ j ∈ xs, j ≠ k) → ∀ t, Spares i k t (xs.foldl f t) := by
    intro xs
    induction xs with
    | nil => exact fun _ t => .refl t
    | cons x xs ih =>
      intro listed t
      exact (step t x (listed x List.mem_cons_self)).trans (ih (fun j h => listed j (List.mem_cons_of_mem _ h)) _)
  exact run _ apart s

namespace Spares

theorem countChannel (h : s.elsewhere k c) (rises : mapRises 0 s.roster = true) : Spares i k s (s.countChannel c) :=
  .slots h rises _ fun t _ other => .countEntry t other

theorem applyPending (h : s.elsewhere k c) (rises : mapRises 0 s.roster = true) : Spares i k s (s.applyPending c) := by
  unfold State.applyPending
  split
  · have recomputed (f : Channel → Channel) (w : Nat) : Spares i k s ((s.onChan c f).recomputeAll c w) :=
      (onChan s c f).trans (.slots (s := s.onChan c f) h rises _ fun t _ other => .recompute t w other)
    exact .ite (.dropAmendment s c) ((recomputed _ _).trans (.notify _ _))
  · exact .refl s

theorem startWriting (h : s.elsewhere k c) (canonical : s.canonical = true) : Spares i k s (s.startWriting c) := by
  have rises := State.roster_rises canonical
  have begun : Spares i k s ((s.onChan c fun ch => { ch with state := .writing, writeElapsed := 0 }).startWriters c) :=
    (onChan s c _).trans (.slots (s := s.onChan c _) h rises _ fun t _ other => .startWriter t other)
  have conf : Confined c s ((s.onChan c fun ch => { ch with state := .writing, writeElapsed := 0 }).startWriters c) :=
    (Confined.onChan s c _).next (.startWriters (s := s.onChan c _) rises)
  have m : Moves [.channels, .roster] s ((s.onChan c fun ch => { ch with state := .writing, writeElapsed := 0 }).startWriters c) :=
    (Moves.onChan s c _).widen.next (.startWriters _ c)
  unfold State.startWriting
  generalize (s.onChan c fun ch => { ch with state := .writing, writeElapsed := 0 }).startWriters c = v at begun conf m
  exact (begun.trans (.applyPending (h.confined conf) (State.rises_next m canonical))).trans (.notify _ _)

theorem startChannel (h : s.elsewhere k c) (canonical : s.canonical = true) : Spares i k s (s.startChannel c) :=
  .ite (((onChan s c _).trans (.enterPhase _ c _)).trans (.fold markEntry _ _)) (.startWriting h canonical)

theorem readingSecond (h : s.elsewhere k c) (canonical : s.canonical = true) : Spares i k s (s.readingSecond c) := by
  have read : Spares i k s ((s.onChan c fun ch => { ch with readElapsed := ch.readElapsed + 1 }).readingMarks c) :=
    (onChan s c _).trans (.ite (.fold markEntry _ _) (.refl _))
  have m : Moves [.channels] s ((s.onChan c fun ch => { ch with readElapsed := ch.readElapsed + 1 }).readingMarks c) :=
    (Moves.onChan s c _).next (.readingMarks _ c)
  unfold State.readingSecond
  dsimp only
  generalize (s.onChan c fun ch => { ch with readElapsed := ch.readElapsed + 1 }).readingMarks c = v at read m
  have h' : v.elsewhere k c := by
    obtain ⟨e, found, other⟩ := h
    exact ⟨e, (m.frame.entry k).trans found, other⟩
  exact .ite (read.trans (.startWriting h' (m.canonical canonical))) read

theorem writingSecond (h : s.elsewhere k c) (canonical : s.canonical = true) : Spares i k s (s.writingSecond c) := by
  have rises := State.rises_next (Moves.onChan s c fun ch => { ch with writeElapsed := ch.writeElapsed + 1 }) canonical
  have amended : Spares i k s (s.amended43 c) :=
    (onChan s c _).trans (.ite (.applyPending (s := s.onChan c _) h rises) (.refl _))
  have conf : Confined c s (s.amended43 c) := (Confined.onChan s c _).next (.secondAmendment (s := s.onChan c _) rises)
  have m := Moves.amended43 s c
  rw [State.writingSecond_eq']
  unfold State.counted43
  generalize s.amended43 c = v at amended conf m
  have counted := amended.trans (.countChannel (h.confined conf) (State.rises_next m canonical))
  exact (counted.trans (.secondClose _ c)).trans (.secondBase _ c)

theorem tickChannel (h : s.elsewhere k c) (canonical : s.canonical = true) : Spares i k s (s.tickChannel c) := by
  unfold State.tickChannel
  split
  · exact .ite (.timedAttempt s c) (.refl s)
  · exact .ite (.startChannel h canonical) (.refl s)
  · exact .ite (.onChan s c _) (.readingSecond h canonical)
  · exact .ite (.onChan s c _) (.writingSecond h canonical)
  · exact .ite (.onChan s c _) (.writingSecond h canonical)
  · exact .refl s

theorem passTick (h : s.elsewhere k c) (canonical : s.canonical = true) : Spares i k s (s.passTick c) := by
  have given := (Moves.giveTick s (some c)).canonical canonical
  have start : Spares i k s (s.giveTick (some c)) := .of_same
  exact (start.trans (.tickChannel h given)).trans .of_same

end Spares

end Sys2Proof.Machine
end

section
/-! PROOF. What a writing second leaves of the warning pending of a candidate and of the mark of its desk (R74, R75). -/

namespace Sys2Proof.Machine

set_option Elab.async false

variable {s t u : State} {c i j k n : Nat} {e : Entry}

/-! ## The tests of one entry -/

theorem State.markEntry_eq (found : s.entry k = some e) (own : e.seat = some i) : s.markEntry k = s.setMark i := by
  rw [State.markEntry, found, Option.bind_some, own]

theorem State.marked_setMark (loud : (s.line (seatLine i)).state ≠ .quiet) :
    seatAddr i ∈ ((s.setMark i).line (seatLine i)).marks := by
  rw [State.setMark, State.line_onLine, if_pos rfl]
  exact Line.mem_setMark _ loud

theorem State.marked_again (s : State) (marked : seatAddr i ∈ (s.line (seatLine i)).marks) :
    seatAddr i ∈ ((s.setMark i).line (seatLine i)).marks := by
  by_cases quiet : (s.line (seatLine i)).state = .quiet
  · rw [State.setMark, State.line_onLine, if_pos rfl, Line.setMark, if_pos quiet]
    exact marked
  · exact State.marked_setMark quiet

/-- The tests of R75 for a candidate that has time left. -/
theorem State.warnTest_tests (found : s.entry k = some e) (writer : e.state.isWriting = true) (own : e.seat = some i)
    (more : e.written < e.allowed) :
    mapGet (s.warnTest k).warnings k = (if e.allowed - e.written ∈ (s.chan e.channel).config.warnings
      then some (e.allowed - e.written) else mapGet s.warnings k) ∧
    ((s.line (seatLine i)).state ≠ .quiet →
      e.allowed - e.written ∈ (s.chan e.channel).config.warnings ∨ (e.allowed - e.written) % 300 = 0 →
      seatAddr i ∈ ((s.warnTest k).line (seatLine i)).marks) := by
  have left : 0 < e.allowed - e.written := by omega
  unfold State.warnTest
  simp only [found, if_pos writer]
  generalize e.allowed - e.written = x at left ⊢
  have mark (v : State) (there : v.entry k = some e) : v.markEntry k = v.setMark i := State.markEntry_eq there own
  by_cases warns : x ∈ (s.chan e.channel).config.warnings
  · simp only [if_pos warns]
    generalize hv : ({ s with warnings := mapPut s.warnings k x } : State) = v
    have pending : mapGet v.warnings k = some x := by rw [← hv]; exact (mapGet_mapPut _ k k x).trans (if_pos rfl)
    have there : v.entry k = some e := hv ▸ found
    have state : (v.line (seatLine i)).state = (s.line (seatLine i)).state := hv ▸ rfl
    rw [mark v there, mark (v.setMark i) there, ← state]
    split
    · exact ⟨pending, fun loud _ => State.marked_again _ (State.marked_setMark loud)⟩
    · exact ⟨pending, fun loud _ => State.marked_setMark loud⟩
  · simp only [if_neg warns]
    split
    · rw [mark s found]
      exact ⟨rfl, fun loud _ => State.marked_setMark loud⟩
    · rename_i no
      exact ⟨rfl, fun _ due => absurd ⟨left, due.resolve_left warns⟩ no⟩

/-! ## One writing second -/

theorem State.config_countEntry (s : State) (j d : Nat) : ((s.countEntry j).chan d).config = (s.chan d).config := by
  cases found : s.entry j with
  | none => rw [State.countEntry, found]
  | some e =>
    have phase := OnePhase.countEntry s j e.channel fun e' h => by rw [found] at h; cases h; rfl
    by_cases own : d = e.channel
    · rw [own]; exact (congrArg Channel.config phase.clocks :)
    · rw [phase.others d own]

/-- The candidate of slot `k` writes at seat `i` in a second that takes one from its time, with time left. -/
structure Writes (u : State) (i k : Nat) (e : Entry) : Prop where
  found : u.entry k = some e
  seat : e.seat = some i
  counts : e.state = .writing ∨ e.state = .onBreak ∧ e.remaining = 0
  more : e.written + 1 < e.allowed

/-- What the count of slot `k` reads stands as in `u`. -/
structure Untold (u : State) (i k : Nat) (e : Entry) (t : State) : Prop where
  found : t.entry k = some e
  config : (t.chan e.channel).config = (u.chan e.channel).config
  line : (t.line (seatLine i)).state = (u.line (seatLine i)).state
  told : mapGet t.warnings k = mapGet u.warnings k

/-- Slot `k` has been counted: the warning pending and the mark follow the time left. -/
structure Tested (u : State) (i k : Nat) (e : Entry) (t : State) : Prop where
  told : mapGet t.warnings k = if e.allowed - (e.written + 1) ∈ (u.chan e.channel).config.warnings
    then some (e.allowed - (e.written + 1)) else mapGet u.warnings k
  marked : (u.line (seatLine i)).state ≠ .quiet →
    e.allowed - (e.written + 1) ∈ (u.chan e.channel).config.warnings ∨ (e.allowed - (e.written + 1)) % 300 = 0 →
    (t.seat i).occ = .occupied k → seatAddr i ∈ (t.line (seatLine i)).marks

theorem Tested.spared {v : State} (h : Tested u i k e t) (spares : Spares i k t v) : Tested u i k e v :=
  ⟨spares.told.trans h.told, fun loud due stays =>
    (spares.desk stays).2 (h.marked loud due (spares.desk stays).1)⟩

theorem Writes.writer (h : Writes u i k e) : e.state.isWriting = true := by
  rcases h.counts with x | ⟨x, -⟩ <;> rw [x] <;> rfl

theorem Untold.countEntry (h : Untold u i k e t) (own : Writes u i k e) : Tested u i k e (t.countEntry k) := by
  have running : ¬(e.state = .onBreak ∧ 0 < e.remaining) := fun ⟨paused, left⟩ => by
    rcases own.counts with x | ⟨-, spent⟩
    · rw [x] at paused; cases paused
    · omega
  have counted : e.count = { e with written := e.written + 1 } := by rw [Entry.count, if_neg running]
  have step : t.countEntry k = (t.putEntry k { e with written := e.written + 1 }).warnTest k := by
    unfold State.countEntry
    simp only [h.found, if_pos own.writer, if_neg running, counted, if_neg (Nat.not_le.2 own.more)]
  obtain ⟨told, marked⟩ := State.warnTest_tests (s := t.putEntry k { e with written := e.written + 1 })
    (e := { e with written := e.written + 1 }) (by rw [State.entry_putEntry, if_pos rfl]) (writer := own.writer) own.seat own.more
  rw [step]
  have config : ((t.putEntry k { e with written := e.written + 1 }).chan e.channel).config = (u.chan e.channel).config := h.config
  have before : mapGet (t.putEntry k { e with written := e.written + 1 }).warnings k = mapGet u.warnings k := h.told
  have state : ((t.putEntry k { e with written := e.written + 1 }).line (seatLine i)).state = (u.line (seatLine i)).state := h.line
  generalize t.putEntry k { e with written := e.written + 1 } = v at told marked config before state ⊢
  dsimp only at told marked
  rw [config, before] at told
  rw [config, state] at marked
  exact ⟨told, fun loud due _ => marked loud due⟩

theorem Untold.countChannel (h : Untold u i k e t) (own : Writes u i k e) (rises : mapRises 0 t.roster = true) :
    Tested u i k e (t.countChannel e.channel) :=
  foldl_split State.countEntry k (Untold u i k e) (Tested u i k e)
    (fun v j other h => ⟨by rw [State.countEntry_apart v other.symm]; exact h.found,
      (State.config_countEntry v j _).trans h.config, ((Posted.countEntry v j).state _).trans h.line,
      (Spares.countEntry (i := i) v other).told.trans h.told⟩)
    (fun v h => h.countEntry own) (fun v j other h => h.spared (.countEntry v other)) _
    (State.slotsIn_nodup rises e.channel _) ((State.mem_slotsIn rises).2 ⟨e, h.found, rfl, own.writer⟩) t h

/-- An amendment that is not due, or comes too late, leaves the warnings. -/
theorem Spares.amended43 (still : s.amendsSecond c = false) : Spares i k s (s.amended43 c) := by
  have start := Spares.onChan (i := i) (k := k) s c fun ch => { ch with writeElapsed := ch.writeElapsed + 1 }
  unfold State.amended43 State.secondAmendment State.applyPending
  rw [State.chan_onChan, if_pos rfl]
  dsimp only
  split
  · rename_i minute
    split
    · rename_i a pending
      refine start.trans ?_
      rw [if_pos]
      · exact .dropAmendment _ c
      · simp only [State.amendsSecond, pending, minute, Option.isSome_some, decide_true, Bool.true_and, decide_eq_false_iff_not]
          at still
        simp only [tooLate, decide_eq_true_eq]
        omega
    · exact start
  · exact start

theorem Untold.amended43 (h : Untold u i k e t) (own : Writes u i k e) (rises : mapRises 0 t.roster = true)
    (still : t.amendsSecond e.channel = false) : Untold u i k e (t.amended43 e.channel) := by
  have entry : (t.amended43 e.channel).entry k = some e := by
    rw [State.entry_amended43 rises, h.found, Option.map_some, if_pos rfl, Channel.retimedSecond_eq t own.writer, still]
    rfl
  have config : ((t.amended43 e.channel).chan e.channel).config = (t.chan e.channel).config := by
    rw [State.chan_amended43]
    exact (Channel.secondOn_fields _).2.2.2.1
  have posted : Posted t (t.amended43 e.channel) := (Posted.onChan t e.channel _).trans (.secondAmendment _ _)
  exact ⟨entry, config.trans h.config, (posted.state _).trans h.line, (Spares.amended43 (i := i) still).told.trans h.told⟩

/-- A writing second tests the candidate. -/
theorem Untold.writingSecond (h : Untold u i k e t) (own : Writes u i k e) (canonical : t.canonical = true)
    (still : t.amendsSecond e.channel = false) : Tested u i k e (t.writingSecond e.channel) := by
  have amended := h.amended43 own (State.roster_rises canonical) still
  have m := Moves.amended43 t e.channel
  rw [State.writingSecond_eq']
  unfold State.counted43
  generalize t.amended43 e.channel = v at amended m
  have counted := amended.countChannel own (State.rises_next m canonical)
  generalize v.countChannel e.channel = w at counted
  exact counted.spared ((Spares.secondClose w _).trans (.secondBase _ _))

end Sys2Proof.Machine
end

section
/-! PROOF. The warning pending and the mark of a candidate's desk through a second tick, and the settlement of the counts
that act at their ends (R61, R66, R74, R75, R85, R86, R91). -/

namespace Sys2Proof.Machine

set_option Elab.async false

variable {s t u v : State} {c i j k n : Nat} {e : Entry}

/-! ## The whole tick -/

/-- What turn `n` of a second tick leaves of the candidate: untold before the turn of its channel, then tested. -/
def WarnedAt (u : State) (i k : Nat) (e : Entry) (n : Nat) (t : State) : Prop :=
  if n ≤ e.channel then mapGet t.warnings k = mapGet u.warnings k
  else t.entry k = some (u.tallied e) ∧ Tested u i k e t

namespace Writes

variable (own : Writes u i k e)
include own

theorem seated : e.state ≠ .allocated := fun x => by
  have writer := own.writer
  rw [x] at writer
  cases writer

theorem stands (h : Course u n t) (early : n ≤ e.channel) : t.entry k = some e :=
  (h.waits e.channel early).stands own.found rfl own.seated

theorem elsewhere (h : Course u n t) (at_ : WarnedAt u i k e n t) (other : e.channel ≠ n) : t.elsewhere k n := by
  unfold WarnedAt at at_
  split at at_
  · rename_i early
    exact ⟨e, own.stands h early, other⟩
  · exact ⟨_, at_.1, by rw [(u.tallied_come own.writer).2.2]; exact other⟩

/-- The turn of the candidate's channel. -/
theorem own_turn (h : Course u e.channel t) (writes : u.writesSecond e.channel = true) (still : u.amendsSecond e.channel = false)
    (told : mapGet t.warnings k = mapGet u.warnings k) : Tested u i k e (t.passTick e.channel) := by
  have given := h.toRound.ticking.given
  have there : t.entry k = some e := own.stands h (Nat.le_refl _)
  have untold : Untold u i k e (t.giveTick (some e.channel)) :=
    ⟨there, by rw [given.chan], h.posted.state _, told⟩
  rw [h.toRound.ticking.writes writes]
  generalize t.giveTick (some e.channel) = g at given untold
  have unamended : g.amendsSecond e.channel = false := by
    rw [State.amendsSecond, given.chan, ← State.amendsSecond]; exact still
  have tested := untold.writingSecond own given.canonical unamended
  generalize g.writingSecond e.channel = w at tested
  exact tested.spared .of_same

theorem secondTick (canonical : u.canonical = true) (tied : SeatsTied u) (o : TickOrder)
    (writes : u.writesSecond e.channel = true) (still : u.amendsSecond e.channel = false) :
    Course u 16 (u.secondTick o) ∧ WarnedAt u i k e 16 (u.secondTick o) := by
  have seated : (u.tallied e).state ≠ .allocated ∧ (u.tallied e).channel = e.channel := (u.tallied_come own.writer).2
  have spared {n : Nat} {t v : State} (at_ : WarnedAt u i k e n t) (entry : ¬n ≤ e.channel → v.entry k = t.entry k)
      (spares : Spares i k t v) : WarnedAt u i k e n v := by
    unfold WarnedAt at at_ ⊢
    split at at_ <;> rename_i early
    · rw [if_pos early]; exact spares.told.trans at_
    · rw [if_neg early]; exact ⟨(entry early).trans at_.1, at_.2.spared spares⟩
  refine State.secondTick_course (P := fun _ n t => WarnedAt u i k e n t) canonical tied o ?_ (fun t n h at_ => ?_)
    (fun b t n h at_ => ?_) fun b t n low h at_ => ?_
  · unfold WarnedAt
    rw [if_pos (Nat.zero_le _)]
    rfl
  · refine spared at_ (fun late => ?_) (.tickSeats t)
    rw [WarnedAt, if_neg late] at at_
    rw [at_.1]
    exact (h.tied.tickSeats.2 e.channel).stands at_.1 seated.2 seated.1
  · exact spared at_ (fun _ => (Moves.tickSignals t).frame.entry k) (.tickSignals t)
  · by_cases here : n = e.channel
    · subst here
      rw [WarnedAt, if_pos (Nat.le_refl _)] at at_
      rw [WarnedAt, if_neg (by omega)]
      exact ⟨h.tallies writes own.found rfl own.writer, own.own_turn h writes still at_⟩
    · have away := own.elsewhere h at_ (Ne.symm here)
      have spares := Spares.passTick (i := i) away h.canonical
      have after := spared at_ (fun _ => ?_) spares
      · unfold WarnedAt at after ⊢
        split at after <;> rename_i early
        · rw [if_pos (by omega)]; exact after
        · rw [if_neg (by omega)]; exact after
      · obtain ⟨f, found, other⟩ := away
        rw [found]
        exact (Confined.passTick h.canonical).other found other

/-- With time left the candidate writes on. -/
theorem tallied (still : u.amendsSecond e.channel = false) : u.tallied e = { e with written := e.written + 1 } := by
  have running : ¬(e.state = .onBreak ∧ 0 < e.remaining) := fun ⟨paused, left⟩ => by
    rcases own.counts with x | ⟨-, spent⟩
    · rw [x] at paused; cases paused
    · omega
  rw [State.tallied, Channel.retimedSecond_eq u own.writer, still]
  unfold State.counts Entry.count
  simp only [own.writer, running, if_true, if_false, Bool.false_eq_true, Nat.not_le.2 own.more]

end Writes

/-! ## What follows at once -/

theorem Occupancy.taken_true {o : Occupancy} : o.taken = some (k, true) ↔ o = .occupied k := by
  cases o <;> simp [Occupancy.taken]

/-- A busy line goes on with its exchange, and its candidate keeps the warning. -/
theorem State.settle_occupied (tied : SeatsTied s) (lawful : s.linesLawful = true) (occ : (s.seat i).occ = .occupied k)
    (busy : (s.line (seatLine i)).exchange ≠ none) :
    s.settle.line (seatLine i) = s.line (seatLine i) ∧ mapGet s.settle.warnings k = mapGet s.warnings k := by
  rw [State.line_settle, State.warnings_settle]
  refine (foldl_invariant (fun t => t.linesLawful = true ∧ t.seats = s.seats ∧
    t.line (seatLine i) = s.line (seatLine i) ∧ mapGet t.warnings k = mapGet s.warnings k) State.runLine
    (fun t m ⟨sound, seats, line, told⟩ => ?_) lineNumbers s ⟨lawful, rfl, rfl, rfl⟩).2.2
  by_cases own : m = seatLine i
  · rw [State.runLine_busy (by rw [own, line]; exact busy)]
    exact ⟨sound, seats, line, told⟩
  · refine ⟨(Moves.runLine t m).lawful sound, ((Moves.runLine t m).frame.2 .seats (by decide)).trans seats,
      ((LineRun.runLine t m).others _ (Ne.symm own)).trans line, ?_⟩
    refine ((State.warned_runLine sound k).resolve_right fun ⟨j, there, occ'⟩ => ?_).trans told
    rw [State.seat, seats, ← State.seat] at occ'
    exact own (by rw [← there, tied.one_seat occ occ'])

theorem Writes.warningsCounted (own : Writes u i k e) (canonical : u.canonical = true) (tied : SeatsTied u)
    (lawful : u.linesLawful = true) (o : TickOrder) (low : e.channel < 16) (writes : u.writesSecond e.channel = true)
    (still : u.amendsSecond e.channel = false) (busy : (u.line (seatLine i)).exchange ≠ none) :
    WarningsCounted u (u.secondTick o).settle k e i := by
  obtain ⟨course, warned⟩ := own.secondTick canonical tied o writes still
  generalize u.secondTick o = v at course warned ⊢
  rw [WarnedAt, if_neg (by omega), own.tallied still] at warned
  obtain ⟨there, tested⟩ := warned
  have occ : (v.seat i).occ = .occupied k := by
    obtain ⟨x, sits, taken⟩ := course.tied.seat_of there own.seat
    have up : some x = some true := by
      rw [← sits]
      rcases EntryState.isWriting_cases own.writer with z | z <;> exact congrArg EntryState.sits z
    rw [Option.some.inj up] at taken
    exact Occupancy.taken_true.1 taken
  obtain ⟨line, told⟩ := State.settle_occupied course.tied (course.moves.lawful lawful) occ (course.posted.busy busy)
  generalize v.settle = w at line told ⊢
  unfold WarningsCounted
  dsimp only
  rw [line, told]
  exact ⟨tested.told, fun loud due => tested.marked loud due occ⟩

theorem Readied.warningsCounted (h : Readied s u) (counted : WarningsCounted u t k e i) : WarningsCounted s t k e i := by
  unfold WarningsCounted at counted ⊢
  dsimp only at counted ⊢
  rw [h.config, h.warnings, (h.line _).2.1] at counted
  exact counted

/-! ## The obligation -/

theorem EntryCounted.settle (h : EntryCounted s v k e) : EntryCounted s v.settle k e := by
  unfold EntryCounted at h ⊢
  dsimp only at h ⊢
  rw [(Moves.settle v).frame.entry]
  exact h

/-- Every seat and every writing candidate through a second tick. -/
theorem Readied.allCounted (ready : Readied s u) (canonical : s.canonical = true) (agree : s.seatsAgree = true)
    (lawful : s.linesLawful = true) (known : ∀ k e, s.entry k = some e → e.channel ≤ 15) (o : TickOrder) :
    (∀ j, SeatCounted s (u.secondTick o).settle j) ∧
      ∀ k e, s.entry k = some e → e.state = .writing ∨ e.state = .onBreak → s.writesSecond e.channel = true →
        EntryCounted s (u.secondTick o).settle k e ∧
          (e.state = .onBreak → e.remaining = 1 → Category.budgetOut ∈ (u.secondTick o).settle.office.flags) ∧
          ∀ j, e.seat = some j → (s.line (seatLine j)).exchange ≠ none → s.amendsSecond e.channel = false →
            e.state = .writing ∨ e.remaining = 0 → e.written + 1 < e.allowed →
              WarningsCounted s (u.secondTick o).settle k e j := by
  have tied : SeatsTied u := (SeatsTied.of_agree agree).same (fun k => by rw [ready.entry]) fun i => by rw [ready.seat]
  have form := ready.canonical canonical
  refine ⟨fun j => (ready.seatCounted (.secondTick form tied (fun k e found => ?_) o j)).settle,
    fun k e found state writes => ⟨?_, fun paused last => ?_, fun j own busy still counts more => ?_⟩⟩
  · exact known k e ((ready.entry k).symm.trans found)
  all_goals
    have low : e.channel < 16 := Nat.lt_succ_of_le (known k e found)
    have found' : u.entry k = some e := (ready.entry k).trans found
    have writes' : u.writesSecond e.channel = true := (ready.writesSecond e.channel).trans writes
    have writer : e.state.isWriting = true := by rcases state with x | x <;> rw [x] <;> rfl
  · have tallied := State.secondTick_tallied form tied o writes' low found' rfl writer
    rw [ready.tallied writer] at tallied
    exact (State.tallied_counted tallied writer).settle
  · exact (Moves.settle _).raised _ (State.secondTick_exhausts form tied o writes' low found' rfl paused last)
  · refine ready.warningsCounted (Writes.warningsCounted ⟨found', own, ?_, more⟩ form tied (ready.lawful lawful) o low writes'
      ((ready.amendsSecond e.channel).trans still) (by rw [(ready.line _).1]; exact busy))
    rcases state with x | x
    · exact .inl x
    · exact .inr ⟨x, counts.resolve_left fun y => by rw [x] at y; cases y⟩

/-- Settles O20, the counts at 0 by their rows, and the second tick by what stands at each of its turns of a seat, of a
candidate's entry, and of its warning and mark. -/
theorem countsAtZeroActOnTheirSeatOrEntry : Obligations.CountsAtZeroActOnTheirSeatOrEntry := by
  unfold Obligations.CountsAtZeroActOnTheirSeatOrEntry
  refine ⟨fun i k e s => ⟨budgetExhaustion_exhausts, seatingExpiry_expires, clearingEnd_frees⟩,
    fun i s brings canonical agree lawful known => ?_⟩
  obtain ⟨u, o, ready, run⟩ := exec_second brings
  exact ⟨_, run, ready.allCounted canonical agree lawful known o⟩

end Sys2Proof.Machine
end
